-- ==== Sys2Proof/Word.lean ====
section
/-! DEFINITION. The word types of the block and their plainest conversions. -/

namespace Sys2Proof

/-- A byte, the unit of every address map (R6, R162). -/
abbrev Byte := BitVec 8
/-- A 16-bit value. -/
abbrev W16 := BitVec 16
/-- A 32-bit word: an FP32 code, a lane of a vector register, a length field. -/
abbrev W32 := BitVec 32
/-- A 64-bit word: a scalar register or a device register. -/
abbrev W64 := BitVec 64
/-- A 128-bit word: one bundle (R42). -/
abbrev W128 := BitVec 128

/-- Physical core number, 64·v to 64·v + 63 on die VATv (R12). -/
abbrev CoreId := Fin 256
/-- Cellar die n (R12). -/
abbrev CelId := Fin 4
/-- Vat die v (R12). -/
abbrev VatId := Fin 4
/-- Fabric port p (R17). -/
abbrev PortId := Fin 12
/-- Submission queue q (R376). -/
abbrev QId := Fin 64
/-- Firmware processor number PROC (R397). -/
abbrev ProcId := Fin 10
/-- Cave port k (R392). -/
abbrev CaveId := Fin 4
/-- Accessory site (R12). -/
abbrev AccId := Fin 2
/-- Address generator g (R56). -/
abbrev AgId := Fin 4
/-- Scalar register number (R40). -/
abbrev SReg := Fin 32
/-- Vector register number (R40). -/
abbrev VReg := Fin 64
/-- Predicate register number (R40). -/
abbrev PReg := Fin 8
/-- Semaphore number (R40). -/
abbrev SemId := Fin 64
/-- Axis of the torus: 0 X, 1 Y, 2 Z (R277). -/
abbrev Axis := Fin 3

end Sys2Proof
end

