-- ==== Sys2Proof/Config.lean ====
section
/-! DEFINITION. What the spec leaves to the implementation: values with no body, so that nothing can be proved of them
beyond what the definitions that use them enforce. -/

namespace Sys2Proof.Config

/-- The FP32 code a stage delivers within its error bound (R122); arguments: stage code, x, y, T, C. -/
opaque stageFree : Nat → BitVec 32 → BitVec 32 → BitVec 32 → BitVec 32 → BitVec 32

/-- Sign (bit 22) and bits below the quiet bit of a NaN result, which the spec does not fix; arguments: the operation and its operands. DESIGN CHOICE, safe (log 17). -/
opaque nanBits : (op : Nat) → (args : List Nat) → BitVec 23

/-- The n-th 16-bit random value of a core's LFSR after it was seeded (R137). DESIGN CHOICE, safe (log 92). -/
opaque lfsr : (seed : BitVec 64) → (n : Nat) → BitVec 16

/-- What a b-ring slot holds beyond what its load wrote: bytes 0 to 255 of data, then 4 scales and 32 bytes of indices (R87, R91); arguments: the
number of the load and the byte. DESIGN CHOICE, safe (log 98). -/
opaque ringRest : (load : Nat) → (i : Nat) → BitVec 8

/-- A fresh free value of 64 bits; the argument is the counter `free` of State. DESIGN CHOICE, safe (log 3). -/
opaque fresh : Nat → BitVec 64

/-- Choice of a number below `bound`, for an order that R4 leaves open; arguments: event counter, position, bound. DESIGN CHOICE, safe (log 92). -/
opaque order : (event : Nat) → (pos : Nat) → (bound : Nat) → Nat

/-- Fixed hash that selects a combiner set from a key (R224). DEDUCED, unsafe (log 81). -/
opaque cmbHash : (table : Nat) → (row : Nat) → Nat

/-- Fixed hash h of (TABLE_ID, Q) at Press (R236, R237). DEDUCED, unsafe (log 81). -/
opaque pressHash : (table : Nat) → (q : Nat) → Nat

/-- Fixed hash of SRC, DST and CLASS that selects a port of a pair (R299). DESIGN CHOICE, safe (log 92). -/
opaque portHash : (src : Nat) → (dst : Nat) → (cls : Nat) → Nat

/-- Fixed hash that places a line in a set of the row cache (R174). DESIGN CHOICE, safe (log 27). DESIGN CHOICE, safe (log 92). -/
opaque rowCacheSet : (line : Nat) → Nat

/-- Mask M_i of the keyed interleave for a domain, drawn from SHAKE256 over the key (R169). DEDUCED, safe (log 86). -/
opaque interleaveMask : (key : BitVec 64) → (domain : Nat) → (i : Nat) → Nat

/-- SHAKE256 digest, 256 bits, of a byte string (R399, R403, R447, R501). DESIGN CHOICE, safe (log 65). -/
opaque shake256 : List (BitVec 8) → BitVec 256

/-- Verification of an XMSS-SHAKE256_20_256 signature (R495): key, digest, signature bytes. DESIGN CHOICE, safe (log 65). -/
opaque xmssVerify : (pk : BitVec 512) → (digest : BitVec 256) → (sig : List (BitVec 8)) → Bool

/-- The XMSS signature of a digest under the identity key with a given index (R501), 2,820 bytes. DESIGN CHOICE, safe (log 65). -/
opaque xmssSign : (sk : BitVec 512) → (index : Nat) → (digest : BitVec 256) → List (BitVec 8)

/-- The XMSS root computed from the secret seeds at provisioning (R494). DESIGN CHOICE, safe (log 65). -/
opaque xmssRoot : (sk : BitVec 512) → (pubSeed : BitVec 256) → BitVec 256

/-- A byte of a log record's payload where the spec names the fields but not their places (R412, R516). DESIGN CHOICE, safe (log 77). -/
opaque payloadByte : (typ : Nat) → (fields : List Nat) → (i : Nat) → BitVec 8

/-- The severity of a record type and code, which R411 lets a record carry without saying which one it is. DESIGN CHOICE, safe (log 77). -/
opaque severity : (typ : Nat) → (code : Nat) → Nat

/-- Identifiers that the spec says are assigned to the vendor and does not print (R368, R450, R497). DESIGN CHOICE, safe (log 94). -/
opaque vendorId : BitVec 16
/-- JEDEC manufacturer code of IDCODE (R497). DESIGN CHOICE, safe (log 94). -/
opaque jedecId : BitVec 11
/-- MIPI manufacturer identifier of the I3C provisioned ID (R450). DESIGN CHOICE, safe (log 94). -/
opaque mipiId : BitVec 15

end Sys2Proof.Config
end

