-- ==== Sys2Proof/Machine/Cells.lean ====
section
/-! DEFINITION. Sparse tables of words by number: strictly rising keys, no entry equal to what an unlisted key reads
as, which is 0 (HBM is written with zeros at every start, R453; core stores and instruction memories likewise). Byte
order (R6) is decided here. -/

namespace Sys2Proof.Machine

/-- A table of `w`-bit words in canonical form. -/
abbrev Cells (w : Nat) := List (Nat × BitVec w)

/-- A memory: a table of bytes (the host's cells). -/
abbrev Memory := List Host.Cell

/-- The word at key `a`; an unlisted key reads 0. DESIGN CHOICE, unsafe (log 2). -/
def Cells.get {w : Nat} : Cells w → Nat → BitVec w
  | [], _ => 0#w
  | (k, v) :: r, a => if k = a then v else if a < k then 0#w else Cells.get r a

/-- The table with `v` at key `a`; writing 0 removes the entry. -/
def Cells.set {w : Nat} : Cells w → Nat → BitVec w → Cells w
  | [], a, v => if v = 0#w then [] else [(a, v)]
  | (k, x) :: r, a, v =>
    if a < k then (if v = 0#w then (k, x) :: r else (a, v) :: (k, x) :: r)
    else if k = a then (if v = 0#w then r else (a, v) :: r)
    else (k, x) :: Cells.set r a v

/-- Every key of the table is above `lo`, keys rise strictly, no value is 0. -/
def Cells.wfFrom {w : Nat} : Nat → Cells w → Bool
  | _, [] => true
  | lo, (k, v) :: r => decide (lo ≤ k) && decide (v ≠ 0#w) && Cells.wfFrom (k + 1) r

/-- The canonical form. -/
def Cells.wf {w : Nat} (m : Cells w) : Bool := Cells.wfFrom 0 m

/-- The canonical form of a memory. -/
def Memory.wf (m : Memory) : Bool := Cells.wfFrom 0 m

/-- `n` consecutive words from key `a`. -/
def Cells.read {w : Nat} (m : Cells w) (a : Nat) : Nat → List (BitVec w)
  | 0 => []
  | n + 1 => Cells.get m a :: Cells.read m (a + 1) n

/-- Consecutive words written from key `a` upward. -/
def Cells.write {w : Nat} (m : Cells w) (a : Nat) : List (BitVec w) → Cells w
  | [] => m
  | v :: vs => Cells.write (Cells.set m a v) (a + 1) vs

/-- The table with every key of [a, a + n) set to 0. -/
def Cells.clear {w : Nat} (m : Cells w) (a n : Nat) : Cells w :=
  m.filter fun c => c.1 < a || a + n ≤ c.1

/-- The table over keys 0 to n − 1 whose words a function gives. -/
def Cells.build {w : Nat} (n : Nat) (f : Nat → BitVec w) : Cells w :=
  (List.range n).filterMap fun i => if f i = 0#w then none else some (i, f i)

/-- The `n` words from key `a` of a table none of whose keys lie below `a`, in one walk. -/
def Cells.denseGo {w : Nat} : Nat → Cells w → Nat → List (BitVec w)
  | 0, _, _ => []
  | n + 1, [], a => 0#w :: Cells.denseGo n [] (a + 1)
  | n + 1, (k, v) :: r, a =>
    if k = a then v :: Cells.denseGo n r (a + 1) else 0#w :: Cells.denseGo n ((k, v) :: r) (a + 1)

/-- `n` consecutive words from key `a`, in one walk. -/
def Cells.dense {w : Nat} (m : Cells w) (a n : Nat) : List (BitVec w) :=
  Cells.denseGo n (m.dropWhile fun c => c.1 < a) a

/-- The table whose words from key `a` upward are the given ones, the rest kept, in one walk. -/
def Cells.putDense {w : Nat} (m : Cells w) (a : Nat) (vs : List (BitVec w)) : Cells w :=
  m.filter (fun c => c.1 < a) ++
    (vs.zipIdx.filterMap fun p => if p.1 = 0#w then none else some (a + p.2, p.1)) ++
    m.filter (fun c => a + vs.length ≤ c.1)

/-- The little-endian value of bytes (R6). -/
def leNat : List Byte → Nat
  | [] => 0
  | b :: bs => b.toNat + 256 * leNat bs

/-- The `n` little-endian bytes of a number (R6). -/
def toLe : Nat → Nat → List Byte
  | 0, _ => []
  | n + 1, x => BitVec.ofNat 8 x :: toLe n (x / 256)

/-- The little-endian value of `n` bytes at `a`. -/
def Cells.le (m : Cells 8) (a n : Nat) : Nat := leNat (Cells.read m a n)

/-- The memory with `n` little-endian bytes of `x` at `a`. -/
def Cells.putLe (m : Cells 8) (a n x : Nat) : Cells 8 := Cells.write m a (toLe n x)

/-- Bits [hi:lo] of a number. -/
def bits (x hi lo : Nat) : Nat := (x >>> lo) % 2 ^ (hi + 1 - lo)

/-- Bit `i` of a number. -/
def bit (x i : Nat) : Bool := x.testBit i

/-- The signed value of the low `n` bits of a number. -/
def signed (n x : Nat) : Int :=
  let y := x % 2 ^ n
  if y < 2 ^ (n - 1) then y else (y : Int) - 2 ^ n

/-- Little-endian field of a byte list: `n` bytes at offset `o`. -/
def fieldLe (bs : List Byte) (o n : Nat) : Nat := leNat ((bs.drop o).take n)

/-- Rounding a number up to a multiple of `k`. -/
def roundUp (x k : Nat) : Nat := (x + k - 1) / k * k

/-- Division rounding up. -/
def ceilDiv (x k : Nat) : Nat := (x + k - 1) / k

/-- One step of CRC-32C (Castagnoli polynomial, reflected) over a byte (R285, R349, R402). -/
def crcByte (c : Nat) (b : Byte) : Nat :=
  (List.range 8).foldl (fun c _ => if c % 2 = 1 then (c / 2) ^^^ 0x82f63b78 else c / 2) (c ^^^ b.toNat)

/-- CRC-32C of a byte string. -/
def crc32c (bs : List Byte) : Nat := (bs.foldl crcByte 0xffffffff) ^^^ 0xffffffff

/-- A count that stops at `2^n − 1`. -/
def satAdd (n x d : Nat) : Nat := min (x + d) (2 ^ n - 1)

/-- Replacing the `i`-th element of a list; beyond its end nothing changes. -/
def listSet {α : Type} (l : List α) (i : Nat) (f : α → α) : List α := l.modify i f

/-- Whether [a, a + n) and [b, b + k) share a number. -/
def overlaps (a n b k : Nat) : Bool := a < b + k && b < a + n && 0 < n && 0 < k

end Sys2Proof.Machine
end

