-- ==== Sys2Proof/Machine/Float.lean ====
section
/-! DEFINITION. Exact values and roundings (R133 to R138): every format is read into an exact dyadic value, arithmetic is
exact, and one rounding narrows the result. -/

namespace Sys2Proof.Machine

/-- An exact value: (−1)^neg × m × 2^e, an infinity, or a NaN with the payload below the quiet bit of FP32. -/
inductive FVal where
  | nan (neg : Bool) (payload : Nat)
  | inf (neg : Bool)
  | fin (neg : Bool) (m : Nat) (e : Int)
  deriving DecidableEq, Repr

/-- Treatment of the largest exponent: IEEE 754, E4M3 of OCP OFP8, an MX element without special codes, or an MX element that reads as
IEEE 754 and saturates (R133, R138). -/
inductive FClass where
  | ieee | e4m3 | elem | sat
  deriving DecidableEq, Repr

/-- A binary floating-point layout: exponent bits, fraction bits, bias. -/
structure FFmt where
  eb : Nat
  mb : Nat
  bias : Nat
  cls : FClass
  deriving DecidableEq, Repr

/-- The layouts of R133. -/
def fp32 : FFmt := ⟨8, 23, 127, .ieee⟩
def bf16 : FFmt := ⟨8, 7, 127, .ieee⟩
def fp16 : FFmt := ⟨5, 10, 15, .ieee⟩
def fmtE4m3 : FFmt := ⟨4, 3, 7, .e4m3⟩
def fmtE5m2 : FFmt := ⟨5, 2, 15, .ieee⟩
def fmtMxE5m2 : FFmt := ⟨5, 2, 15, .sat⟩
def fmtE2m3 : FFmt := ⟨2, 3, 1, .elem⟩
def fmtE3m2 : FFmt := ⟨3, 2, 3, .elem⟩
def fmtE2m1 : FFmt := ⟨2, 1, 1, .elem⟩
def xf40 : FFmt := ⟨8, 31, 127, .ieee⟩

/-- Bits of a code of the layout. -/
def FFmt.width (f : FFmt) : Nat := 1 + f.eb + f.mb

/-- The exponent of the last place of a subnormal. -/
def FFmt.qmin (f : FFmt) : Int := 1 - (f.bias : Int) - f.mb

/-- The largest finite magnitude as (mantissa, exponent). -/
def FFmt.maxFin (f : FFmt) : Nat × Int :=
  match f.cls with
  | .ieee | .sat => (2 ^ (f.mb + 1) - 1, (2 ^ f.eb - 2 : Nat) - (f.bias : Int) - f.mb)
  | .e4m3 => (2 ^ (f.mb + 1) - 2, (2 ^ f.eb - 1 : Nat) - (f.bias : Int) - f.mb)
  | .elem => (2 ^ (f.mb + 1) - 1, (2 ^ f.eb - 1 : Nat) - (f.bias : Int) - f.mb)

/-- The exact value of a code (R133). -/
def FFmt.decode (f : FFmt) (x : Nat) : FVal :=
  let neg := x.testBit (f.eb + f.mb)
  let ex := bits x (f.eb + f.mb - 1) f.mb
  let fr := x % 2 ^ f.mb
  let finite : FVal :=
    if ex = 0 then .fin neg fr f.qmin else .fin neg (2 ^ f.mb + fr) ((ex : Int) - f.bias - f.mb)
  match f.cls with
  | .ieee | .sat =>
    if ex = 2 ^ f.eb - 1 then
      if fr = 0 then .inf neg else .nan neg ((fr * 2 ^ (31 - f.mb) / 2 ^ 8) % 2 ^ 22)
    else finite
  | .e4m3 => if ex = 2 ^ f.eb - 1 ∧ fr = 2 ^ f.mb - 1 then .nan neg 0 else finite
  | .elem => finite

/-- The sign of a value. -/
def FVal.neg : FVal → Bool
  | .nan s _ => s
  | .inf s => s
  | .fin s _ _ => s

def FVal.isNan : FVal → Bool
  | .nan _ _ => true
  | _ => false

def FVal.isFinite : FVal → Bool
  | .fin _ _ _ => true
  | _ => false

def FVal.isZero : FVal → Bool
  | .fin _ 0 _ => true
  | _ => false

/-- Left shift by a non-negative, right shift by a negative amount on the denominator: n/d × 2^s as a fraction. -/
def scaleFrac (n d : Nat) (s : Int) : Nat × Nat :=
  if 0 ≤ s then (n * 2 ^ s.toNat, d) else (n, d * 2 ^ (-s).toNat)

/-- ⌊log₂ (n/d)⌋ for positive n and d. -/
def flog2 (n d : Nat) : Int :=
  let k : Int := (n.log2 : Int) - d.log2
  let (a, b) := scaleFrac n d (-k)
  if b ≤ a then k else k - 1

/-- Rounding mode: to nearest even, or stochastic with a 16-bit random value (R137). -/
inductive RMode where
  | rne
  | stoch (r : BitVec 16)
  deriving DecidableEq, Repr

/-- A non-negative fraction rounded to an integer (R137). -/
def roundInt (mode : RMode) (n d : Nat) : Nat :=
  let q := n / d
  let r := n % d
  match mode with
  | .rne => if 2 * r < d then q else if d < 2 * r then q + 1 else q + q % 2
  | .stoch v => if 65536 ≤ r * 65536 / d + v.toNat then q + 1 else q

/-- The exponent of the last retained place of n/d × 2^e in the layout, subnormal spacing included. -/
def FFmt.quantum (f : FFmt) (n d : Nat) (e : Int) : Int := max (flog2 n d + e - f.mb) f.qmin

/-- n/d × 2^e rounded to the layout's precision with an unbounded exponent: mantissa and its exponent. -/
def FFmt.roundMag (f : FFmt) (mode : RMode) (n d : Nat) (e : Int) : Nat × Int :=
  if n = 0 then (0, f.qmin) else
  let q := f.quantum n d e
  let (a, b) := scaleFrac n d (e - q)
  (roundInt mode a b, q)

/-- Comparison of magnitudes m × 2^e. -/
def magLt (m : Nat) (e : Int) (m' : Nat) (e' : Int) : Bool :=
  if e ≤ e' then decide (m < m' * 2 ^ (e' - e).toNat) else decide (m * 2 ^ (e - e').toNat < m')

/-- The code of an exactly representable finite magnitude with a sign. -/
def FFmt.encodeFin (f : FFmt) (neg : Bool) (m : Nat) (e : Int) : Nat :=
  let s := if neg then 2 ^ (f.eb + f.mb) else 0
  if m = 0 then s else
  let k : Int := (m.log2 : Int) + e
  let q := max (k - f.mb) f.qmin
  let mant := if q ≤ e then m * 2 ^ (e - q).toNat else m / 2 ^ (q - e).toNat
  if mant < 2 ^ f.mb then s + mant
  else s + (q + f.mb + f.bias).toNat * 2 ^ f.mb + (mant - 2 ^ f.mb)

/-- How an element converted, by the rows of R138 (telemetry of R157). -/
inductive ConvClass where
  | normal | sub | ftz | ovf | nan | zero
  deriving DecidableEq, Repr

/-- Narrowing of a finite non-zero fraction with a sign into the layout (R138). -/
def FFmt.narrowFin (f : FFmt) (mode : RMode) (neg : Bool) (n d : Nat) (e : Int) : Nat × ConvClass :=
  let s := if neg then 2 ^ (f.eb + f.mb) else 0
  let (m, q) := f.roundMag mode n d e
  let (mm, me) := f.maxFin
  if magLt mm me m q then
    match f.cls with
    | .ieee => (s + (2 ^ f.eb - 1) * 2 ^ f.mb, .ovf)
    | _ => (f.encodeFin neg mm me, .ovf)
  else if m = 0 then (s, .ftz)
  else (f.encodeFin neg m q, if m < 2 ^ f.mb ∧ q = f.qmin then .sub else .normal)

/-- Narrowing of an exact value into the layout (R138); an XF40 NaN is 0x7fc0_0000 with extension 0 (R135). An MX element's NaN is the block's scale 0xff and code 0. DESIGN CHOICE, safe (log 17). -/
def FFmt.narrow (f : FFmt) (mode : RMode) (v : FVal) : Nat × ConvClass :=
  let sgn := fun (b : Bool) => if b then 2 ^ (f.eb + f.mb) else 0
  match v with
  | .nan s p =>
    match f.cls with
    | .ieee =>
      let low := if f.mb = 23 then p else if f.mb = 31 then 0 else (Config.nanBits 0x200 [f.mb, if s then 1 else 0, p]).toNat
      (sgn s + (2 ^ f.eb - 1) * 2 ^ f.mb + 2 ^ (f.mb - 1) + low % 2 ^ (f.mb - 1), .nan)
    | .e4m3 => (sgn s + (2 ^ (f.eb + f.mb) - 1), .nan)
    | .elem | .sat => (0, .nan)
  | .inf s =>
    match f.cls with
    | .ieee => (sgn s + (2 ^ f.eb - 1) * 2 ^ f.mb, .ovf)
    | _ => (f.encodeFin s f.maxFin.1 f.maxFin.2, .ovf)
  | .fin s 0 _ => (sgn s, .zero)
  | .fin s m e => f.narrowFin mode s m 1 e

/-- Narrowing to INT8 (R138): two's complement, saturating, NaN to 0. -/
def narrowInt8 (mode : RMode) (v : FVal) : Nat × ConvClass :=
  match v with
  | .nan _ _ => (0, .nan)
  | .inf s => (if s then 0x80 else 0x7f, .ovf)
  | .fin _ 0 _ => (0, .zero)
  | .fin s m e =>
    let (a, b) := scaleFrac m 1 e
    let k := roundInt mode a b
    if s then (if 128 < k then (0x80, .ovf) else if k = 0 then (0, .ftz) else (256 - k, .normal))
    else (if 127 < k then (0x7f, .ovf) else if k = 0 then (0, .ftz) else (k, .normal))

/-- The exact value of an INT8 code. -/
def decodeInt8 (x : Nat) : FVal :=
  let y := x % 256
  if y < 128 then .fin false y 0 else .fin true (256 - y) 0

/-- The invalid-operation NaN, 0x7fc0_0000 in FP32 (R140). -/
def FVal.invalid : FVal := .nan false 0

/-- The parts of a value as numbers. -/
def FVal.key : FVal → List Nat
  | .nan s p => [1, if s then 1 else 0, p]
  | .inf s => [2, if s then 1 else 0]
  | .fin s m e => [3, if s then 1 else 0, m, e.toNat, (-e).toNat]

/-- A NaN result whose sign and low bits the spec leaves open. DESIGN CHOICE, safe (log 17). -/
def FVal.freeNan (op : Nat) (args : List Nat) : FVal :=
  let x := Config.nanBits op args
  .nan (x.getLsbD 22) (x.toNat % 2 ^ 22)

/-- Exact sum. A zero sum of opposite signs is +0; two like zeros keep their sign. -/
def FVal.add (a b : FVal) : FVal :=
  match a, b with
  | .nan _ _, _ => .freeNan 0x201 (a.key ++ b.key)
  | _, .nan _ _ => .freeNan 0x201 (a.key ++ b.key)
  | .inf s, .inf t => if s = t then .inf s else .invalid
  | .inf s, _ => .inf s
  | _, .inf t => .inf t
  | .fin s m e, .fin t k g =>
    let q := min e g
    let x : Int := (if s then -1 else 1) * (m * 2 ^ (e - q).toNat : Nat)
    let y : Int := (if t then -1 else 1) * (k * 2 ^ (g - q).toNat : Nat)
    let z := x + y
    if z = 0 then .fin (s && t) 0 q else .fin (decide (z < 0)) z.natAbs q

/-- The value with its sign turned. -/
def FVal.negate : FVal → FVal
  | .nan s p => .nan (!s) p
  | .inf s => .inf (!s)
  | .fin s m e => .fin (!s) m e

/-- Exact product. -/
def FVal.mul (a b : FVal) : FVal :=
  match a, b with
  | .nan _ _, _ => .freeNan 0x202 (a.key ++ b.key)
  | _, .nan _ _ => .freeNan 0x202 (a.key ++ b.key)
  | .inf s, .inf t => .inf (s != t)
  | .inf s, .fin t m _ => if m = 0 then .invalid else .inf (s != t)
  | .fin s m _, .inf t => if m = 0 then .invalid else .inf (s != t)
  | .fin s m e, .fin t k g => .fin (s != t) (m * k) (e + g)

/-- Numeric order of values that are not NaN: a < b. -/
def FVal.lt (a b : FVal) : Bool :=
  match a, b with
  | .nan _ _, _ => false
  | _, .nan _ _ => false
  | .inf s, .inf t => s && !t
  | .inf s, .fin _ _ _ => s
  | .fin _ _ _, .inf t => !t
  | .fin s m e, .fin t k g =>
    if m = 0 ∧ k = 0 then false
    else if m = 0 then !t
    else if k = 0 then s
    else if s && !t then true
    else if !s && t then false
    else if s then magLt k g m e
    else magLt m e k g

/-- Numeric equality; a NaN equals nothing, −0 equals +0. -/
def FVal.eqv (a b : FVal) : Bool := !a.isNan && !b.isNan && !a.lt b && !b.lt a

/-- The exact value of an FP32 code. -/
def f32 (x : W32) : FVal := fp32.decode x.toNat

/-- An exact value rounded to nearest even in FP32. -/
def toF32 (v : FVal) : W32 := BitVec.ofNat 32 (fp32.narrow .rne v).1

/-- The same where the result may be a NaN of open sign and low bits; `op` is a stage code (R122). DESIGN CHOICE, safe (log 17). -/
def toF32Free (op : Nat) (args : List W32) (v : FVal) : W32 :=
  toF32 (if v.isNan then .freeNan op (args.map (·.toNat)) else v)

/-- A NaN of open sign and low bits. DESIGN CHOICE, safe (log 17). -/
def nanFree (op : Nat) (args : List W32) : W32 := toF32Free op args .invalid

/-- FP32 addition, round to nearest even (R48). -/
def fadd (a b : W32) : W32 := toF32Free 0x001 [a, b] ((f32 a).add (f32 b))

/-- FP32 subtraction. -/
def fsub (a b : W32) : W32 := toF32Free 0x002 [a, b] ((f32 a).add (f32 b).negate)

/-- FP32 multiplication. -/
def fmul (a b : W32) : W32 := toF32Free 0x004 [a, b] ((f32 a).mul (f32 b))

/-- FP32 fused multiply-add c + a × b, one rounding. -/
def ffma (c a b : W32) : W32 := toF32Free 0x005 [c, a, b] ((f32 c).add ((f32 a).mul (f32 b)))

/-- A signed integer rounded to FP32 (R48, s.fcvt FN 0). -/
def intToF32 (x : Int) : W32 := toF32 (.fin (decide (x < 0)) x.natAbs 0)

/-- FP32 to signed 64-bit, truncating (R48, s.fcvt FN 1). -/
def f32ToInt (x : W32) : W64 :=
  match f32 x with
  | .nan _ _ => 0#64
  | .inf s => if s then BitVec.ofNat 64 (2 ^ 63) else BitVec.ofNat 64 (2 ^ 63 - 1)
  | .fin s m e =>
    let (a, b) := scaleFrac m 1 e
    let k := a / b
    if s then (if 2 ^ 63 < k then BitVec.ofNat 64 (2 ^ 63) else BitVec.ofInt 64 (-(k : Int)))
    else (if 2 ^ 63 ≤ k then BitVec.ofNat 64 (2 ^ 63 - 1) else BitVec.ofNat 64 k)

/-- FP32 one. -/
def f32One : W32 := 0x3f800000#32

end Sys2Proof.Machine
end

