-- ==== Sys2Proof/Machine/Formats.lean ====
section
/-! DEFINITION. Format codes, promotion, packing, MX blocks (R130 to R139, R143). -/

namespace Sys2Proof.Machine

/-- The formats of R130; codes 0xc to 0xf are reserved. -/
inductive Fmt where
  | fp32 | bf16 | fp16 | e4m3 | e5m2 | int8 | mx8e4m3 | mx8e5m2 | mx6e2m3 | mx6e3m2 | mx4 | xf40
  deriving DecidableEq, Repr

/-- The format a 4-bit code names (R130). -/
def Fmt.ofCode : Nat → Option Fmt
  | 0 => some .fp32 | 1 => some .bf16 | 2 => some .fp16 | 3 => some .e4m3 | 4 => some .e5m2 | 5 => some .int8
  | 6 => some .mx8e4m3 | 7 => some .mx8e5m2 | 8 => some .mx6e2m3 | 9 => some .mx6e3m2 | 10 => some .mx4
  | 11 => some .xf40 | _ => none

/-- The code of a format (R130). -/
def Fmt.code : Fmt → Nat
  | .fp32 => 0 | .bf16 => 1 | .fp16 => 2 | .e4m3 => 3 | .e5m2 => 4 | .int8 => 5
  | .mx8e4m3 => 6 | .mx8e5m2 => 7 | .mx6e2m3 => 8 | .mx6e3m2 => 9 | .mx4 => 10 | .xf40 => 11

/-- A format a core encoding may name: XF40 and the reserved codes may not be (R131). -/
def Fmt.ofCoreCode (c : Nat) : Option Fmt :=
  match Fmt.ofCode c with
  | some .xf40 => none
  | o => o

/-- The element layout; INT8 has none (R133). -/
def Fmt.layout : Fmt → Option FFmt
  | .fp32 => some Machine.fp32 | .bf16 => some Machine.bf16 | .fp16 => some Machine.fp16
  | .e4m3 | .mx8e4m3 => some fmtE4m3 | .e5m2 => some fmtE5m2 | .mx8e5m2 => some fmtMxE5m2
  | .int8 => none | .mx6e2m3 => some fmtE2m3 | .mx6e3m2 => some fmtE3m2 | .mx4 => some fmtE2m1
  | .xf40 => some Machine.xf40

/-- Whether elements share block scales. -/
def Fmt.isMx : Fmt → Bool
  | .mx8e4m3 | .mx8e5m2 | .mx6e2m3 | .mx6e3m2 | .mx4 => true
  | _ => false

/-- Bits of an element (R133). -/
def Fmt.bits : Fmt → Nat
  | .fp32 => 32 | .bf16 | .fp16 => 16 | .e4m3 | .e5m2 | .int8 | .mx8e4m3 | .mx8e5m2 => 8
  | .mx6e2m3 | .mx6e3m2 => 6 | .mx4 => 4 | .xf40 => 40

/-- Promotion level (R130); XF40 has none. -/
def Fmt.level : Fmt → Nat
  | .fp32 => 4 | .bf16 | .fp16 => 3 | .e4m3 | .e5m2 | .int8 | .mx8e4m3 | .mx8e5m2 => 2
  | .mx6e2m3 | .mx6e3m2 => 1 | .mx4 => 0 | .xf40 => 4

/-- A narrow format has level 3 or lower (R130). -/
def Fmt.narrowFmt (f : Fmt) : Bool := decide (f.level ≤ 3)

/-- ESIZE code of the format (R130). -/
def Fmt.esize : Fmt → Nat
  | .fp32 => 2 | .bf16 | .fp16 => 1 | .mx6e2m3 | .mx6e3m2 => 4 | .mx4 => 3 | _ => 0

/-- k-steps per four ACLK, 4F (R83, R130). -/
def Fmt.rate4 : Fmt → Nat
  | .fp32 => 1 | .bf16 | .fp16 => 4 | .mx6e2m3 | .mx6e3m2 | .mx4 => 16 | .xf40 => 1 | _ => 8

/-- One step up the promotion chain (R143). -/
def Fmt.raise1 : Fmt → Fmt
  | .mx4 => .mx6e3m2 | .mx6e2m3 => .mx8e4m3 | .mx6e3m2 => .mx8e5m2
  | .mx8e4m3 | .mx8e5m2 | .e4m3 | .e5m2 | .int8 => .bf16
  | .bf16 | .fp16 | .fp32 => .fp32 | .xf40 => .xf40

/-- `n` steps up the promotion chain (R143). -/
def Fmt.raise (f : Fmt) : Nat → Fmt
  | 0 => f
  | n + 1 => Fmt.raise f.raise1 n

/-- The element exponent of the largest value of an MX element format (R139). -/
def Fmt.emax : Fmt → Int
  | .mx4 | .mx6e2m3 => 2 | .mx6e3m2 => 4 | .mx8e4m3 => 8 | .mx8e5m2 => 15 | _ => 0

/-- The exact value of an element code without its block scale. -/
def Fmt.elem (f : Fmt) (x : Nat) : FVal :=
  match f.layout with
  | some l => l.decode (x % 2 ^ f.bits)
  | none => decodeInt8 x

/-- A value times the block scale 2^(e − 127); scale 0xff makes it NaN (R133). -/
def applyScale (v : FVal) (scale : Nat) : FVal :=
  if scale = 0xff then .nan false 0 else
  match v with
  | .fin s m e => .fin s m (e + scale - 127)
  | w => w

/-- The exact value of an element with its block scale; other formats behave as scale 2^0 (R132). -/
def Fmt.value (f : Fmt) (x scale : Nat) : FVal :=
  if f.isMx then applyScale (f.elem x) scale else f.elem x

/-- The element widened exactly to FP32 (R117). -/
def Fmt.widen (f : Fmt) (x scale : Nat) : W32 :=
  match f with
  | .fp32 => BitVec.ofNat 32 x
  | .bf16 => BitVec.ofNat 32 (x % 65536 * 65536)
  | _ => toF32Free 0x203 [BitVec.ofNat 32 f.code, BitVec.ofNat 32 x, BitVec.ofNat 32 scale] (f.value x scale)

/-- Whether an element is zero for k-skip: ±0, or an MX element whose code is zero, whatever its scale (R97). -/
def Fmt.elemZero (f : Fmt) (x : Nat) : Bool := (f.elem x).isZero

/-- Narrowing of one element of a format without block scale (R138). -/
def Fmt.narrow (f : Fmt) (mode : RMode) (v : FVal) : Nat × ConvClass :=
  match f.layout with
  | some l => l.narrow mode v
  | none => narrowInt8 mode v

/-- Whether a finite value, rounded in the layout, lies beyond its range (R138). -/
def FFmt.beyond (f : FFmt) (mode : RMode) (v : FVal) : Bool :=
  match v with
  | .fin _ m e =>
    let (k, q) := f.roundMag mode m 1 e
    magLt f.maxFin.1 f.maxFin.2 k q
  | _ => false

/-- A value divided by 2^e. -/
def FVal.scaleDown (v : FVal) (e : Int) : FVal :=
  match v with
  | .fin s m g => .fin s m (g - e)
  | w => w

/-- ⌊log₂⌋ of the largest finite magnitude of a block, none when every element is zero or not finite. -/
def blockLog (vs : List FVal) : Option Int :=
  vs.foldl (fun acc v =>
    match v with
    | .fin _ m e =>
      if m = 0 then acc else
      let k : Int := (m.log2 : Int) + e
      match acc with
      | none => some k
      | some a => some (max a k)
    | _ => acc) none

/-- The scale code R139 gives a block; element i converts in mode `md i`. -/
def mxScale (f : Fmt) (md : Nat → RMode) (vs : List FVal) : Nat :=
  if vs.any FVal.isNan then 0xff
  else if vs.any (fun v => !v.isFinite) then 254
  else match blockLog vs, f.layout with
    | some k, some l =>
      let e := k - f.emax
      let past := vs.zipIdx.any fun p => l.beyond (md p.2) (p.1.scaleDown e)
      let e := if past then e + 1 else e
      (max (-127) (min 127 e) + 127).toNat
    | _, _ => 0

/-- A block quantised into an MX format: scale code, element codes with their classes (R138, R139, R157). -/
def mxBlock (f : Fmt) (md : Nat → RMode) (vs : List FVal) : Nat × List (Nat × ConvClass) :=
  let sc := mxScale f md vs
  if sc = 0xff then (sc, vs.map fun _ => (0, .nan))
  else (sc, vs.zipIdx.map fun p => f.narrow (md p.2) (p.1.scaleDown ((sc : Int) - 127)))

/-- Elements packed little-endian from bit 0 upward (R134; whole-byte formats likewise). -/
def packElems (w : Nat) (codes : List Nat) : List Byte :=
  toLe ((codes.length * w + 7) / 8) (codes.foldr (fun c acc => c % 2 ^ w + 2 ^ w * acc) 0)

/-- The `n` elements of `w` bits packed in bytes (R134). -/
def unpackElems (w n : Nat) (bs : List Byte) : List Nat :=
  let x := leNat bs
  (List.range n).map fun i => (x >>> (w * i)) % 2 ^ w

/-- Bytes of `n` packed elements of a format. -/
def Fmt.rowBytes (f : Fmt) (n : Nat) : Nat := (n * f.bits + 7) / 8

/-- BF16 rounded to nearest even and widened back (R118, packed mode). -/
def roundBf16 (x : W32) : W32 :=
  BitVec.ofNat 32 ((bf16.narrow .rne (f32 x)).1 * 65536)

/-- A value rounded to a format and widened back, without block scale (QDQ, R122). -/
def qdq (f : Fmt) (x : W32) : W32 × ConvClass :=
  let (c, k) := f.narrow .rne (f32 x)
  (f.widen c 127, k)

end Sys2Proof.Machine
end

