-- ==== Sys2Proof/Machine/CoreState.lean ====
section
/-! DEFINITION. The state of one core: every piece of R40 with the array, the vector engine, the numerics block, the
combiner and the operations in flight (chapters 02 to 05 and 08 of the spec). -/

namespace Sys2Proof.Machine

/-- An address generator: the 64-byte descriptor of R56 as one number, and the state of R59. `taken` counts the accesses
already taken of an active stream. -/
structure Ag where
  desc : BitVec 512
  active : Bool
  base : Nat
  taken : Nat
  deriving DecidableEq, Repr

/-- A generator nothing has loaded. -/
def Ag.zero : Ag := ⟨0#512, false, 0, 0⟩

/-- The state of `m.cfg` (R50): format codes, k-skip and paired-step. -/
structure MCfg where
  fmta : Fmt
  fmtb : Fmt
  skip : Bool
  paired : Bool
  deriving DecidableEq, Repr

/-- An entry of the loop stack (R49): first and last bundle of the body, iterations left. -/
structure LoopEnt where
  first : Nat
  last : Nat
  left : Nat
  deriving DecidableEq, Repr

/-- A queued or running pass (R50, R51, R82 to R94). `seq` is its issue number, `next` the next k-step (in paired-step
mode the next stored slot), `sub` the ACLK already spent on an FP32 step, `grp` the a-vectors of the group in hand, `spent` the issue
ACLK of its steady state so far (R98), `src` the generator as its stream started, `spoilt` that an undefined case reaches its result. -/
structure Pass where
  seq : Nat
  ag : AgId
  bank : Nat
  keep : Bool
  post : Option SemId
  count : Nat
  start : Nat
  cfg : MCfg
  mxsA : Nat
  rowmask : BitVec 32
  seg : Bool
  ovr : Nat
  started : Bool
  next : Nat
  sub : Nat
  streamEnded : Bool
  access : Nat
  grp : List (List Nat × Nat)
  spent : Nat
  src : Option Ag
  spoilt : Bool
  deriving DecidableEq, Repr

/-- A queued or running b-ring load (R50, R88, R89). `next` is the next data slot; `half` the second half of an FP32
access; `src` the generator as its stream started; `spoilt` tells that an undefined case reaches its slots. -/
structure Load where
  seq : Nat
  ag : AgId
  post : Option SemId
  count : Nat
  start : Nat
  cfg : MCfg
  mxsB : Nat
  spxB : Nat
  seg : Bool
  started : Bool
  next : Nat
  streamEnded : Bool
  access : Nat
  half : List Nat
  src : Option Ag
  spoilt : Bool
  deriving DecidableEq, Repr

/-- A written slot of the b-ring with its side entry (03, The b-ring): the bytes its load wrote, its indices and scales where the load
had them, and the number of the load, which names the free values of the rest. -/
structure RingSlot where
  data : List Byte
  index : Option (List Byte)
  scales : Option (List Nat)
  zmask : BitVec 128
  fmt : Fmt
  paired : Bool
  load : Nat
  deriving DecidableEq, Repr

/-- The array: queues, ring, registers of R109, level of R108, bridge of R433. -/
structure ArrSt where
  passes : List Pass
  loads : List Load
  ring : List (Nat × RingSlot)
  mxsA : BitVec 22
  mxsB : BitVec 22
  spxB : BitVec 22
  rowmask : BitVec 32
  warm : Bool
  ksteps : W64
  kskip : W64
  wheyCyc : W64
  stallCyc : W64
  active : Bool
  whey : Bool
  level : Nat
  emptyRead : Bool
  kclamp : Bool
  fmtmix : Bool
  underrun : Bool
  aclk : Nat
  lastFmt : Option Fmt
  topup : Nat
  readBySeg : List Nat
  deriving DecidableEq, Repr

/-- What a started chain will have written when it completes (R116 to R124, R154, R157); `read` tells that its last group is read, so that
its streams have moved on (R120). -/
structure ChainOut where
  stores : List (Nat × List Byte)
  regs : List (Nat × W32)
  rbs : List (Nat × W32)
  counts : List (Nat × ConvClass × Nat)
  ovf : Nat
  elems : Nat
  domain : Bool
  nanOut : Bool
  span : Bool
  noraise : Bool
  underrun : Bool
  fmt : Nat
  shadow : Option Bool
  draws : Nat
  reads : List (Nat × Nat)
  ags : List (AgId × Nat)
  read : Bool
  deriving DecidableEq, Repr

/-- A chain queued or running (R111); `spoilt` tells that an undefined case reaches its outputs. -/
structure Chain where
  seq : Nat
  post : Option SemId
  addr : Nat
  desc : List Byte
  pc : Nat
  round : Bool
  seg : Bool
  ovr : Nat
  out : Option ChainOut
  spoilt : Bool
  deriving DecidableEq, Repr

/-- The vector engine: chain queue and the registers of R129. -/
structure VecSt where
  chains : List Chain
  ofmtLast : Nat
  domain : Bool
  nanOut : Bool
  span : Bool
  noraise : Bool
  underrun : Bool
  elems : W64
  stallCyc : W64
  deriving DecidableEq, Repr

/-- The snapshot of `y.seg` (R67, R105). -/
structure Snap where
  s : Vector W64 32
  a : Vector W64 16
  p : Vector Bool 8
  loops : List LoopEnt
  ags : List (BitVec 512)
  mcfg : MCfg
  mxsA : BitVec 22
  mxsB : BitVec 22
  spxB : BitVec 22
  rowmask : BitVec 32
  deriving DecidableEq, Repr

/-- Segment state (R66, R67, R78): the open flag, counts, declared regions, rewind point, issue number at
opening, and whether a rewind's accumulator clear is still to come (R104). -/
structure SegSt where
  isOpen : Bool
  id : BitVec 16
  replays : Nat
  fmtOvr : Nat
  regions : List (Nat × Nat)
  rewind : Nat
  openSeq : Nat
  accClear : Bool
  snap : Option Snap
  deriving DecidableEq, Repr

/-- Counts of one (layer, format) pair (R157, R158). -/
structure TelEntry where
  layer : Nat
  fmt : Nat
  total : Nat
  ovf : Nat
  ftz : Nat
  sub : Nat
  nan : Nat
  accOvf : Nat
  replays : Nat
  shadowN : Nat
  shadowDis : Nat
  sat : Bool
  deriving DecidableEq, Repr

/-- The numerics block (R137, R155, R157 to R161). `buf` is in order of last count, most recent first. -/
structure NumSt where
  round : Bool
  lfsrSeed : W64
  lfsrPos : Nat
  segovf : Bool
  ovfChain : Bool
  ovfAcc : Bool
  ovfFmt : Nat
  ovfCount : Nat
  sticky : Bool
  shadowDis : Bool
  telLayer : Nat
  buf : List TelEntry
  held : List TelEntry
  shadowCnt : Nat
  deriving DecidableEq, Repr

/-- An entry of the combiner: its number, its key; the list runs from least to most recently touched (R224, R226). -/
structure CmbEntry where
  e : Nat
  table : Nat
  row : Nat
  dim : Nat
  deriving DecidableEq, Repr

/-- An entry of a gradient packet: local row, FP32 or BF16 codes (R232). -/
structure GradEntry where
  q : Nat
  data : List W32
  deriving DecidableEq, Repr

/-- A gradient packet of a flush or an eviction (R232). -/
structure GradPacket where
  table : Nat
  version : Nat
  step : Nat
  faddr : Nat
  vcid : Nat
  dim : Nat
  wire : Bool
  entries : List GradEntry
  owner : Nat
  cellar : Nat
  core : Nat
  op : Nat
  deriving DecidableEq, Repr

/-- The combiner (R224 to R230). `evGen` numbers the flushes read out so far and marks the eviction packets
that the next one covers; `evPend` counts those awaiting an acknowledgement, `evPkts` those sent, `evRej` and `evCode` what
those acknowledged so far add to the next flush record (R226). `op` of a gradient packet is its generation. -/
structure CmbSt where
  cfg : W64
  entries : List CmbEntry
  cfgRej : Bool
  merged : W64
  sent : W64
  auto : W64
  discard : W64
  evGen : Nat
  evPend : Nat
  evPkts : Nat
  evRej : Nat
  evCode : Nat
  evBad : Nat × Nat × Nat
  sentAny : Bool
  deriving DecidableEq, Repr

/-- A flush whose entries have been read out (R226, R231, R233): record address, the eviction generation it covers, packets
not yet acknowledged, counts and code so far, table and owner of the packet of that code, whether it is the flush at work item end (R227). -/
structure FlushOp where
  resp : Nat
  gen : Nat
  pend : Nat
  entries : Nat
  packets : Nat
  rej : Nat
  code : Nat
  table : Nat
  bad : Nat × Nat × Nat
  auto : Bool
  deriving DecidableEq, Repr

/-- What an operation in flight must still do (R54, R55). Addresses of this core's store are 22-bit. -/
inductive OpBody where
  /-- d.copy: source, destination, length (R54). -/
  | copy (src dst len : Nat)
  /-- d.xfer: descriptor, its core-store address, bytes written, status so far, first failing address (R187, R191). -/
  | xfer (desc : List Byte) (addr done code bad : Nat)
  /-- d.imem: source, first bundle, count, descriptor address (R73). -/
  | imem (src first count addr : Nat)
  /-- d.coll: number of the collective (R317). -/
  | coll (id : Nat)
  /-- e.gather: request bytes, lead (R205). -/
  | gather (desc : List Byte) (lead : Nat)
  /-- e.desc (R198): request bytes. -/
  | tdesc (desc : List Byte)
  /-- An operation of the combiner that waits for earlier ones: 0 e.scatter, 1 e.flush, 2 the flush of s.halt; its request (R227). -/
  | combiner (kind : Nat) (desc : List Byte)
  /-- e.scatter, its lists and rows already read: response record and its address (R221, R223). -/
  | scatter (resp : Nat) (record : List Byte)
  /-- e.flush, its entries already sent (R233). -/
  | flush (f : FlushOp)
  /-- e.dispatch: request bytes (R217). -/
  | dispatch (desc : List Byte)
  /-- e.collect: request bytes (R217). -/
  | collect (desc : List Byte)
  /-- y.postr on its way: target VCID, semaphore, count (R64). -/
  | postr (vcid sem n : Nat)
  deriving DecidableEq, Repr

/-- An operation in flight: issue number, semaphore to post, whether issued in the open segment, regions of the core
store it reads and writes as (address, bytes), whether an undefined case reaches its results. -/
structure Op where
  id : Nat
  post : Option SemId
  seg : Bool
  reads : List (Nat × Nat)
  writes : List (Nat × Nat)
  body : OpBody
  spoilt : Bool
  deriving DecidableEq, Repr

/-- A work item as a queue processor dispatches it (R73, R75, R77): image number and bundles, entry bundle, address and
bytes of the argument block. -/
structure WorkItem where
  id : Nat
  vcid : Nat
  image : Nat
  bundles : List W128
  entry : BitVec 14
  argAddr : BitVec 22
  args : List Byte
  norestart : Bool
  deriving DecidableEq, Repr

/-- Instruction memory: 16,384 bundles, loaded length, failed bundles, resident image (R73, R519); `wild` tells that a `d.imem` has
overwritten bundles in use, so that what the core executes until its work item ends is free (R73). -/
structure ImemSt where
  words : Cells 128
  len : Nat
  bad : List Nat
  image : Option Nat
  wild : Bool
  deriving DecidableEq, Repr

/-- Status of a core outside its registers (R76, R78, R79, R466); `stopped` tells that a protect sequence has halted it (R440). -/
structure CoreCtl where
  run : Bool
  waiting : Bool
  semOvf : Bool
  wconflict : Bool
  fault : Bool
  faultCode : Nat
  vcid : W64
  vcount : W64
  mapEpoch : W64
  step : W64
  cycle : W64
  halting : Bool
  stopped : Bool
  item : Option WorkItem
  enabled : Bool
  fenced : Bool
  hung : Bool
  standIn : Option Nat
  tapHalt : Bool
  ceTotal : Nat
  ueStep : Nat
  deriving DecidableEq, Repr

/-- Registers of R40 that instructions name. -/
structure CoreRegs where
  s : Vector W64 32
  /-- Address registers; no instruction writes them. -/
  a : Vector W64 16
  p : Vector Bool 8
  v : Cells 32
  rb : Cells 32
  acc : Cells 32
  sem : Vector W16 64
  loops : List LoopEnt
  pc : Nat
  deriving DecidableEq, Repr

/-- One core (R40). -/
structure Core where
  regs : CoreRegs
  ctl : CoreCtl
  ags : Vector Ag 4
  mcfg : MCfg
  arr : ArrSt
  vec : VecSt
  seg : SegSt
  num : NumSt
  cmb : CmbSt
  ops : List Op
  seq : Nat
  store : Cells 8
  imem : ImemSt
  deriving DecidableEq, Repr

def MCfg.zero : MCfg := ⟨.fp32, .fp32, false, false⟩

def ArrSt.zero : ArrSt :=
  { passes := [], loads := [], ring := [], mxsA := 0, mxsB := 0, spxB := 0, rowmask := 0, warm := false, ksteps := 0,
    kskip := 0, wheyCyc := 0, stallCyc := 0, active := false, whey := false, level := 0, emptyRead := false,
    kclamp := false, fmtmix := false, underrun := false, aclk := 0, lastFmt := none, topup := 0, readBySeg := [] }

def VecSt.zero : VecSt :=
  { chains := [], ofmtLast := 0, domain := false, nanOut := false, span := false, noraise := false, underrun := false,
    elems := 0, stallCyc := 0 }

def SegSt.zero : SegSt :=
  { isOpen := false, id := 0, replays := 0, fmtOvr := 0, regions := [], rewind := 0, openSeq := 0, accClear := false, snap := none }

def NumSt.zero : NumSt :=
  { round := false, lfsrSeed := 0, lfsrPos := 0, segovf := false, ovfChain := false, ovfAcc := false, ovfFmt := 0,
    ovfCount := 0, sticky := false, shadowDis := false, telLayer := 0, buf := [], held := [], shadowCnt := 0 }

def CmbSt.zero : CmbSt :=
  { cfg := 0, entries := [], cfgRej := false, merged := 0, sent := 0, auto := 0, discard := 0, evGen := 0, evPend := 0, evPkts := 0,
    evRej := 0, evCode := 0, evBad := (0, 0, 0), sentAny := false }

def CoreCtl.zero : CoreCtl :=
  { run := false, waiting := false, semOvf := false, wconflict := false, fault := false, faultCode := 0, vcid := 0,
    vcount := 0, mapEpoch := 0, step := 0, cycle := 0, halting := false, stopped := false, item := none, enabled := false, fenced := false,
    hung := false, standIn := none, tapHalt := false, ceTotal := 0, ueStep := 0 }

/-- p0 reads as 1 (R40); every other register 0. -/
def CoreRegs.zero : CoreRegs :=
  { s := Vector.replicate 32 0, a := Vector.replicate 16 0, p := (Vector.replicate 8 false).set 0 true, v := [], rb := [],
    acc := [], sem := Vector.replicate 64 0, loops := [], pc := 0 }

/-- A core after reset: reset columns of R78, R109, R129, R161, R230; everything else 0 (log 1). DESIGN CHOICE, unsafe (log 1). DESIGN CHOICE, safe (log 93). -/
def Core.zero : Core :=
  { regs := CoreRegs.zero, ctl := CoreCtl.zero, ags := Vector.replicate 4 Ag.zero, mcfg := MCfg.zero, arr := ArrSt.zero,
    vec := VecSt.zero, seg := SegSt.zero, num := NumSt.zero, cmb := CmbSt.zero, ops := [], seq := 1, store := [],
    imem := ⟨[], 0, [], none, false⟩ }

end Sys2Proof.Machine
end

