-- ==== Sys2Proof/Machine/CelState.lean ====
section
/-! DEFINITION. State of the embedding and gradient units of a Cellar die: Ladle (chapter 07) and Press (chapter 08). -/

namespace Sys2Proof.Machine

/-- An entry of a sub-request (R208): local row, bag ordinal within the chunk, FILL, weight; and, at the lead, the index and its place in the gather's
list. -/
structure GEntry where
  q : Nat
  bag : Nat
  fill : Bool
  weight : W32
  row : Nat
  ord : Nat
  deriving DecidableEq, Repr

/-- A sub-request of a gather to a home Cellar (R207, R208): module, shard and Cellar of the home, lead's module and
Cellar, core and operation of the gather. -/
structure GSub where
  table : Nat
  version : Nat
  shard : Nat
  home : Nat
  cellar : Nat
  faddr : Nat
  lead : Nat
  core : Nat
  op : Nat
  chunk : Nat
  noalloc : Bool
  entries : List GEntry
  deriving DecidableEq, Repr

/-- A partial response (R208): code, entries whose rows are treated as missing, one FP32 partial per bag, raw rows of FILL entries. -/
structure GPart where
  core : Nat
  op : Nat
  chunk : Nat
  shard : Nat
  home : Nat
  cellar : Nat
  code : Nat
  errs : List Nat
  parts : List (Nat × List W32)
  fills : List (Nat × List Byte)
  deriving DecidableEq, Repr

/-- A bag of a gather at the lead (R206, R207): whether rejected, indices counted by MEAN, vectors still to be added. -/
structure GBag where
  rejected : Bool
  count : Nat
  parts : List (List W32)
  deriving DecidableEq, Repr

/-- A gather in flight at its lead Cellar (R207, R210). `desc` is its table's descriptor as read at the start, `next` the next chunk to classify, `maps` the
bags that each chunk classified touches, `pend` the sub-requests without an answer, `code` the highest-ranked status so far, `fail` the first failing index
with its place in the list. -/
structure Gather where
  core : Nat
  op : Nat
  lead : Nat
  req : List Byte
  dim : Nat
  table : Nat
  round : Bool
  code : Nat
  bags : List GBag
  baglen : Nat
  nidx : Nat
  missing : Nat
  oor : Nat
  replHit : Nat
  errRows : Nat
  desc : List Byte
  next : Nat
  maps : List (Nat × List Nat)
  pend : List GSub
  noOutput : Bool
  fail : Option (Nat × Nat)
  deriving DecidableEq, Repr

/-- An entry of the hot filter (R214); `asked` tells that its FILL has gone out. -/
structure HotEnt where
  table : Nat
  faddr : Nat
  q : Nat
  count : Nat
  asked : Bool
  deriving DecidableEq, Repr

/-- A read-only replica of a row (R214). -/
structure Replica where
  table : Nat
  faddr : Nat
  q : Nat
  row : List Byte
  deriving DecidableEq, Repr

/-- The Ladle block of a Cellar (R214, R220). The filter runs from least to most recently counted; `cfgNext` is
EMB_REPL_CFG as written, which takes effect at the next step start. -/
structure EmbSt where
  descBase : Nat
  cfg : W64
  cfgNext : W64
  missing : W64
  oorFwd : W64
  replHit : W64
  replFill : W64
  rows : W64
  busy : W64
  stale : W64
  dispDrop : W64
  filter : List HotEnt
  replicas : List Replica
  deriving DecidableEq, Repr

/-- Reset of EMB_REPL_CFG: REPL_WAYS 2, REPL_THR 64 (R220). -/
def embReplReset : W64 := BitVec.ofNat 64 (2 + 2 ^ 8 * 64)

def EmbSt.zero : EmbSt :=
  { descBase := 0, cfg := embReplReset, cfgNext := embReplReset, missing := 0, oorFwd := 0, replHit := 0, replFill := 0,
    rows := 0, busy := 0, stale := 0, dispDrop := 0, filter := [], replicas := [] }

/-- A live key of a gradient-table bank (R236): its slot of the key index and its row in the heap (`seg`, in 64-byte
units), in HBM or the cave. -/
structure GKey where
  table : Nat
  q : Nat
  slot : Nat
  seg : Nat
  segs : Nat
  cave : Bool
  step : Nat
  deriving DecidableEq, Repr

/-- One bank of the gradient table (R235, R239 to R241): keys in walking order, heap segments used in HBM and cave, flags
of GT_STATE, the step it belongs to, whether its GT_FULL record has been written. -/
structure GBank where
  keys : List GKey
  used : Nat
  usedCave : Nat
  isSealed : Bool
  clearing : Bool
  spilled : Bool
  full : Bool
  step : Nat
  logged : Bool
  deriving DecidableEq, Repr

/-- The Press block of a Cellar (R235 to R244). -/
structure PressSt where
  base : Vector Nat 2
  keyLimit : Nat
  heapSegs : Nat
  spill : W64
  banks : Vector GBank 2
  adds : W64
  busy : W64
  oorDrop : W64
  spillKeys : W64
  drop : W64
  late : W64
  stale : W64
  ovf : W64
  deriving DecidableEq, Repr

def GBank.zero : GBank :=
  { keys := [], used := 0, usedCave := 0, isSealed := false, clearing := false, spilled := false, full := false, step := 0,
    logged := false }

def PressSt.zero : PressSt :=
  { base := Vector.replicate 2 0, keyLimit := 0, heapSegs := 0, spill := 0, banks := Vector.replicate 2 GBank.zero,
    adds := 0, busy := 0, oorDrop := 0, spillKeys := 0, drop := 0, late := 0, stale := 0, ovf := 0 }

/-- An entry of the update list (R258). -/
structure UpdEntry where
  table : Nat
  src : Nat
  gfmt : Nat
  prio : Nat
  layer : Nat
  gbase : Nat
  ready : Nat
  deriving DecidableEq, Repr

/-- An update entry from its 32 bytes; none where it holds a reserved value (R258). -/
def UpdEntry.decode (bs : List Byte) : Option UpdEntry :=
  let f := fieldLe bs
  let c := f 2 2
  let src := bits c 1 0
  let gfmt := bits c 5 2
  if src ≤ 1 ∧ (src = 0 ∨ gfmt ≤ 1) ∧ bits c 15 14 = 0 ∧ bits (f 4 2) 15 12 = 0 ∧ f 6 2 = 0 ∧ bits (f 8 8) 63 48 = 0 ∧ f 0x14 12 = 0 then
    some ⟨f 0 2, src, gfmt, bits c 13 6, f 4 2, f 8 8, f 0x10 4⟩
  else none

/-- A row of a group that an update touches: slot, local index, address of its gradient (R246). -/
structure UpdRow where
  j : Nat
  q : Nat
  grad : Nat
  deriving DecidableEq, Repr

/-- A group of 64 rows of a shard: shard number, whether its base is CBASE, group number, the rows touched (R248, R255). -/
structure UpdGroup where
  shard : Nat
  cave : Bool
  k : Nat
  rows : List UpdRow
  deriving DecidableEq, Repr

/-- The tensor in progress on a Cellar (R255, R260): groups in order, how many have ended sweep 1 and sweep 2, sums of w²
and r² for R253, whether recovery runs it. -/
structure UpdRun where
  entry : UpdEntry
  step : Nat
  scale : Nat
  groups : List UpdGroup
  done1 : Nat
  done2 : Nat
  w2 : W32
  r2 : W32
  recovery : Bool
  deriving DecidableEq, Repr

/-- The update block of a Cellar (R257, R265, R269, R276). `work` counts the entries of the worklist area; `scrubTab`,
`scrubGrp` and `scrubHits` the position and count of the scrub's pass. -/
structure UpdSt where
  journal : Nat
  workBase : Nat
  cfg : W64
  cfgNext : W64
  elems : W64
  nonfin : W64
  uncorr : W64
  recover : W64
  suspect : W64
  drift : W64
  scrubs : W64
  busy : W64
  run : Option UpdRun
  work : Nat
  workReady : Bool
  stopReq : Bool
  stopped : Bool
  scrubTab : Nat
  scrubGrp : Nat
  scrubHits : Nat
  deriving DecidableEq, Repr

def UpdSt.zero : UpdSt :=
  { journal := 0, workBase := 0, cfg := 64, cfgNext := 64, elems := 0, nonfin := 0, uncorr := 0, recover := 0, suspect := 0, drift := 0,
    scrubs := 0, busy := 0, run := none, work := 0, workReady := false, stopReq := false, stopped := false, scrubTab := 0,
    scrubGrp := 0, scrubHits := 0 }

end Sys2Proof.Machine
end

