-- ==== Sys2Proof/Machine/FabState.lean ====
section
/-! DEFINITION. State of the Farzu fabric: packets, ports, route maps, requests in flight, the map switch and the promenade
(chapter 10). -/

namespace Sys2Proof.Machine

/-- A collective's fragment or control message between modules (R322 to R325, R329, R330): what the payload holds. `credit` is in
32-byte units; `total` the bytes of the fragment's stream; `status` a code of R191 when the bytes could not be read. -/
inductive CollBody where
  | join (digest : Nat) (stamp : W64) (credit : Nat) (counts : List Nat)
  | data (seg off total status : Nat) (bytes : List Byte)
  | ack (units : Nat)
  | shardReq (table version shard cellar first n step : Nat) (lease release : Bool)
  | shardReply (table shard cellar status uver : Nat) (rows : List (Nat × List Byte))
  deriving DecidableEq, Repr

/-- A promenade record (R293, R294, R296, R297): kinds and their fields. A SET also carries its line origin's coordinates, tree roots and rings,
an ANSWER its sender's; `conflict` tells a root that its WALK reached another root. -/
inductive PromMsg where
  | walk (axis dir c : Nat)
  | walkAck (axis dir : Nat)
  | finish (axis dir c : Nat) (ring : Bool)
  | set (axis n base : Nat) (ring : Bool) (pos roots : Vector Nat 3) (rings : Nat)
  | report (axis n : Nat)
  | conflict
  | done (nx ny nz wx wy wz : Nat)
  | ask
  | answer (pos dims widths roots : Vector Nat 3) (axis dir rings : Nat)
  deriving DecidableEq, Repr

/-- A recovery record (R476): NEWEST, EPOCH, the FLAGS bits, the scale state's fields. -/
structure CkptRec where
  newest : Option Nat
  epoch : Nat
  hbm : Bool
  cave : Bool
  hist : Bool
  exp : Nat
  probe : Nat
  clean : Nat
  deriving DecidableEq, Repr

/-- CKPT packets by kind (R476): offset and data for a buddy reserve; EPOCH; recovery records. -/
inductive CkptBody where
  | data (off : Nat) (bytes : List Byte)
  | hold (epoch : Nat)
  | state (epoch : Nat) (r : CkptRec)
  | go (epoch : Nat) (r : CkptRec)
  deriving DecidableEq, Repr

/-- What a packet carries, by TYPE (R287). -/
inductive Msg where
  | idle
  | rdReq (addr bytes : Nat)
  | rdResp (off : Nat) (data : List Byte)
  | wr (addr : Nat) (wb : Bool) (data : List Byte)
  | wrAck (bytes : Nat)
  | post (vcid msem n : Nat)
  | gsub (m : GSub)
  | gpart (m : GPart)
  | flush (p : GradPacket)
  | flushAck (code rej : Nat)
  | coll (comm cseq : Nat) (b : CollBody)
  | collAck (comm cseq : Nat) (b : CollBody)
  | mapsw (mseq map : Nat) (release : Bool)
  | detach (msgId : Nat) (off : Nat) (dir child : Nat)
  | ckpt (b : CkptBody)
  | ckptAck (status : Nat)
  | prom (root : W64) (m : PromMsg)
  | other (typ addr aux : Nat) (data : List Byte)
  deriving DecidableEq, Repr

/-- The TYPE code of a packet (R287). -/
def Msg.typ : Msg → Nat
  | .idle => 0x00 | .rdReq _ _ => 0x01 | .rdResp _ _ => 0x02 | .wr _ _ _ => 0x03 | .wrAck _ => 0x04 | .post _ _ _ => 0x05
  | .gsub _ => 0x10 | .gpart _ => 0x11 | .flush _ => 0x12 | .flushAck _ _ => 0x13 | .coll _ _ _ => 0x20
  | .collAck _ _ _ => 0x21 | .mapsw _ _ _ => 0x28 | .detach _ _ _ _ => 0x29 | .ckpt _ => 0x30 | .ckptAck _ => 0x31
  | .prom _ _ => 0x38 | .other t _ _ _ => t

/-- The class that the table of R287 gives a type: 0 request, 1 response, 2 collective, 3 checkpoint. -/
def Msg.cls : Msg → Nat
  | .rdReq _ _ | .wr _ _ _ | .post _ _ _ | .gsub _ | .flush _ => 0
  | .coll _ _ _ | .mapsw _ _ _ => 2
  | .ckpt _ => 3
  | _ => 1

/-- Payload bytes of a packet (R208, R232, R286), for credits and byte counters. -/
def Msg.len : Msg → Nat
  | .rdResp _ d => d.length
  | .wr _ _ d => d.length
  | .gsub m => 32 + 16 * m.entries.length
  | .gpart m =>
    32 + m.parts.foldl (fun a p => a + 16 + 4 * p.2.length) 0 + m.fills.foldl (fun a p => a + 8 + p.2.length) 0
  | .flush p => 32 + p.entries.foldl (fun a e => a + 8 + e.data.length * (if p.wire then 2 else 4)) 0
  | .coll _ _ (.data _ _ _ _ b) => b.length
  | .coll _ _ (.join _ _ _ cs) => 32 + 4 * cs.length
  | .coll _ _ (.shardReply _ _ _ _ _ rs) => 8 + rs.foldl (fun a r => a + r.2.length) 0
  | .coll _ _ _ => 16
  | .collAck _ _ _ => 8
  | .ckpt (.data _ b) => b.length
  | .ckpt (.hold _) => 0
  | .ckpt _ => 32
  | .detach _ _ _ _ => 4
  | .prom _ _ => 64
  | .other _ _ _ d => d.length
  | _ => 0

/-- The piece of a split message that a packet carries: byte offset and bytes of the message, LAST, message identifier (R288). -/
structure Part where
  off : Nat
  n : Nat
  last : Bool
  id : Nat
  deriving DecidableEq, Repr

/-- A packet with the header fields of R286: CLASS in `cls`, the RSVD bits of DST and SRC in `rsvd`, LEN, ADDR and AUX in what it carries. `crcErr` is
the difference between the trailer's CRC and that of the packet, 0 in a sound one (R285). In a unicast collective packet `group` 0 stands for none and 65536 + g for the catch-up
of a message to group g (R306). -/
structure Packet where
  dst : Nat
  src : Nat
  srcCel : Nat
  mc : Bool
  group : Nat
  vl : Bool
  map : Nat
  stripe : Bool
  tag : Nat
  tagCel : Nat
  gen : Nat
  status : Nat
  hops : Nat
  cls : Nat
  rsvd : Nat
  crcErr : Nat
  part : Option Part
  msg : Msg
  deriving DecidableEq, Repr

/-- LEN of a packet: its payload bytes (R286, R288). -/
def Packet.len (p : Packet) : Nat := match p.part with | some x => x.n | none => p.msg.len

/-- 32-byte units a packet occupies: header, payload and trailer; an IDLE header stands alone (R285). -/
def Packet.units (p : Packet) : Nat := if p.msg = .idle then 1 else (32 + p.len + 8 + 31) / 32

/-- Whether a packet's CRC holds (R285). -/
def Packet.crcOk (p : Packet) : Bool := p.crcErr = 0

/-- A run of 32-byte units of one packet within a frame: first unit, their number, and the CRC of the packet's trailer (R285). -/
structure Chunk where
  pkt : Packet
  off : Nat
  n : Nat
  crc : Nat
  deriving DecidableEq, Repr

/-- A frame (R280, R281): link word, whether both codewords decoded and what the code corrected, and the runs of packets in its five flits, 40 units of 32
bytes in all; the units that no run takes are IDLE headers. -/
structure Frame where
  fseq : Nat
  ack : Nat
  nak : Bool
  cq : Nat
  cred : Nat
  good : Bool
  corrected : Nat
  uncorrectable : Nat
  chunks : List Chunk
  deriving DecidableEq, Repr

/-- A packet in a send queue: the axis it came along, none at its source, and the VL it came on; the packet has the VL it leaves on (R298). -/
structure SendEnt where
  pkt : Packet
  arr : Option Nat
  vlIn : Bool
  deriving DecidableEq, Repr

/-- A fabric port (R280 to R284, R290, R310). `stored` holds the frames kept for replay, `sendq` packets not yet begun, `cur` the packet part-sent with its next
unit, `rxCur` the one part-received with the units had. `used` is the far end's buffer taken and `owed` the credit to return, by class × 2 + VL in
32-byte units; `turn` and `deficit` serve the classes (R292); `ackDue` tells that the far end awaits a link word (R281). -/
structure Port where
  enable : Bool
  half : Bool
  loop : Bool
  state : Nat
  higrp : Bool
  laneBad : Nat
  peerPort : Nat
  peer : W64
  fecCorr : W64
  fecUncorr : W64
  retry : W64
  down : W64
  txBytes : W64
  rxBytes : W64
  optReady : Bool
  trainFails : Nat
  txSeq : Nat
  rxSeq : Nat
  nakOut : Bool
  naks : Nat
  ackDue : Bool
  stored : List Frame
  sendq : List SendEnt
  cur : Option (Packet × Nat)
  rxCur : Option (Packet × Nat)
  turn : Fin 4
  deficit : Vector Nat 4
  used : Vector Nat 8
  owed : Vector Nat 8
  deriving DecidableEq, Repr

/-- A multicast group of a map (R302). -/
structure McGroup where
  group : Nat
  out : Nat
  isLocal : Bool
  inDir : Nat
  deriving DecidableEq, Repr

/-- A route map (R302). -/
structure RouteMap where
  order : Nat
  axrule : Nat
  split : Bool
  groups : List McGroup
  deriving DecidableEq, Repr

/-- Who waits for a fabric request. -/
inductive ReqOwner where
  | core (c : Nat) (op : Nat)
  | queue (q : Nat) (seq : Nat)
  | firmware (n : Nat)
  deriving DecidableEq, Repr

/-- A request that holds long tags, and tags of its core (R183, R287, R289). `place` is where response data belong for the owner, `got` the response bytes
had, `cls` its buffer class; one for this module itself holds core tags alone. -/
structure NetReq where
  tag : Nat
  cel : Nat
  n : Nat
  bytes : Nat
  gen : Nat
  dst : Nat
  map : Nat
  owner : ReqOwner
  msg : Msg
  cls : Nat
  stripe : Bool
  place : Nat
  got : Nat
  done : Bool
  status : Nat
  data : List (Nat × List Byte)
  deriving DecidableEq, Repr

/-- A map switch in progress (R303, R304): target, whether this module has drained, own and child votes, whether the vote has
gone up. -/
structure MapSwitch where
  map : Nat
  mseq : Nat
  drained : Bool
  votes : List Nat
  voted : Bool
  deriving DecidableEq, Repr

/-- Promenade state of a module (R293 to R297): per direction 2·axis + (0 for +, 1 for −) the WALK that waits for its
acknowledgement and the end found; per axis the offset, the way to the line's origin (0 +, 1 −, 2 is the origin, 3 unknown), the
coordinate and size once set; reports gathered by the root; answers to ASK and the ports still asked. -/
structure PromSt where
  running : Bool
  rootId : W64
  offset : Vector Int 3
  known : Vector Bool 3
  waiting : Vector Bool 6
  ends : Vector (Option (Nat × Bool)) 6
  toward : Vector Nat 3
  coord : Vector Nat 3
  size : Vector Nat 3
  reportsY : List Nat
  reportsZ : List Nat
  answers : List (List Nat)
  asked : List Nat
  asking : Bool
  deriving DecidableEq, Repr

/-- A branch detached from the rest of a multicast message: source, communicator and number of the message, direction, 6 for local delivery (R305). -/
structure Detached where
  src : Nat
  key : Nat
  dir : Nat
  deriving DecidableEq, Repr

/-- The fabric block and what stands behind it (R277 to R310). `inq` holds packets received and not yet routed, `deliv`
packets delivered to this module, `asm` the pieces of split messages that wait for the rest (R288), `held` packets a switch keeps back, `locals` the
requests within the module that hold core tags, `tagWait` requests without free tags (R183), `rings` which axes are rings, `roots` the coordinates at which the barrier tree's lines are rooted (R303), `heldSw`
MAPSW packets kept for a later switch, `wire` the frames that left each port, `msgNext` the next message identifier. -/
structure FabSt where
  faddr : BitVec 24
  wx : Nat
  wy : Nat
  wz : Nat
  valid : Bool
  dims : Vector Nat 3
  rings : Vector Bool 3
  roots : Vector Nat 3
  promOut : Nat
  root : Bool
  mapCur : Nat
  mapld : Nat
  mapswFail : Bool
  mseq : BitVec 32
  cfg : W64
  cfgShadow : W64
  hoplim : BitVec 32
  hoplimShadow : BitVec 32
  lateResp : W64
  noroute : W64
  hopDrop : W64
  pktBad : W64
  mcDetach : W64
  slots : Vector (Option RouteMap) 8
  ports : Vector Port 12
  inq : List (Nat × Packet)
  deliv : List Packet
  asm : List Packet
  held : List Packet
  wire : List (Nat × Frame)
  msgNext : Nat
  reqs : List NetReq
  locals : List NetReq
  tagWait : List NetReq
  gens : Cells 8
  switch : Option MapSwitch
  heldSw : List Packet
  prom : PromSt
  detached : List Detached
  deriving DecidableEq, Repr

/-- Reset of a port block: ENABLE 1, the rest 0 (R310). -/
def Port.zero : Port :=
  { enable := true, half := false, loop := false, state := 0, higrp := false, laneBad := 0, peerPort := 0, peer := 0,
    fecCorr := 0, fecUncorr := 0, retry := 0, down := 0, txBytes := 0, rxBytes := 0, optReady := false, trainFails := 0,
    txSeq := 0, rxSeq := 0, nakOut := false, naks := 0, ackDue := false, stored := [], sendq := [],
    cur := none, rxCur := none, turn := 0, deficit := Vector.replicate 4 0, used := Vector.replicate 8 0, owed := Vector.replicate 8 0 }

/-- Reset of FAB_CFG: TIMEOUT 2,000, weights 6, 8, 8, 2, MAPSW_TO 100 (R309). -/
def fabCfgReset : W64 :=
  BitVec.ofNat 64 (2000 + 2 ^ 20 * 6 + 2 ^ 24 * 8 + 2 ^ 28 * 8 + 2 ^ 32 * 2 + 2 ^ 52 * 100)

def PromSt.zero : PromSt :=
  { running := false, rootId := 0, offset := Vector.replicate 3 0, known := Vector.replicate 3 false,
    waiting := Vector.replicate 6 false, ends := Vector.replicate 6 none, toward := Vector.replicate 3 3,
    coord := Vector.replicate 3 0, size := Vector.replicate 3 0, reportsY := [], reportsZ := [], answers := [],
    asked := [], asking := false }

/-- Reset of the fabric block (R309). -/
def FabSt.zero : FabSt :=
  { faddr := 0, wx := 0, wy := 0, wz := 0, valid := false, dims := Vector.replicate 3 0, rings := Vector.replicate 3 false, roots := Vector.replicate 3 0, promOut := 0, root := false,
    mapCur := 0, mapld := 0, mapswFail := false, mseq := 0, cfg := fabCfgReset, cfgShadow := fabCfgReset, hoplim := 65535,
    hoplimShadow := 65535, lateResp := 0, noroute := 0, hopDrop := 0, pktBad := 0, mcDetach := 0,
    slots := Vector.replicate 8 none, ports := Vector.replicate 12 Port.zero, inq := [], deliv := [], asm := [], held := [], wire := [], msgNext := 0,
    reqs := [], locals := [], tagWait := [], gens := [], switch := none, heldSw := [], prom := PromSt.zero, detached := [] }

end Sys2Proof.Machine
end

