-- ==== Sys2Proof/Machine/CollState.lean ====
section
/-! DEFINITION. State of the collective engines (chapter 11) and of the die links (chapter 12). -/

namespace Sys2Proof.Machine

/-- Who issued a collective (R317): an operation of a core, or the queue processors. -/
inductive CollIssuer where
  | core (c : Nat) (op : Nat)
  | qp (n : Nat)
  deriving DecidableEq, Repr

/-- A join that arrived before its collective was active here (R321): sender's module, parameters, credit, counts of ALLTOALLV. -/
structure CollJoin where
  comm : Nat
  cseq : Nat
  src : Nat
  digest : Nat
  credit : Nat
  counts : List Nat
  deriving DecidableEq, Repr

/-- A fragment received from a rank: segment 0 inputs, 1 reduced chunks, 2 staging barrier, 3 moves; offset, bytes of its stream
in all, bytes it carries, status; bytes kept only where a reduction or a barrier needs them. -/
structure CollRecv where
  rank : Nat
  seg : Nat
  off : Nat
  total : Nat
  n : Nat
  status : Nat
  bytes : List Byte
  deriving DecidableEq, Repr

/-- A peer of a collective: rank, module, whether its join is held, its credit in 32-byte units, fragments sent to it. -/
structure CollPeer where
  rank : Nat
  faddr : Nat
  joined : Bool
  credit : Nat
  sent : Nat
  deriving DecidableEq, Repr

/-- A shard request without a reply: home module and Cellar, shard (R329). -/
structure ShardWait where
  faddr : Nat
  cellar : Nat
  shard : Nat
  deriving DecidableEq, Repr

/-- A collective of this module (R317 to R323). `rank` and `ranks` are this module's rank and the members' number, `phase` tells
that the second part runs (reduced chunks of ALLREDUCE, moves of PERMUTE), `reduced` this rank's reduced chunk on the wire and `reducedSt` its
runs of equal status,
`staged` the moves read into the staging area as (target, destination, bytes), `uvers` the UVER of each (module, shard), `spoilt` that an undefined case has reached its outputs (R344), `logged` that its failed access has its record (R164). -/
structure Coll where
  id : Nat
  issuer : CollIssuer
  desc : List Byte
  comm : Nat
  cseq : Nat
  active : Bool
  rank : Nat
  ranks : Nat
  peers : List CollPeer
  recv : List CollRecv
  phase2 : Bool
  reduced : List Byte
  reducedSt : List (Nat × Nat × Nat)
  staged : List (Nat × Nat × List Byte)
  shards : List ShardWait
  uvers : List ((Nat × Nat) × Nat)
  code : Nat
  done : Nat
  spilled : Bool
  spoilt : Bool
  logged : Bool
  deriving DecidableEq, Repr

/-- A lease entry (R330): TABLE_ID, low 16 bits of the step, COUNT. -/
structure Lease where
  table : Nat
  step : Nat
  count : Nat
  deriving DecidableEq, Repr

/-- The collective block of a Cellar (R345). -/
structure CollCel where
  cfg : W64
  cfgNext : W64
  done : W64
  fail : W64
  bytes : W64
  ovf : W64
  grant : W64
  expired : W64
  full : W64
  basis : W64
  spill : W64
  split : W64
  skip : W64
  leases : List Lease
  deriving DecidableEq, Repr

/-- The collectives of the module: communicator table and staging bases, collectives in issue order, last CSEQ by
communicator, joins for collectives not active here, and the credit of data sent and not yet acknowledged by (communicator, CSEQ,
module). -/
structure CollSt where
  commBase : Nat
  permBase : Nat
  permGib : Nat
  colls : List Coll
  cseq : Cells 32
  joins : List CollJoin
  unacked : List (Nat × Nat × Nat × Nat)
  reshard : Bool
  nextId : Nat
  deriving DecidableEq, Repr

/-- Reset of COLL_CFG: LEASE_TIME 50, SPLIT_RATIO 4, STREAM_STALL 10, COLL_TIMEOUT 100 (R345). -/
def collCfgReset : W64 := BitVec.ofNat 64 (50 + 2 ^ 16 * 4 + 2 ^ 21 * 10 + 2 ^ 32 * 100)

def CollCel.zero : CollCel :=
  { cfg := collCfgReset, cfgNext := collCfgReset, done := 0, fail := 0, bytes := 0, ovf := 0, grant := 0, expired := 0,
    full := 0, basis := 0, spill := 0, split := 0, skip := 0, leases := [] }

/-- PERM_AREA has size 8 GiB by default (R345). -/
def CollSt.zero : CollSt :=
  { commBase := 0, permBase := 0, permGib := 8, colls := [], cseq := [], joins := [], unacked := [], reshard := false,
    nextId := 1 }

/-- What a flit carries (R349, R350): KIND, commands, data units with their UTAG. -/
structure FlitBody where
  kind : Nat
  cmds : List Packet
  units : List (Nat × List Byte)
  deriving DecidableEq, Repr

/-- A flit with its side word (R349, R351). `crcErr` is the difference between its CRC field and the CRC of what it holds, 0 in a sound one. -/
structure Flit where
  fseq : Nat
  ack : Nat
  nak : Bool
  cq : Nat
  cred : Nat
  crcErr : Nat
  body : FlitBody
  deriving DecidableEq, Repr

/-- The record of a die-link module (R353 to R361, R367): state code, lanes, epoch, counters, sequence numbers, the
unacknowledged flits of the near end, what waits behind them (R351), and the flits sent since the link's spread began (R352). -/
structure DlMod where
  state : Nat
  higrp : Bool
  inband : Bool
  spares : Nat
  epoch : BitVec 16
  retrains : BitVec 16
  naks : BitVec 16
  laneBad : BitVec 64
  redund : BitVec 4
  fuseBad : BitVec 64
  widthLast : Nat
  tries : Nat
  txSeq : Nat
  rxSeq : Nat
  nakOut : Bool
  nakRun : Nat
  ackDue : Bool
  stored : List (Nat × FlitBody)
  sendq : List FlitBody
  sent : Nat
  credit : Vector Nat 5
  owed : Vector Nat 5
  l1 : Bool
  retraining : Bool
  deriving DecidableEq, Repr

/-- A request forwarded from one link to another: its reply returns along the same route (R15). `got` holds the reply's bytes so far, of `n`. -/
structure FwdReq where
  utag : Nat
  src : Nat
  out : Nat
  n : Nat
  got : List Byte
  deriving DecidableEq, Repr

/-- The die links and accessory sites (R362 to R367). `mods` is keyed by module index; `deliv` holds delivered flit
bodies in order; `wire` the flits each module sent; `held` what senders keep for a link whose modules all retrain (R352); `opened` the write commands
whose data are still to come, by module (R350); `fwd` the requests forwarded; `accReq` commands of partner dies not yet served; `unknownTag` the responses of unknown UTAG. -/
structure DlSt where
  cfg : W64
  cfgNow : W64
  mods : List (Nat × DlMod)
  deliv : List (Nat × FlitBody)
  wire : List (Nat × Flit)
  held : List (Nat × List FlitBody)
  opened : List (Nat × Packet × List Byte)
  fwd : List FwdReq
  accReq : List (Nat × Packet)
  acc : Vector Nat 2
  accPower : Vector Bool 2
  accTags : Vector Nat 2
  unknownTag : W64
  looping : Option Nat
  loopErrs : List Nat
  deriving DecidableEq, Repr

def DlMod.zero : DlMod :=
  { state := 0, higrp := false, inband := false, spares := 0, epoch := 0, retrains := 0, naks := 0, laneBad := 0,
    redund := 0, fuseBad := 0, widthLast := 0, tries := 0, txSeq := 0, rxSeq := 0, nakOut := false, nakRun := 0,
    ackDue := false, stored := [], sendq := [], sent := 0, credit := Vector.replicate 5 0, owed := Vector.replicate 5 0, l1 := false, retraining := false }

/-- Reset of DL_CFG: RATE 0, SIDE_EN 1 (R367). -/
def DlSt.zero : DlSt :=
  { cfg := 4, cfgNow := 4, mods := [], deliv := [], wire := [], held := [], opened := [], fwd := [], accReq := [], acc := Vector.replicate 2 0,
    accPower := Vector.replicate 2 false, accTags := Vector.replicate 2 0, unknownTag := 0, looping := none, loopErrs := [] }

/-- Modules of a link (R13): 12 Vat–Cellar, 4 Vat–Vat and Cellar–Hub, 2 Hub–accessory. -/
def linkMods (l : Nat) : Nat := if l < 8 then 12 else if l < 16 then 4 else if l < 18 then 2 else 0

/-- Dies of a link (R347): 0 to 3 VAT, 4 to 7 CEL, 8 HUB, 9 and 10 ACC. -/
def linkDies (l : Nat) : Nat × Nat :=
  match l with
  | 0 => (0, 4) | 1 => (0, 7) | 2 => (1, 4) | 3 => (1, 5) | 4 => (2, 6) | 5 => (2, 7) | 6 => (3, 5) | 7 => (3, 6)
  | 8 => (0, 1) | 9 => (2, 3) | 10 => (0, 2) | 11 => (1, 3)
  | 12 => (4, 8) | 13 => (5, 8) | 14 => (6, 8) | 15 => (7, 8) | 16 => (8, 9) | _ => (8, 10)

/-- PROC of the processor that manages a link (R347, R397). -/
def linkProc (l : Nat) : Nat :=
  match l with
  | 0 => 6 | 1 => 9 | 2 => 6 | 3 => 7 | 4 => 8 | 5 => 9 | 6 => 7 | 7 => 8
  | 8 => 6 | 9 => 8 | 10 => 9 | 11 => 7 | 12 => 6 | 13 => 7 | 14 => 8 | 15 => 9 | _ => 0

/-- Whether R13 lists module `i` on this variant (R14). -/
def dlListed (lx : Bool) (i : Nat) : Bool := decide (i % 16 < linkMods (i / 16)) && (lx || decide (i / 16 < 16))

/-- Record of module `i`. -/
def DlSt.modAt (d : DlSt) (i : Nat) : DlMod := ((d.mods.find? fun p => p.1 = i).map (·.2)).getD DlMod.zero

/-- The die links with module `i` replaced. -/
def DlSt.setMod (d : DlSt) (i : Nat) (m : DlMod) : DlSt :=
  { d with mods := (d.mods.filter fun p => p.1 < i) ++ (i, m) :: d.mods.filter fun p => i < p.1 }

end Sys2Proof.Machine
end

