-- ==== Sys2Proof/Machine/JobState.lean ====
section
/-! DEFINITION. State of the job: configuration, step program, loss scale, telemetry, updates to do (chapters 05, 09, 11, 14),
and the checkpoints of chapter 17. -/

namespace Sys2Proof.Machine

/-- A work item of the step table (R418): image, entry bundle, VCID range, argument block. -/
structure WorkDef where
  image : Nat
  entry : Nat
  vcidFrom : Nat
  vcidTo : Nat
  argAddr : Nat
  args : List Byte
  norestart : Bool
  deriving DecidableEq, Repr

/-- A phase of the job (R313, R418): route-map slot, image, work items and collectives in issue order. -/
structure PhaseDef where
  slot : Nat
  map : Option RouteMap
  items : List WorkDef
  colls : List (List Byte)
  deriving DecidableEq, Repr

/-- Cuts and their placement (R311, R312): sizes, whether EMB is the whole job, the axis of each cut. -/
structure Cuts where
  data : Nat
  model : Nat
  pipe : Nat
  embWhole : Bool
  embSize : Nat
  axisD : Nat
  axisM : Nat
  axisP : Nat
  deriving DecidableEq, Repr

/-- A job configuration (R418), its sections as the fields they define. `reserved` tells of a reserved KIND or value,
`stash` the bytes a step's micro-batches need of the activation stash (R334), `members` the job's modules by FADDR in rank
order, `extent` its size on each axis, `spill` GT_SPILL of each Cellar (R244), `defaults` default rows by table (R213), `updates` the 32-byte entries of
the update list (R258). DESIGN CHOICE, unsafe (log 56). -/
structure JobConfig where
  bytes : Nat
  reserved : Bool
  regions : List W64
  pin : W64
  layers : List (Nat × Nat × Bool)
  scaleExp : Nat
  upInterval : Nat
  period : Nat
  thr : Nat
  promoMin : Nat
  tables : List (List Byte)
  shardTabs : List (Nat × List Byte)
  comms : List (List Byte)
  cuts : Cuts
  members : List Nat
  extent : Vector Nat 3
  phases : List PhaseDef
  defaults : List (Nat × List Byte)
  updates : List (List Byte)
  images : List (Nat × List W128)
  stepRetry : Nat
  rings : Nat
  ringsUsed : List Nat
  splitOk : Bool
  stash : Nat
  round : Bool
  seed : W64
  spill : Vector W64 4
  deriving DecidableEq, Repr

/-- The scale state (R147). -/
structure ScaleSt where
  exp : Nat
  clean : Nat
  up : Nat
  probe : Nat
  hist : Bool
  deriving DecidableEq, Repr

/-- A batch in an input ring (R419): queue and SEQ of its BATCH entry, header address, LEN. -/
structure BatchRef where
  ring : Nat
  q : Nat
  seq : W32
  addr : Nat
  len : Nat
  deriving DecidableEq, Repr

/-- A micro-batch (R335, R419): batch it came from, offset, bytes, LEN, samples. -/
structure Micro where
  batch : Nat
  off : Nat
  bytes : Nat
  len : Nat
  nsamp : Nat
  deriving DecidableEq, Repr

/-- A group of a shard: TABLE_ID, shard, group, whether in the cave part. -/
structure GroupKey where
  table : Nat
  shard : Nat
  cel : Nat
  cave : Bool
  k : Nat
  deriving DecidableEq, Repr

/-- A move of a re-shard: source here, destination on the target, target, bytes (R339). -/
structure Move where
  src : Nat
  dst : Nat
  tgt : Nat
  len : Nat
  deriving DecidableEq, Repr

/-- A re-shard in progress (R338): new configuration, waves still to run (none a barrier), the collective in flight. -/
structure Reshard where
  cfg : JobConfig
  todo : List (Option (List Move))
  cur : Option Nat
  deriving DecidableEq, Repr

/-- The job as the queue processors hold it (R417 to R421, R147, R156, R158, R258 to R263). `phase`: 0 idle, 1 EMB, 2 FWD,
3 BWD, 4 UPD, 5 waiting at the step-end barrier. `upds` is the update list without ignored entries, `doneCel` holds (table, Cellar) pairs whose two sweeps
ended, `skipLog` (table, step) pairs
whose ROW_SKIP record stands, `parkDue` a park the queue processors owe at the next boundary (R400), `parkLost` that a lost link makes them commit the open
segments and park (R359), `fenceDue` cores to be fenced at the next boundary (R466), `shadow` posts held for a fenced VCID as (VCID, semaphore, count), `moved` its work items by stand-in (R76), `promoReset` layers whose
PROMO becomes 0 with the next step (R409), `wild` tables that an undefined case has reached (R199, R204, R275). DESIGN CHOICE, safe (log 91). -/
structure JobSt where
  state : Nat
  cfg : Option JobConfig
  inBarrier : Bool
  step : W64
  phase : Nat
  attempts : Nat
  failed : Bool
  failCause : Nat
  govf : Bool
  rewinds : Nat
  scale : ScaleSt
  layers : Cells 8
  telNow : List TelEntry
  telCur : Nat
  rings : List (Nat × BatchRef)
  claimed : List BatchRef
  micros : List Micro
  vcids : List Nat
  mapEpoch : W64
  ready : List UpdEntry
  doneCel : List (Nat × Nat)
  upds : List UpdEntry
  committed : List Nat
  skipLog : List (Nat × Nat)
  dirty : List GroupKey
  frozen : List GroupKey
  retry : Bool
  mapWant : Option Nat
  uncorrRuntime : Bool
  suspects : List GroupKey
  stopDispatch : Bool
  parkDue : Bool
  parkLost : Bool
  fenceDue : List Nat
  reshard : Option Reshard
  shadow : List (Nat × Nat × Nat)
  moved : List (Nat × WorkItem)
  promoReset : List Nat
  wild : List Nat
  deriving DecidableEq, Repr

/-- The image of a group (R471): working rows, masters and group record as bytes. -/
structure GroupImg where
  key : GroupKey
  rows : List Byte
  masters : List Byte
  record : List Byte
  deriving DecidableEq, Repr

/-- A delta of the log (R475): its step, epoch, entries in (table, shard, group) order, the scale state at its end, whether its END entry stands. DESIGN CHOICE, unsafe (log 89). -/
structure Delta where
  step : Nat
  epoch : Nat
  imgs : List GroupImg
  scale : ScaleSt
  ended : Bool
  deriving DecidableEq, Repr

/-- A cave header (R473). DESIGN CHOICE, unsafe (log 89). -/
structure CaveHdr where
  epoch : Nat
  newest : Option Nat
  merged : Nat
  jobState : Nat
  scale : ScaleSt
  deriving DecidableEq, Repr

/-- The resilience block (R490) and the checkpoints behind it (R471 to R485). `hbmLost` tells that this start
lost HBM; `reloadDue` that the job in the cave waits for the module's address (R481); `stateDue` that STATE is owed once the step's update commits; `scaleNew` the scale state at NEWEST; `states` the STATE records job rank 0 holds; `jobCopy` and `deltas` lie in the cave. DESIGN CHOICE, unsafe (log 89). -/
structure RasSt where
  cfg : W64
  cfgNext : W64
  caveOn : Bool
  caveOk : Bool
  buddyOk : Bool
  buddyDue : Option Nat
  denseCave : Bool
  full : Bool
  inflight : Bool
  recovering : Bool
  epoch : W32
  newest : Option Nat
  scaleNew : ScaleSt
  merged : Nat
  areaBase : Nat
  areaGib : Nat
  hdrA : Option CaveHdr
  hdrB : Option CaveHdr
  jobCopy : Option JobConfig
  base : List GroupImg
  deltas : List Delta
  hbmLost : Bool
  stateDue : Bool
  states : List (Nat × CkptRec)
  restoring : Option (Nat × ScaleSt × Bool)
  csCe : W64
  csUe : W64
  hbmCe : W64
  hbmUe : W64
  fences : W64
  rollback : W64
  restores : W64
  splits : W64
  flushInc : W64
  deltaWait : W64
  pcMark : BitVec 1024
  pcUe : List (Nat × Nat)
  dieResets : Vector Nat 4
  dieResetting : Option Nat
  reloadDue : Bool
  deriving DecidableEq, Repr

/-- Scale state of a new job (R147). -/
def ScaleSt.new : ScaleSt := ⟨16, 0, 2000, 0, true⟩

def JobSt.zero : JobSt :=
  { state := 0, cfg := none, inBarrier := false, step := 0, phase := 0, attempts := 0, failed := false, failCause := 0,
    govf := false, rewinds := 0, scale := ScaleSt.new, layers := [], telNow := [], telCur := 0, rings := [],
    claimed := [], micros := [], vcids := [], mapEpoch := 0, ready := [], doneCel := [],
    upds := [], committed := [], skipLog := [], dirty := [], frozen := [], retry := false, mapWant := none, uncorrRuntime := false,
    suspects := [], stopDispatch := false, parkDue := false, parkLost := false, fenceDue := [], reshard := none, shadow := [], moved := [], promoReset := [], wild := [] }

/-- Reset of RAS_CFG: 10,000 and 1,000 (R490). -/
def rasCfgReset : W64 := BitVec.ofNat 64 (10000 + 2 ^ 16 * 1000)

def RasSt.zero : RasSt :=
  { cfg := rasCfgReset, cfgNext := rasCfgReset, caveOn := false, caveOk := false, buddyOk := false, buddyDue := none,
    denseCave := false, full := false, inflight := false, recovering := false, epoch := 0, newest := none, scaleNew := ScaleSt.new, merged := 0,
    areaBase := 0, areaGib := 0, hdrA := none, hdrB := none, jobCopy := none, base := [], deltas := [], hbmLost := false, stateDue := false,
    states := [], restoring := none, csCe := 0, csUe := 0, hbmCe := 0, hbmUe := 0, fences := 0, rollback := 0,
    restores := 0, splits := 0, flushInc := 0, deltaWait := 0, pcMark := 0, pcUe := [], dieResets := Vector.replicate 4 0,
    dieResetting := none, reloadDue := false }

end Sys2Proof.Machine
end

