-- ==== Sys2Proof/Machine/MemState.lean ====
section
/-! DEFINITION. The module's memories and their configuration (R162 to R194): state, address map, regions, interleave, row
cache, the cave map, uncorrectable lines. -/

namespace Sys2Proof.Machine

/-- A port of the cave as the map fixed at the start holds it: port number and whole GiB (R177). -/
structure CavePart where
  port : CaveId
  gib : Nat
  deriving DecidableEq, Repr

/-- The memory configuration block (R193): shadow and committed parts, the interleave key (R169, R172), the cave map in
force (R177). -/
structure MemCfg where
  shadow : Vector W64 16
  table : Vector W64 16
  pinShadow : W64
  pin : W64
  caveShadow : W64
  caveMask : W64
  status : W64
  cap : Vector Nat 4
  caveSize : Nat
  caveMap : List CavePart
  keyEpoch : Nat
  key : W64
  deriving DecidableEq, Repr

/-- The statistics block of one Cellar (R194); `ltagNow` is the peak and `reqs` the requests of each pseudo-channel of the window in progress. -/
structure MemStat where
  win : BitVec 32
  winNext : BitVec 32
  imbal : W64
  hotThr : W16
  retired : Vector W64 4
  hit : W64
  miss : W64
  wback : W64
  ltagPeak : Nat
  ltagNow : Nat
  reqs : Cells 64
  deriving DecidableEq, Repr

/-- A line in its home row cache: its number (address ÷ 128), its way, and, while it is dirty, what its backing store holds (R174, R175, R182). -/
structure CacheLine where
  line : Nat
  way : Nat
  old : Option (List Byte)
  deriving DecidableEq, Repr

/-- The memories (R162): bytes by local physical address for HBM, pinned partitions, ACC windows and the cave; the lines that the row
caches hold, with the number of accesses made so far, which names the free choices of their replacement (R174); uncorrectable lines by number (R166); host memory reached over PCIe; per-Cellar statistics. `undef` holds ranges whose content a
commit has left undefined, as (address, bytes, number of the commit's free values) (R168). -/
structure MemSt where
  bytes : Memory
  lines : List CacheLine
  rcSeq : Nat
  uncorr : List Nat
  undef : List (Nat × Nat × Nat)
  host : Memory
  stat : Vector MemStat 4
  cfg : MemCfg
  deriving DecidableEq, Repr

/-- Reset of the statistics block (R194). -/
def MemStat.zero : MemStat :=
  { win := 1000000, winNext := 1000000, imbal := 0, hotThr := 0x0200, retired := Vector.replicate 4 0, hit := 0, miss := 0,
    wback := 0, ltagPeak := 0, ltagNow := 0, reqs := [] }

/-- MEM_REGION0: VALID, domain ALL, firmware, base 0, 16 GiB (R193). -/
def region0 : W64 := BitVec.ofNat 64 (1 + 16 * 2 ^ 20)

/-- Reset of the configuration block: entries 0 but for the fixed entry 0, MEM_CAVE 0xf, MEM_CAP 512 each (R193). -/
def MemCfg.zero : MemCfg :=
  { shadow := (Vector.replicate 16 0).set 0 region0, table := (Vector.replicate 16 0).set 0 region0, pinShadow := 0,
    pin := 0, caveShadow := 0xf, caveMask := 0xf, status := 0, cap := Vector.replicate 4 512, caveSize := 0, caveMap := [],
    keyEpoch := 0, key := 0 }

def MemSt.zero : MemSt :=
  { bytes := [], lines := [], rcSeq := 0, uncorr := [], undef := [], host := [], stat := Vector.replicate 4 MemStat.zero, cfg := MemCfg.zero }

/-- Fields of a region entry (R193). -/
def rgValid (r : W64) : Bool := r.getLsbD 0
def rgDomain (r : W64) : Nat := bits r.toNat 3 1
def rgKind (r : W64) : Nat := bits r.toNat 7 4
def rgBase (r : W64) : Nat := bits r.toNat 19 8
def rgSize (r : W64) : Nat := bits r.toNat 31 20

/-- An entry of the given fields. -/
def rgMake (domain kind base size : Nat) : W64 :=
  BitVec.ofNat 64 (1 + 2 * domain + 16 * kind + 2 ^ 8 * base + 2 ^ 20 * size)

/-- The default region table of R167. -/
def defaultRegions : Vector W64 16 :=
  #v[region0, rgMake 0 1 16 48, rgMake 1 2 64 16, rgMake 2 2 80 16, rgMake 3 2 96 16, rgMake 4 2 112 16,
     rgMake 0 3 128 256, rgMake 0 4 384 128, rgMake 1 5 512 384, rgMake 2 5 896 384, rgMake 3 5 1280 384,
     rgMake 4 5 1664 384, 0, 0, 0, 0]

/-- One GiB. -/
def gibi : Nat := 0x40000000

/-- Bases of the ranges of R162. -/
def hbmEnd : Nat := 0x020000000000
def pinBase : Nat := 0x080000000000
def coreBase : Nat := 0x0a0000000000
def accBase : Nat := 0x0c0000000000
def devBase : Nat := 0x0f0000000000
def caveBase : Nat := 0x100000000000

/-- Whether an entry is valid and holds a local address. -/
def rgHolds (r : W64) (a : Nat) : Bool :=
  rgValid r && decide (rgBase r * gibi ≤ a ∧ a < (rgBase r + rgSize r) * gibi)

/-- The committed region that holds an address: its number and entry. -/
def MemCfg.regionOf (c : MemCfg) (a : Nat) : Option (Nat × W64) :=
  (c.table.toList.zipIdx.find? fun e => rgHolds e.1 a).map fun e => (e.2, e.1)

/-- Pinned ways of CELn (R176). -/
def MemCfg.pinWays (c : MemCfg) (n : Nat) : Nat := bits c.pin.toNat (4 * n + 3) (4 * n)

/-- The kinds of place a local address names (R162). -/
inductive Place where
  | unmapped
  | hbm (kind domain : Nat)
  | pinned (n : Nat)
  | store (core off : Nat)
  | acc (n : Nat)
  | dev (off : Nat)
  | cave (port : CaveId)
  deriving DecidableEq, Repr

/-- The port that serves a cave offset: 4 KiB granules over the smallest capacity of the ports, then each port's remainder,
in ascending port order (R177). DEDUCED, unsafe (log 28). -/
def cavePort (ps : List CavePart) (off : Nat) : Option CaveId :=
  match ps with
  | [] => none
  | p :: _ =>
    let m := ps.foldl (fun m q => min m q.gib) p.gib
    if off < m * ps.length * gibi then (ps[off / 4096 % ps.length]?).map (·.port)
    else
      (ps.foldl (fun (a : Option CaveId × Nat) q =>
        match a.1 with
        | some x => (some x, a.2)
        | none => if off < a.2 + (q.gib - m) * gibi then (some q.port, a.2) else (none, a.2 + (q.gib - m) * gibi))
        (none, m * ps.length * gibi)).1

/-- The place of a local address; `lx` tells the variant with ACC sites (R162). -/
def MemCfg.place (c : MemCfg) (lx : Bool) (a : Nat) : Place :=
  if a < hbmEnd then
    match c.regionOf a with
    | some (_, r) => .hbm (rgKind r) (rgDomain r)
    | none => .unmapped
  else if pinBase ≤ a ∧ a < pinBase + 4 * gibi then
    let n := (a - pinBase) / gibi
    if (a - pinBase) % gibi < c.pinWays n * (112 * 0x100000) then .pinned n else .unmapped
  else if coreBase ≤ a ∧ a < coreBase + gibi then .store ((a - coreBase) / 0x400000) ((a - coreBase) % 0x400000)
  else if accBase ≤ a ∧ a < accBase + 0x2000000000 then
    if lx then .acc ((a - accBase) / 0x1000000000) else .unmapped
  else if devBase ≤ a ∧ a < devBase + 0x4000000 then .dev (a - devBase)
  else if caveBase ≤ a ∧ a < caveBase + c.caveSize * gibi then
    match cavePort c.caveMap (a - caveBase) with
    | some p => .cave p
    | none => .unmapped
  else .unmapped

/-- Who makes an access (R163). -/
inductive Requester where
  | program | unit | remote | firmware | host
  deriving DecidableEq, Repr

/-- Requesters whose writes R199, R275 and R344 judge: any but firmware and the units. -/
def Requester.isProgram (q : Requester) : Bool := decide (q ≠ .firmware ∧ q ≠ .unit)

/-- Whether a requester reaches a place by its local address (R163); the host's reach is BAR4's (R373). -/
def Place.reach (p : Place) (q : Requester) : Bool :=
  match p with
  | .unmapped => false
  | .hbm kind _ => kind ≠ 0 || q = .firmware
  | .pinned _ => true
  | .store _ _ => q = .firmware
  | .acc _ => q ≠ .unit
  | .dev _ => q = .firmware
  | .cave _ => true

/-- Parity of the ones of a number below 2^64. -/
def parity (x : Nat) : Bool := (List.range 64).foldl (fun b i => b != x.testBit i) false

/-- Hk(x) of R169 under the key, for a domain (0 ALL, 1 to 4 CELn). -/
def hashH (key : W64) (dom k x : Nat) : Nat :=
  (List.range k).foldl (fun a i => a + bitAtN (parity (x &&& Config.interleaveMask key dom i)) i) 0
where
  /-- A bit at a position. -/
  bitAtN (b : Bool) (i : Nat) : Nat := if b then 2 ^ i else 0

/-- The pseudo-channel of an HBM address in a region of a domain (R169). -/
def channelOf (key : W64) (dom a : Nat) : Nat :=
  let g := bits a 40 8
  if dom = 0 then (g % 1024) ^^^ hashH key 0 10 (bits g 32 10)
  else 256 * (dom - 1) + ((g % 256) ^^^ hashH key dom 8 (bits g 32 8))

/-- The home Cellar of an address: the owner of its pseudo-channel, its pinned die, A[8:7] in the cave; 0 elsewhere (R170,
R176, R178). -/
def MemCfg.home (c : MemCfg) (lx : Bool) (a : Nat) : Nat :=
  match c.place lx a with
  | .hbm _ d => channelOf c.key d a / 256 % 4
  | .pinned n => n % 4
  | .cave _ => bits a 8 7
  | _ => 0

/-- The first failing entry of a check, in increasing number (R521). -/
def firstFail (t : Vector W64 16) (bad : Nat → W64 → Bool) : Option Nat :=
  (t.toList.zipIdx.find? fun e => bad e.2 e.1).map (·.2)

/-- A valid entry that breaks its own limits (R168). -/
def rgReserved (r : W64) : Bool :=
  rgValid r && (decide (rgSize r = 0) || decide (2048 < rgBase r + rgSize r) || decide (5 ≤ rgDomain r) || decide (7 ≤ rgKind r))

/-- Whether an entry overlaps a lower-numbered valid entry (R521). -/
def rgOverlaps (t : Vector W64 16) (i : Nat) (r : W64) : Bool :=
  rgValid r && t.toList.zipIdx.any fun e =>
    e.2 < i && rgValid e.1 && overlaps (rgBase e.1) (rgSize e.1) (rgBase r) (rgSize r)

/-- A quarter of the ALL regions and the whole of the CELn regions against MEM_CAP (R168). -/
def capacityOk (t : Vector W64 16) (cap : Nat) (n : Nat) : Bool :=
  let all := t.toList.foldl (fun a r => if rgValid r && rgDomain r = 0 then a + rgSize r else a) 0
  let own := t.toList.foldl (fun a r => if rgValid r && rgDomain r = n + 1 then a + rgSize r else a) 0
  decide (all + 4 * own ≤ 4 * cap)

/-- Kind and domain of each GiB of the HBM range under a table; none unmapped. -/
def gibMap (t : Vector W64 16) : List (Option (Nat × Nat)) :=
  (List.range 2048).map fun g => (t.toList.find? fun r => rgHolds r (g * gibi)).map fun r => (rgKind r, rgDomain r)

/-- GiB of the runtime regions. -/
def runtimeGib (t : Vector W64 16) : Nat :=
  t.toList.foldl (fun a r => if rgValid r && rgKind r = 1 then a + rgSize r else a) 0

/-- GiB of an odd-sized gradient-table region, which R235 rejects with RESERVED. -/
def gtOdd (r : W64) : Bool := rgValid r && rgKind r = 2 && rgSize r % 2 = 1

/-- MEM_CFG_STATUS after the checks of R168 in the order of R521; 0 when all pass. `busy`: a job is loaded and the commit
is not the job load's. -/
def commitStatus (t : Vector W64 16) (pin : W64) (cap : Vector Nat 4) (busy : Bool) : Nat :=
  let pinBad := (List.range 4).any fun n => decide (8 < bits pin.toNat (4 * n + 3) (4 * n))
  if t[0] ≠ region0 then 6
  else match firstFail t (fun _ r => rgReserved r || gtOdd r) with
    | some i => 5 + 16 * i
    | none =>
      if pinBad then 5
      else match firstFail t (rgOverlaps t) with
        | some i => 2 + 16 * i
        | none =>
          if !((List.range 4).all fun n => capacityOk t (cap[n]?.getD 0) n) then 3
          else if runtimeGib t < 16 then 7
          else if busy then 4 else 0

/-- A byte of memory: free in a range that a commit has left undefined (R168). DEDUCED, safe (log 86). -/
def MemSt.byteAt (m : MemSt) (a : Nat) : Byte :=
  match m.undef.find? fun u => u.1 ≤ a && a < u.1 + u.2.1 with
  | some u => BitVec.ofNat 8 (Config.order u.2.2 a 256)
  | none => Cells.get m.bytes a

/-- Reading `n` bytes of mapped memory. -/
def MemSt.read (m : MemSt) (a n : Nat) : List Byte :=
  if m.undef.isEmpty then Cells.read m.bytes a n else (List.range n).map fun i => m.byteAt (a + i)

/-- A little-endian number in memory. -/
def MemSt.le (m : MemSt) (a n : Nat) : Nat := leNat (m.read a n)

/-- Undefined ranges without the bytes [a, a + n). -/
def cutUndef (us : List (Nat × Nat × Nat)) (a n : Nat) : List (Nat × Nat × Nat) :=
  (us.map fun u =>
    if !overlaps a n u.1 u.2.1 then [u]
    else
      (if u.1 < a then [(u.1, a - u.1, u.2.2)] else []) ++
      (if a + n < u.1 + u.2.1 then [(a + n, u.1 + u.2.1 - (a + n), u.2.2)] else [])).flatten

/-- The 128 bytes of a line. -/
def MemSt.lineBytes (m : MemSt) (l : Nat) : List Byte := m.read (128 * l) 128

/-- Whether a pseudo-channel is retired (R173, R194). -/
def MemSt.isRetired (m : MemSt) (pc : Nat) : Bool :=
  let i := Fin.ofNat 4 (pc / 256)
  match m.stat[i].retired.toList[pc % 256 / 64]? with | some w => w.getLsbD (pc % 64) | none => false

/-- Live pseudo-channels of a Cellar (R173). -/
def MemSt.liveChannels (m : MemSt) (n : Nat) : List Nat := ((List.range 256).map (256 * n + ·)).filter fun c => !m.isRetired c

/-- The pseudo-channel that serves an HBM address: that of R169, or, where it is retired, one of the die's live channels, each in turn over the
granules of the retired one (R173). DEDUCED, unsafe (log 106). -/
def MemSt.channelAt (m : MemSt) (dom a : Nat) : Nat :=
  let c := channelOf m.cfg.key dom a
  if !m.isRetired c then c
  else
    let live := m.liveChannels (c / 256)
    (live[bits a 40 8 / (if dom = 0 then 1024 else 256) % live.length]?).getD c

/-- One more request to the pseudo-channel of an address; none outside HBM (R194). -/
def MemSt.countReq (m : MemSt) (a : Nat) : MemSt :=
  match m.cfg.place false a with
  | .hbm _ d =>
    let c := m.channelAt d a
    let i := Fin.ofNat 4 (c / 256)
    { m with stat := m.stat.set i { m.stat[i] with reqs := Cells.set m.stat[i].reqs (c % 256) (Cells.get m.stat[i].reqs (c % 256) + 1) } }
  | _ => m

/-- Whether a row cache holds lines of an address as ordinary entries: HBM and the cave (R175). -/
def cacheable (a : Nat) : Bool := a < hbmEnd || caveBase ≤ a

/-- Whether an address lies in the range of the pinned partitions (R162). -/
def isPinned (a : Nat) : Bool := pinBase ≤ a && a < pinBase + 4 * gibi

/-- Slice and set of a line (R174): its fixed hash, modulo 7 and within the slice. DESIGN CHOICE, safe (log 27). -/
def rcSet (l : Nat) : Nat × Nat := (Config.rowCacheSet l % 7, Config.rowCacheSet l / 7 % 131072)

/-- The home Cellar of a line (R170, R178). -/
def MemSt.homeOf (m : MemSt) (l : Nat) : Fin 4 := Fin.ofNat 4 (m.cfg.home false (128 * l))

/-- The lines that share a line's set at its home. -/
def MemSt.setOf (m : MemSt) (l : Nat) : List CacheLine := m.lines.filter fun x => rcSet x.line = rcSet l && m.homeOf x.line = m.homeOf l

/-- A change of one Cellar's statistics. -/
def MemSt.updStat (m : MemSt) (n : Fin 4) (f : MemStat → MemStat) : MemSt := { m with stat := m.stat.set n (f m.stat[n]) }

/-- A line written back to its backing store; a clean or absent one stays as it is (R175, R194). -/
def MemSt.cleanLine (m : MemSt) (l : Nat) : MemSt :=
  if m.lines.any fun x => x.line = l && x.old.isSome then
    (({ m with lines := m.lines.map fun (x : CacheLine) => if x.line = l then ⟨x.line, x.way, none⟩ else x }).updStat (m.homeOf l) fun t =>
      { t with wback := t.wback + 1 }).countReq (128 * l)
  else m

/-- A missed line brought into its set: a free unpinned way, else that of a victim, which is written back if dirty (R174, R175, R185). Which way is
free: pseudo-LRU is not defined further. DESIGN CHOICE, safe (log 27). -/
def MemSt.allocate (m : MemSt) (l : Nat) : MemSt :=
  let set := m.setOf l
  let ways := (List.range (16 - m.cfg.pinWays (m.homeOf l).val)).filter fun w => !set.any fun x => x.way = w
  match ways[Config.order m.rcSeq 0 ways.length % ways.length]? with
  | some w => { m with lines := m.lines ++ [⟨l, w, none⟩] }
  | none =>
    match set[Config.order m.rcSeq 1 set.length % set.length]? with
    | none => m
    | some v =>
      let m := m.cleanLine v.line
      { m with lines := (m.lines.filter fun x => x.line ≠ v.line) ++ [⟨l, v.way, none⟩] }

/-- An access to a line at its home row cache: a hit, or a miss that reads memory once and allocates the line unless the transfer carries NOALLOC; a
pinned line always hits (R175, R184, R186, R194). -/
def MemSt.accessLine (m : MemSt) (alloc : Bool) (l : Nat) : MemSt :=
  let n := m.homeOf l
  let m := { m with rcSeq := m.rcSeq + 1 }
  if isPinned (128 * l) || (m.lines.any fun x => x.line = l) then m.updStat n fun t => { t with hit := t.hit + 1 }
  else if !cacheable (128 * l) then m
  else
    let m := (m.updStat n fun t => { t with miss := t.miss + 1 }).countReq (128 * l)
    if alloc then m.allocate l else m

/-- Lines that [a, a + n) covers at least in part. -/
def linesOf (a n : Nat) : List Nat := if n = 0 then [] else (List.range ((a + n - 1) / 128 - a / 128 + 1)).map (a / 128 + ·)

/-- The lines of a range accessed. -/
def MemSt.accessRange (m : MemSt) (alloc : Bool) (a n : Nat) : MemSt := (linesOf a n).foldl (fun m l => m.accessLine alloc l) m

/-- A line accessed for a write: cached, it becomes dirty, its backing content kept aside (R175). -/
def MemSt.touch (alloc : Bool) (m : MemSt) (l : Nat) : MemSt :=
  let m := m.accessLine alloc l
  { m with lines := m.lines.map fun (x : CacheLine) => if x.line = l && x.old.isNone then (⟨x.line, x.way, some (m.lineBytes l)⟩ : CacheLine) else x }

/-- Writing bytes of mapped memory: cached lines become dirty, a line covered whole is healed (R166, R175). -/
def MemSt.writeWith (m : MemSt) (alloc : Bool) (a : Nat) (bs : List Byte) : MemSt :=
  let n := bs.length
  let c := (linesOf a n).foldl (MemSt.touch alloc) m
  { m with lines := c.lines
           stat := c.stat
           rcSeq := c.rcSeq
           bytes := Cells.write m.bytes a bs
           undef := cutUndef m.undef a n
           uncorr := m.uncorr.filter fun l => !(a ≤ 128 * l && 128 * l + 128 ≤ a + n) }

/-- Writing bytes of mapped memory by an access that allocates. -/
def MemSt.write (m : MemSt) (a : Nat) (bs : List Byte) : MemSt := m.writeWith true a bs

/-- The lines that a write in units has covered whole are healed (R166). -/
def MemSt.heal (m : MemSt) (a n : Nat) : MemSt :=
  { m with uncorr := m.uncorr.filter fun l => !(a ≤ 128 * l && 128 * l + 128 ≤ a + n) }

/-- Whether a range touches an uncorrectable line (R166). -/
def MemSt.uncorrAt (m : MemSt) (a n : Nat) : Bool := (linesOf a n).any fun l => m.uncorr.contains l

/-- Write-back of the dirty lines of a range; each counts in RC_WBACK of its home (R175, R188, R194). -/
def MemSt.writeBack (m : MemSt) (a n : Nat) : MemSt :=
  ((m.lines.filter fun x => x.old.isSome && overlaps (128 * x.line) 128 a n).map (·.line)).foldl MemSt.cleanLine m

/-- Write-back of every dirty line. -/
def MemSt.writeBackAll (m : MemSt) : MemSt := m.writeBack 0 0x1000000000000

/-- Loss of the row caches: where a test picks an address, a dirty line's backing content stands (R175, R176). DEDUCED, unsafe (log 53). -/
def MemSt.loseDirty (m : MemSt) (p : Nat → Bool) : MemSt :=
  { m with
    lines := []
    bytes := m.lines.foldl (fun b x =>
      match x.old with
      | some o => if p (128 * x.line) then Cells.write b (128 * x.line) o else b
      | none => b) m.bytes }

/-- A range of bytes set to 0. -/
def MemSt.zeroRange (m : MemSt) (a n : Nat) : MemSt :=
  { m with bytes := Cells.clear m.bytes a n
           undef := cutUndef m.undef a n
           lines := m.lines.filter fun x => !(a ≤ 128 * x.line && 128 * x.line + 128 ≤ a + n)
           uncorr := m.uncorr.filter fun l => !(a ≤ 128 * l && 128 * l + 128 ≤ a + n) }

/-- Requests of the busiest pseudo-channels of a window and their numbers (R194). -/
def MemStat.busiest (t : MemStat) : Nat × List Nat :=
  let m := t.reqs.foldl (fun m c => max m c.2.toNat) 0
  (m, (t.reqs.filter fun c => c.2.toNat = m).map (·.1))

/-- RATIO of a window with `live` live channels, in 8.8 form; a window without requests, and a ratio that 8.8 does not hold, read an open value (R171,
R194). DESIGN CHOICE, safe (log 107). -/
def MemStat.ratio (t : MemStat) (live opn : Nat) : Nat :=
  let total := t.reqs.foldl (fun n c => n + c.2.toNat) 0
  let r := 256 * t.busiest.1 * live / total
  if total = 0 ∨ 65535 < r then opn % 65536 else r

/-- PC of a window: a busiest channel, any one of several (R194). DESIGN CHOICE, safe (log 107). -/
def MemStat.busyPc (t : MemStat) (pick : Nat) : Nat :=
  let xs := t.busiest.2
  if xs.isEmpty then pick % 256 else (xs[pick % xs.length]?).getD 0

end Sys2Proof.Machine
end

