-- ==== Sys2Proof/Machine/HostState.lean ====
section
/-! DEFINITION. State of the host attachment, the cave ports, the firmware processors, the mailbox and the log (chapters 13
and 14). -/

namespace Sys2Proof.Machine

/-- A submission-queue entry the device has read and not completed (R377, R379). `code` is the outcome once the effects
are done; `started` tells a read entry from a started one. -/
structure Sqe where
  seq : W32
  bytes : List Byte
  started : Bool
  code : Option Nat
  done : Nat
  deriving DecidableEq, Repr

/-- A completion record (R385) in the device ring; `written` tells that its host ring holds it. -/
structure Cmpl where
  q : Nat
  tag : W64
  seq : W32
  code : Nat
  cidx : W32
  done : W64
  srcseq : W64
  cstamp : W64
  written : Bool
  replay : Bool
  deriving DecidableEq, Repr

/-- A submission queue (R376 to R387, R395). `slots` holds the bytes of its ring, `tail` the furthest announced TAIL, `before` the state
kept over a detach, `late` holds the slot writes that no TAIL_ECHO read has followed, as window offset and bytes (R381), `waitVis` that the next entry has needed a
re-read, `dests` the device ranges of its started commands, `lost` records lost and not yet reported. -/
structure Queue where
  cfg : W64
  cqBase : W64
  cqCfg : W64
  cqHead : W32
  state : Nat
  before : Nat
  nextSeq : W32
  cidxNext : W32
  reread : W64
  echo : W32
  tail : Option W32
  waitVis : Bool
  late : List (Nat × List Byte)
  slots : Cells 8
  entries : List Sqe
  dests : List (Nat × Nat)
  lost : Nat
  deriving DecidableEq, Repr

/-- The host interface block and the PCIe function (R368 to R395). `buf` is the host read buffer, oldest line first; `ring` the device
completion ring, oldest record first; `common` is the clock mode of the J2 link: common clock, else SRNS (R21). -/
structure HifSt where
  ready : Bool
  attached : Bool
  cause : Nat
  width : Nat
  rate : Nat
  hbTime : W64
  hbArmed : Bool
  hostWrites : W64
  bar4Base : BitVec 48
  bar4Log : Nat
  session : W64
  lost : W64
  telBase : Nat
  buf : List (Nat × List Byte)
  ring : List Cmpl
  ringPos : BitVec 16
  queues : Vector Queue 64
  linkUp : Bool
  perstLow : Bool
  busMaster : Bool
  d3hot : Bool
  roEnable : Bool
  common : Bool
  deriving DecidableEq, Repr

/-- A cave port (R392, R393, R396). -/
structure CavePortSt where
  state : Nat
  width : Nat
  rate : Bool
  refuse : Nat
  cap : Nat
  pwrOk : Bool
  perst : Bool
  decoders : Bool
  deriving DecidableEq, Repr

/-- The cave block (R396). -/
structure CaveSt where
  ports : Vector CavePortSt 4
  poison : W64
  timeout : W64
  deriving DecidableEq, Repr

/-- A firmware processor (R397 to R401, R414, R415, R422): WD_CFG, counts, state 0 RUNNING 1 RESETTING 2 HELD, SRCSEQ count
and stamp, whether the TAP halts it. -/
structure Proc where
  cfg : W64
  expiries : BitVec 8
  state : Nat
  recent : Nat
  lastSeq : W32
  count : BitVec 44
  stamp : W64
  halted : Bool
  deriving DecidableEq, Repr

/-- A channel of the mailbox: the host window or the management path (R407, R408). -/
inductive Chan where
  | host | mgmt
  deriving DecidableEq, Repr

/-- A mailbox request: header fields of R406 and payload. -/
structure MbxReq where
  major : Nat
  minor : Nat
  op : Nat
  len : Nat
  seq : W32
  payload : List Byte
  deriving DecidableEq, Repr

/-- A mailbox response (R406, R409, R410). -/
structure MbxResp where
  minor : Nat
  op : Nat
  seq : W32
  status : Nat
  payload : List Byte
  deriving DecidableEq, Repr

/-- An accepted operation (R408): its ticket, its opcode and payload with the job configuration that it names, whether it has
started, its outcome once done. -/
structure AccOp where
  ch : Chan
  seq : W32
  op : Nat
  payload : List Byte
  cfg : Option JobConfig
  started : Bool
  outcome : Option Nat
  deriving DecidableEq, Repr

/-- The mailbox (R406 to R410, R422): bytes of MBX_REQ, state and response of the host channel, last response held by
channel, requests held while the MP is reset, accepted operations oldest first, finished ones newest last. -/
structure MbxSt where
  req : Cells 8
  state : Nat
  resp : Option MbxResp
  lastHost : Option MbxResp
  lastMgmt : Option MbxResp
  held : List (Chan × MbxReq × Option JobConfig)
  ops : List AccOp
  finished : List AccOp
  deriving DecidableEq, Repr

/-- A log record as written (R411): its entry header and its fields in order. -/
structure LogRec where
  pos : Nat
  srcseq : W64
  cstamp : W64
  faddr : Nat
  proc : Nat
  sev : Nat
  typ : Nat
  fields : List Nat
  deriving DecidableEq, Repr

/-- The log (R411 to R416, R449): position counter (the entries lie in memory), the early log, its overflow, the
records of the running millisecond by (PROC, TYPE), trace enables. -/
structure LogSt where
  base : Nat
  head : Nat
  early : List LogRec
  earlyLost : Nat
  ringUp : Bool
  suppressed : W64
  rates : List (Nat × Nat × Nat)
  trace : Vector W64 64
  deriving DecidableEq, Repr

/-- Firmware images and the boot record (R402 to R404, R422, R448). Flash bytes are kept inverted, so that an erased byte
(all ones) is an unlisted one. -/
structure FwSt where
  flash : Cells 8
  image : Nat
  split : Bool
  otherValid : Bool
  noImage : Bool
  selected : Bool
  boot : BitVec 20
  version : W32
  store : List Byte
  digests : List (BitVec 256)
  hbmBad : List Nat
  procs : Vector Proc 10
  deriving DecidableEq, Repr

def Queue.zero : Queue :=
  { cfg := 0, cqBase := 0, cqCfg := 0, cqHead := 0, state := 0, before := 0, nextSeq := 0, cidxNext := 0, reread := 0,
    echo := 0, tail := none, waitVis := false, late := [], slots := [], entries := [], dests := [], lost := 0 }

/-- Reset of R394: HIF_HB_TIME 1,000; BAR4 64 GiB (R371). -/
def HifSt.zero : HifSt :=
  { ready := false, attached := false, cause := 0, width := 0, rate := 0, hbTime := 1000, hbArmed := false, hostWrites := 0,
    bar4Base := 0, bar4Log := 36, session := 0, lost := 0, telBase := 0, buf := [], ring := [], ringPos := 0,
    queues := Vector.replicate 64 Queue.zero, linkUp := false, perstLow := false, busMaster := false, d3hot := false,
    roEnable := false, common := false }

/-- Reset of R396; CXL_PERST_N asserted in P4 (R392); the board powers the expanders. DEDUCED, safe (log 54). -/
def CavePortSt.zero : CavePortSt :=
  { state := 0, width := 0, rate := false, refuse := 0, cap := 0, pwrOk := true, perst := true, decoders := false }

def CaveSt.zero : CaveSt := { ports := Vector.replicate 4 CavePortSt.zero, poison := 0, timeout := 0 }

/-- Reset of R422: WD_TIMEOUT 50. -/
def Proc.zero : Proc :=
  { cfg := 50, expiries := 0, state := 0, recent := 0, lastSeq := 0, count := 0, stamp := 0, halted := false }

def MbxSt.zero : MbxSt :=
  { req := [], state := 0, resp := none, lastHost := none, lastMgmt := none, held := [], ops := [], finished := [] }

def LogSt.zero : LogSt :=
  { base := 0, head := 0, early := [], earlyLost := 0, ringUp := false, suppressed := 0, rates := [],
    trace := Vector.replicate 64 0 }

def FwSt.zero : FwSt :=
  { flash := [], image := 0, split := false, otherValid := false, noImage := false, selected := false, boot := 0,
    version := 0, store := [], digests := [], hbmBad := [], procs := Vector.replicate 10 Proc.zero }

end Sys2Proof.Machine
end

