-- ==== Sys2Proof/Machine/PlatState.lean ====
section
/-! DEFINITION. State of the board's inputs, power, start-up, management and security (chapters 01, 15, 16 and 18). -/

namespace Sys2Proof.Machine

/-- Pins and readings the module takes from the board (R19, R25, R28, R508). Voltages in mV, temperatures in 0.1 °C, flow in
0.01 L/min. -/
structure Inputs where
  pwrEn : Bool
  modReset : Bool
  promRoot : Bool
  inputOk : Bool
  overvolt : Bool
  refOk : Bool
  volt : Nat
  coolOk : Bool
  thermTrip : Bool
  hostRefclk : Bool
  deriving DecidableEq, Repr

/-- The protect sequence (R440): whether steps 1 to 4 are over, and whether it ends in P4 (R27). -/
structure Protect where
  flushing : Bool
  toP4 : Bool
  deriving DecidableEq, Repr

/-- The power block and the state behind it (R426 to R443). `coolReq` is 0, 1 for P1 or 3 for P3; `hot` lists the sensors
that require P1; `sagMin` is the lowest voltage of the sag, `sagTold` whether its record is written; `bucket` is E in 0.1 mJ, `dead` the ticks since E last reached 0. -/
structure PowerSt where
  pstate : Nat
  sag : Bool
  ride : Bool
  protect : Option Protect
  aux : Bool
  coolReq : Nat
  coolLow : Bool
  hot : List Nat
  standby : Bool
  gated : Vector Bool 4
  cfg : W64
  cfgNow : W64
  inp : W64
  bucket : Nat
  capCeil : Nat
  dead : Nat
  holdup : W64
  holdupOk : Bool
  rails : Vector W64 8
  sagMin : Nat
  sagTold : Bool
  sagCnt : W64
  protectCnt : W64
  capTicks : W64
  flushInc : W64
  deriving DecidableEq, Repr

/-- The start-up block (R464) and the state of the phases (R444 to R463). `part` is the step of R453 in progress, `stuck` the
condition the failed start needs to see change (R459). -/
structure StartSt where
  stage : Nat
  cause : Nat
  nextCause : Nat
  ready : Bool
  fail : Nat
  cores : Nat
  pcRetired : Nat
  cavePorts : Nat
  dur : W64
  coldHeld : Bool
  coldDone : Bool
  barred : Bool
  celUp : Bool
  capOk : Bool
  copyOk : Bool
  settled : Bool
  asking : Bool
  deriving DecidableEq, Repr

/-- Fuse record of the Hub (R14, R38, R39, R493). -/
structure Fuses where
  lx : Bool
  hubId : W64
  serial : Nat
  revLetter : Nat
  revDigit : Nat
  accCode : Vector Nat 2
  lc : BitVec 3
  keyKill : Bool
  fwPk : BitVec 512
  authPk : BitVec 512
  idPk : BitVec 512
  idSk : BitVec 512
  floor : Nat
  deriving DecidableEq, Repr

/-- A firmware update (R511, R512): region written, bytes programmed, its total, result once verified. -/
structure FwUpdate where
  region : Nat
  got : Nat
  total : Nat
  result : Option Nat
  deriving DecidableEq, Repr

/-- A security message (R504). -/
inductive SecMsg where
  | getId
  | quote (nonce : BitVec 256)
  | challenge
  | debugSet (level : Nat) (token : List Byte)
  | lifecycle (target : Nat) (token : List Byte)
  | floorRaise (e : Nat) (token : List Byte)
  | logRead (pos count : Nat)
  deriving DecidableEq, Repr

/-- A message of the management path (R451, R504, R508 to R512). -/
inductive MgmtMsg where
  | setEid (eid : Nat)
  | poll
  | sensor (n : Nat)
  | numeric (id v : Nat)
  | state (id v : Nat)
  | requestUpdate (len : Nat)
  | data (bs : List Byte)
  | activate
  | cancel
  | sec (m : SecMsg)
  deriving DecidableEq, Repr

/-- The security block (R514) and what it stands for: level, nonce, index slots (R503), counters, update; `queue` the messages that the SP
holds (R504), `held` the DEBUG_SET requests among them that a start holds back (R498). -/
structure SecSt where
  level : Nat
  nonce : Option (BitVec 256)
  index : Nat
  mark : Nat
  cfg : W64
  quotes : W64
  tokenFail : W64
  tapDeny : W64
  quoteWait : Bool
  pending : Option Nat
  raise : Bool
  update : Option FwUpdate
  queue : List SecMsg
  held : List (Nat × List Byte)
  deriving DecidableEq, Repr

/-- Addresses and event queue of the management path (R450, R451, R508 to R510). An event is (sensor, value); `sensors` holds the last
readings of the board's sensors, `held` messages that wait for the MP (R401). -/
structure MgmtSt where
  i3c : Option Nat
  smb : Nat
  eid : Option Nat
  events : List (Nat × Nat)
  evtLost : W64
  lostMs : Nat
  sensors : List (Nat × Nat)
  held : List MgmtMsg
  deriving DecidableEq, Repr

/-- The TAP (R19, R497): instruction register, what the last scan returned, boundary-scan cells as sampled and as driven,
stand-alone test mode by die. -/
structure TapSt where
  ir : Nat
  out : List Byte
  pins : List Bool
  drive : List Bool
  driving : Bool
  testMode : List Nat
  deriving DecidableEq, Repr

def Inputs.zero : Inputs :=
  { pwrEn := false, modReset := false, promRoot := false, inputOk := false, overvolt := false, refOk := false, volt := 0,
    coolOk := false, thermTrip := false, hostRefclk := false }

/-- Reset of PWR_CFG: P1_CEIL 32, P2_DELAY 1, SUST 2,395 (R443). -/
def pwrCfgReset : W64 := BitVec.ofNat 64 (32 + 2 ^ 8 * 1 + 2 ^ 16 * 2395)

/-- Reset of the power block: PSTATE 4 (R443); E 5 J and CAP_CEIL 64 as on entry into P0 (R435). DESIGN CHOICE, unsafe (log 33). -/
def PowerSt.zero : PowerSt :=
  { pstate := 4, sag := false, ride := false, protect := none, aux := false, coolReq := 0, coolLow := false, hot := [],
    standby := false, gated := Vector.replicate 4 false, cfg := pwrCfgReset, cfgNow := pwrCfgReset, inp := 0,
    bucket := 50000, capCeil := 64, dead := 0, holdup := 0, holdupOk := false, rails := Vector.replicate 8 0, sagMin := 0, sagTold := true, sagCnt := 0,
    protectCnt := 0, capTicks := 0, flushInc := 0 }

def StartSt.zero : StartSt :=
  { stage := 0, cause := 0, nextCause := 0, ready := false, fail := 0, cores := 0, pcRetired := 0, cavePorts := 0,
    dur := 0, coldHeld := true, coldDone := false, barred := false, celUp := false, capOk := false, copyOk := false,
    settled := false, asking := false }

/-- An unprogrammed fuse record: every fuse unblown. DESIGN CHOICE, unsafe (log 33). -/
def Fuses.zero : Fuses :=
  { lx := false, hubId := 0, serial := 0, revLetter := 0, revDigit := 0, accCode := Vector.replicate 2 0, lc := 0,
    keyKill := false, fwPk := 0, authPk := 0, idPk := 0, idSk := 0, floor := 0 }

/-- Reset of the security block: SEC_CFG 600 (R514); the level of MANUFACTURE is FULL (R492). -/
def SecSt.zero : SecSt :=
  { level := 2, nonce := none, index := 0, mark := 0, cfg := 600, quotes := 0, tokenFail := 0, tapDeny := 0,
    quoteWait := false, pending := none, raise := false, update := none, queue := [], held := [] }

def MgmtSt.zero : MgmtSt :=
  { i3c := none, smb := 0x62, eid := none, events := [], evtLost := 0, lostMs := 0, sensors := [], held := [] }

def TapSt.zero : TapSt := { ir := 0, out := [], pins := [], drive := [], driving := false, testMode := [] }

end Sys2Proof.Machine
end

