-- ==== Sys2Proof/Machine/Operands.lean ====
section
/-! DEFINITION. Operand forms of a core: registers, guards, the core store, the address generators (R40, R41, R44, R56 to
R59, R86, R518). -/

namespace Sys2Proof.Machine

/-- A free byte; `k` is a value of the counter `free` of State. DESIGN CHOICE, safe (log 3). -/
def freeByte (k : Nat) : Byte := (Config.fresh k).setWidth 8

/-- `n` free bytes. DESIGN CHOICE, safe (log 3). -/
def freeBytes (k n : Nat) : List Byte := (List.range n).map fun i => freeByte (k + i)

/-- `n` free 32-bit words. DESIGN CHOICE, safe (log 3). -/
def freeWords (k n : Nat) : List W32 := (List.range n).map fun i => (Config.fresh (k + i)).setWidth 32

/-- How far a command that may use free values advances the counter: more than it can use. -/
def freeStep : Nat := 2 ^ 24

/-- The guard of a slot (R43). -/
structure Guard where
  gp : PReg
  gn : Bool
  deriving DecidableEq, Repr

/-- A scalar register; s0 reads 0 (R40). -/
def CoreRegs.sget (r : CoreRegs) (i : SReg) : W64 := if i = 0 then 0#64 else r.s[i]

/-- Writing a scalar register; writes to s0 are discarded (R40). -/
def CoreRegs.sset (r : CoreRegs) (i : SReg) (v : W64) : CoreRegs :=
  if i = 0 then r else { r with s := r.s.set i v }

/-- A predicate register; p0 reads 1 (R40). -/
def CoreRegs.pget (r : CoreRegs) (i : PReg) : Bool := if i = 0 then true else r.p[i]

/-- Writing a predicate register; writes to p0 are discarded (R40). -/
def CoreRegs.pset (r : CoreRegs) (i : PReg) (v : Bool) : CoreRegs :=
  if i = 0 then r else { r with p := r.p.set i v }

/-- Whether a guarded slot executes: (p[GP] XOR GN) = 1 (R44). -/
def Guard.holds (g : Guard) (r : CoreRegs) : Bool := (r.pget g.gp) != g.gn

/-- Lane `l` of vector register `i` (R40). -/
def CoreRegs.lane (r : CoreRegs) (i l : Nat) : W32 := Cells.get r.v (64 * i + l)

/-- The 64 lanes of a vector register. -/
def CoreRegs.vget (r : CoreRegs) (i : Nat) : List W32 := Cells.read r.v (64 * i) 64

/-- Writing a whole vector register. -/
def CoreRegs.vset (r : CoreRegs) (i : Nat) (ls : List W32) : CoreRegs :=
  { r with v := Cells.write r.v (64 * i) (ls.take 64) }

/-- Key of an accumulator cell: bank, row, column (R40, R82). -/
def accKey (bank row col : Nat) : Nat := 4096 * bank + 128 * row + col

/-- An accumulator cell. -/
def CoreRegs.accGet (r : CoreRegs) (bank row col : Nat) : W32 := Cells.get r.acc (accKey bank row col)

/-- Bytes of the core store. -/
def storeBytes : Nat := 0x400000

/-- A local store address: bits above 21 are ignored (R41). -/
def storeAddr (a : Nat) : Nat := a % storeBytes

/-- `n` bytes of the core store from address `a`, wrapping at the end (R41). -/
def storeRead (m : Cells 8) (a n : Nat) : List Byte :=
  let b := storeAddr a
  if b + n ≤ storeBytes then Cells.read m b n
  else (List.range n).map fun i => Cells.get m (storeAddr (a + i))

/-- Writing bytes at address `a`, wrapping at the end (R41). -/
def storePut (m : Cells 8) (a : Nat) : List Byte → Cells 8
  | [] => m
  | b :: bs => storePut (Cells.set m (storeAddr a) b) (a + 1) bs

/-- Little-endian value of `n` bytes of the core store. -/
def storeLe (m : Cells 8) (a n : Nat) : Nat := leNat (storeRead m a n)

/-- A field of an AG descriptor: `n` bytes at byte offset `o` (R56). -/
def Ag.field (g : Ag) (o n : Nat) : Nat := bits g.desc.toNat (8 * (o + n) - 1) (8 * o)

/-- COUNTl; 0 is treated as 1 (R56). -/
def Ag.count (g : Ag) (l : Nat) : Nat := max 1 (g.field (2 * l) 2)
/-- STRIDEl, signed (R56). -/
def Ag.stride (g : Ag) (l : Nat) : Int := signed 32 (g.field (0x08 + 4 * l) 4)
/-- DILl; 0 is treated as 1 (R56). -/
def Ag.dil (g : Ag) (l : Nat) : Nat := max 1 (g.field (0x18 + l) 1)
/-- PADLOl (R56). -/
def Ag.padlo (g : Ag) (l : Nat) : Nat := g.field (0x1c + l) 1
/-- PADVAL (R56). -/
def Ag.padval (g : Ag) : Nat := g.field 0x24 4
/-- CTRL (R56). -/
def Ag.ctrl (g : Ag) : Nat := g.field 0x28 4
/-- BASESEL (R56). -/
def Ag.basesel (g : Ag) : Nat := bits g.ctrl 1 0
/-- ESIZE (R56). -/
def Ag.esize (g : Ag) : Nat := bits g.ctrl 4 2
/-- ORIENT: column orientation (R56). -/
def Ag.column (g : Ag) : Bool := bit g.ctrl 5
/-- PADMASK bit l (R56). -/
def Ag.padmask (g : Ag) (l : Nat) : Bool := bit g.ctrl (6 + l)
/-- EXTENTl (R56). -/
def Ag.extent (g : Ag) (l : Nat) : Nat := g.field (0x2c + 2 * l) 2
/-- COLSTRIDE (R56). -/
def Ag.colstride (g : Ag) : Nat := g.field 0x34 4

/-- Bits of an element of an ESIZE (R56, R518). -/
def esizeBits (e : Nat) : Nat := match e with | 0 => 8 | 1 => 16 | 2 => 32 | 3 => 4 | _ => 6

/-- The check of `d.agld` (R518): reserved ESIZE, nonzero CTRL [31:11] or bytes 0x38 to 0x3f. -/
def agDescOk (d : BitVec 512) : Bool :=
  let g : Ag := ⟨d, false, 0, 0⟩
  decide (g.esize ≤ 4) && g.ctrl / 2 ^ 11 = 0 && g.field 0x38 8 = 0

/-- Accesses of a whole stream: the product of the loop counts (R57). -/
def Ag.total (g : Ag) : Nat := g.count 0 * g.count 1 * g.count 2 * g.count 3

/-- Accesses an active stream still has (R59). -/
def Ag.remaining (g : Ag) : Nat := if g.active then g.total - g.taken else 0

/-- Loop index l of access number k; loop 0 is innermost (R56, R57). -/
def Ag.index (g : Ag) (k l : Nat) : Nat :=
  match l with
  | 0 => k % g.count 0
  | 1 => k / g.count 0 % g.count 1
  | 2 => k / (g.count 0 * g.count 1) % g.count 2
  | _ => k / (g.count 0 * g.count 1 * g.count 2)

/-- Coordinate c_l of access k (R57). -/
def Ag.coord (g : Ag) (k l : Nat) : Int := (g.index k l * g.dil l : Nat) - (g.padlo l : Int)

/-- Whether access k is padding (R57). -/
def Ag.padding (g : Ag) (k : Nat) : Bool :=
  (List.range 4).any fun l => g.padmask l && (decide (g.coord k l < 0) || decide ((g.extent l : Int) ≤ g.coord k l))

/-- Access address of access k, in the core store (R41, R57). -/
def Ag.addr (g : Ag) (k : Nat) : Nat :=
  ((g.base : Int) + (List.range 4).foldl (fun a l => a + g.coord k l * g.stride l) 0).emod storeBytes |>.toNat

/-- The stretches (address, bytes) access k of W elements touches; none for padding (R57, R58, R518). -/
def Ag.spans (g : Ag) (w k : Nat) : List (Nat × Nat) :=
  if g.padding k then []
  else if g.column then
    (List.range w).map fun e => (storeAddr (g.addr k + e * g.colstride), (esizeBits g.esize + 7) / 8)
  else [(g.addr k, (w * esizeBits g.esize + 7) / 8)]

/-- Element codes of access k of W elements (R57, R518). -/
def Ag.readAt (g : Ag) (m : Cells 8) (w k : Nat) : List Nat :=
  let b := esizeBits g.esize
  if g.padding k then List.replicate w (g.padval % 2 ^ b)
  else if g.column then
    (List.range w).map fun e => storeLe m (g.addr k + e * g.colstride) ((b + 7) / 8) % 2 ^ b
  else unpackElems b w (storeRead m (g.addr k) ((w * b + 7) / 8))

/-- The bytes access k of a write stream puts: low bits of each element, as (address, bytes) (R53, R57, R518). -/
def Ag.writeAt (g : Ag) (k : Nat) (xs : List Nat) : List (Nat × List Byte) :=
  let b := esizeBits g.esize
  if g.padding k then []
  else if g.column then
    xs.zipIdx.map fun p => (storeAddr (g.addr k + p.2 * g.colstride), toLe ((b + 7) / 8) (p.1 % 2 ^ b))
  else [(g.addr k, packElems b xs)]

/-- A generator with its stream started at the base register's present value (R57). -/
def Ag.start (g : Ag) (r : CoreRegs) (n : AgId) : Ag :=
  { g with active := true, taken := 0, base := (r.a[4 * n.val + g.basesel]?.getD 0#64).toNat }

/-- A generator whose stream was started, or whose descriptor was loaded, while it was active: everything its streams then read and write
is free (R80). DEDUCED, safe (log 43). -/
def Ag.wild (k : Nat) : Ag :=
  { desc := BitVec.ofNat 512 (leNat (freeBytes k 64)), active := true, base := (Config.fresh (k + 64)).toNat,
    taken := (Config.fresh (k + 65)).toNat }

/-- The stretches that accesses `k` to `k + n - 1` of W elements of a stream touch; accesses past its end touch nothing (R59). -/
def Ag.spansOf (g : Ag) (w k n : Nat) : List (Nat × Nat) :=
  ((List.range (min n (g.total - k))).map fun i => g.spans w (k + i)).flatten

/-- A generator after `k` more accesses; after its last access it is inactive (R59). -/
def Ag.advance (g : Ag) (k : Nat) : Ag :=
  if g.taken + k < g.total then { g with taken := g.taken + k }
  else { g with active := false, taken := g.total }

/-- The 512-bit descriptor at a store address. -/
def agDescAt (m : Cells 8) (a : Nat) : BitVec 512 := BitVec.ofNat 512 (storeLe m a 64)

/-- The block scale of access number k of an MX plane with `n` bytes per access; a padding access uses 2^0 (R87). -/
def planeScales (m : Cells 8) (g : Ag) (plane n k : Nat) : List Nat :=
  if g.padding k then List.replicate n 127 else (storeRead m (plane + n * k) n).map (·.toNat)

end Sys2Proof.Machine
end

