-- ==== Sys2Proof/Machine/Stages.lean ====
section
/-! DEFINITION. The stage catalogue of the vector engine (R122, R123). A function with an error bound delivers the free
value of Config when that value lies within the bound of the exact function, and the correctly rounded value otherwise:
so every code within the bound, and no other, can come out. The exact function is computed to about 400 bits. -/

namespace Sys2Proof.Machine

/-- A real approximated as n × 2^e. -/
structure Rl where
  n : Int
  e : Int
  deriving DecidableEq, Repr

/-- Significant bits kept. -/
def rlBits : Nat := 420

/-- The approximation cut to `rlBits` significant bits. -/
def Rl.cut (a : Rl) : Rl :=
  let k := a.n.natAbs.log2
  if k ≤ rlBits then a
  else
    let d := k - rlBits
    let m : Int := (a.n.natAbs / 2 ^ d : Nat)
    ⟨if a.n < 0 then -m else m, a.e + d⟩

def Rl.add (a b : Rl) : Rl :=
  if a.n = 0 then b else if b.n = 0 then a else
  let ka := (a.n.natAbs.log2 : Int) + a.e
  let kb := (b.n.natAbs.log2 : Int) + b.e
  if ka + 900 < kb then b else if kb + 900 < ka then a else
  let q := min a.e b.e
  Rl.cut ⟨a.n * (2 ^ (a.e - q).toNat : Nat) + b.n * (2 ^ (b.e - q).toNat : Nat), q⟩

def Rl.neg (a : Rl) : Rl := ⟨-a.n, a.e⟩
def Rl.sub (a b : Rl) : Rl := a.add b.neg
def Rl.mul (a b : Rl) : Rl := Rl.cut ⟨a.n * b.n, a.e + b.e⟩

/-- Quotient; 0 when the divisor is 0 (no caller divides by 0). -/
def Rl.div (a b : Rl) : Rl :=
  if b.n = 0 then ⟨0, 0⟩ else
  let s := rlBits + b.n.natAbs.log2
  let m : Int := (a.n.natAbs * 2 ^ s / b.n.natAbs : Nat)
  Rl.cut ⟨if (a.n < 0) = (b.n < 0) then m else -m, a.e - b.e - s⟩

def Rl.ofInt (n : Int) : Rl := ⟨n, 0⟩
def Rl.one : Rl := ⟨1, 0⟩

/-- The exact value of a finite FP32 operand. -/
def Rl.ofF (v : FVal) : Rl :=
  match v with
  | .fin s m e => ⟨if s then -(m : Int) else m, e⟩
  | _ => ⟨0, 0⟩

/-- Signed magnitude below: |a| < 2^k. -/
def Rl.below (a : Rl) (k : Int) : Bool := a.n = 0 || decide ((a.n.natAbs.log2 : Int) + a.e < k)

/-- Integer square root by bits from `2^i` downward. -/
def isqrtGo (x : Nat) : Nat → Nat → Nat
  | 0, r => if (r + 1) * (r + 1) ≤ x then r + 1 else r
  | i + 1, r => isqrtGo x i (if (r + 2 ^ (i + 1)) * (r + 2 ^ (i + 1)) ≤ x then r + 2 ^ (i + 1) else r)

/-- Integer square root. -/
def isqrt (x : Nat) : Nat := isqrtGo x (x.log2 / 2 + 1) 0

/-- Square root of a non-negative real. -/
def Rl.sqrt (a : Rl) : Rl :=
  let s : Nat := 2 * rlBits + (if a.e % 2 = 0 then 0 else 1)
  Rl.cut ⟨(isqrt (a.n.natAbs * 2 ^ s) : Nat), (a.e - s) / 2⟩

/-- Σ z^(2i+1) ÷ (2i+1) over `n` terms from power `p` of odd exponent `k`: atanh z. -/
def atanhGo (z2 : Rl) : Nat → Rl → Nat → Rl → Rl
  | 0, _, _, acc => acc
  | n + 1, p, k, acc => atanhGo z2 n (p.mul z2) (k + 2) (acc.add (p.div (Rl.ofInt k)))

def Rl.atanh (z : Rl) : Rl := atanhGo (z.mul z) 140 z 1 ⟨0, 0⟩

/-- ln 2. -/
def Rl.ln2 : Rl := (Rl.ofInt 2).mul (Rl.atanh (Rl.one.div (Rl.ofInt 3)))

/-- Natural logarithm of a positive real. -/
def Rl.ln (a : Rl) : Rl :=
  let l := a.n.natAbs.log2
  let f : Rl := ⟨a.n.natAbs, -(l : Int)⟩
  let z := (f.sub Rl.one).div (f.add Rl.one)
  ((Rl.ofInt ((l : Int) + a.e)).mul Rl.ln2).add ((Rl.ofInt 2).mul (Rl.atanh z))

/-- Σ r^i ÷ i! over `n` terms. -/
def expGo (r : Rl) : Nat → Nat → Rl → Rl → Rl
  | 0, _, _, acc => acc
  | n + 1, i, t, acc => expGo r n (i + 1) ((t.mul r).div (Rl.ofInt i)) (acc.add t)

/-- ⌊a⌋ of a real below 2^40. -/
def Rl.floor (a : Rl) : Int :=
  if 0 ≤ a.e then a.n * (2 ^ a.e.toNat : Nat) else a.n / (2 ^ (-a.e).toNat : Nat)

/-- e^a; magnitudes of 2^12 and above are cut to 2^12, where the result is far outside FP32. -/
def Rl.exp (a : Rl) : Rl :=
  let a := if a.below 12 then a else Rl.ofInt (if a.n < 0 then -4096 else 4096)
  let k := (a.div Rl.ln2).floor
  let r := a.sub ((Rl.ofInt k).mul Rl.ln2)
  let t := expGo r 100 1 Rl.one ⟨0, 0⟩
  ⟨t.n, t.e + k⟩

/-- 1 ÷ (1 + e^−a). -/
def Rl.sigmoid (a : Rl) : Rl := Rl.one.div (Rl.one.add a.neg.exp)

/-- tanh a = 2 sigmoid(2a) − 1. -/
def Rl.tanh (a : Rl) : Rl :=
  if a.below (-130) then a else ((Rl.ofInt 2).mul (Rl.sigmoid ((Rl.ofInt 2).mul a))).sub Rl.one

/-- arctan of 1 ÷ k by its series, for π. -/
def atanInvGo (k2 : Rl) : Nat → Rl → Int → Rl → Rl
  | 0, _, _, acc => acc
  | n + 1, p, j, acc =>
    let t := p.div (Rl.ofInt (2 * j + 1))
    atanInvGo k2 n (p.div k2) (j + 1) (if j % 2 = 0 then acc.add t else acc.sub t)

def atanInv (k : Int) : Rl := atanInvGo (Rl.ofInt (k * k)) 200 (Rl.one.div (Rl.ofInt k)) 0 ⟨0, 0⟩

/-- π = 16 arctan(1/5) − 4 arctan(1/239). -/
def Rl.pi : Rl := ((Rl.ofInt 16).mul (atanInv 5)).sub ((Rl.ofInt 4).mul (atanInv 239))

/-- √(2/π) (R122). -/
def geluC : Rl := ((Rl.ofInt 2).div Rl.pi).sqrt

/-- 0.044715 (R122). -/
def geluK : Rl := (Rl.ofInt 44715).div (Rl.ofInt 1000000)

/-- √(2/π) × (x + 0.044715 x³). -/
def geluU (x : Rl) : Rl := geluC.mul (x.add (geluK.mul (x.mul (x.mul x))))

/-- An error bound: `ulp` units in the last place of the exact result plus 2^−abs when abs is not 0 (R122). -/
structure Bound where
  ulp : Nat
  abs : Nat
  deriving DecidableEq, Repr

/-- The bound's width at exact result a. -/
def Bound.width (b : Bound) (a : Rl) : Rl :=
  let k : Int := if a.n = 0 then -149 else max ((a.n.natAbs.log2 : Int) + a.e - 23) (-149)
  (Rl.mk (b.ulp : Int) k).add (if b.abs = 0 then ⟨0, 0⟩ else ⟨1, -(b.abs : Int)⟩)

/-- The real rounded to nearest even in FP32. -/
def Rl.toF32 (a : Rl) : W32 :=
  Machine.toF32 (if a.n = 0 then .fin false 0 0 else .fin (decide (a.n < 0)) a.n.natAbs a.e)

/-- The value a stage delivers for exact result a: the free value `f` where the bound admits it, the rounded one elsewhere;
an exact result beyond FP32 gives ±∞ (R122, R123). DESIGN CHOICE, safe (log 18). -/
def within (b : Bound) (a : Rl) (f : W32) : W32 :=
  let r := a.toF32
  match f32 r, f32 f with
  | .fin _ _ _, .fin s m e =>
    let d := (Rl.ofF (.fin s m e)).sub a
    let w := b.width a
    let gap := (⟨d.n.natAbs, d.e⟩ : Rl).sub w
    if gap.n ≤ 0 then f else r
  | _, _ => r

/-- The same where the exact result is 0: the rounded value is the zero of sign `s`. -/
def withinZero (b : Bound) (s : Bool) (f : W32) : W32 :=
  let r := within b ⟨0, 0⟩ f
  if r &&& 0x7fffffff#32 = 0 then (if s then 0x80000000#32 else 0#32) else r

/-- FP32 codes of the special values. -/
def f32Inf (s : Bool) : W32 := if s then 0xff800000#32 else 0x7f800000#32
def f32Zero (s : Bool) : W32 := if s then 0x80000000#32 else 0#32

/-- Stages with one operand and an error bound, on a finite operand whose result is finite: exact result and bound (R122). -/
def unaryExact (code : Nat) (x : Rl) : Option (Rl × Bound) :=
  match code with
  | 0x00c => some (Rl.one.div x, ⟨1, 0⟩)
  | 0x012 => some (x.sigmoid, ⟨0, 22⟩)
  | 0x013 => some (x.tanh, ⟨0, 22⟩)
  | 0x014 => some (x.mul x.sigmoid, ⟨4, 22⟩)
  | 0x015 => some ((x.mul (Rl.one.add (geluU x).tanh)).mul ⟨1, -1⟩, ⟨4, 22⟩)
  | 0x016 => some (if x.n < 0 then (if x.below 9 then (Rl.one.add x.exp).ln else x.exp)
                   else x.add (Rl.one.add x.neg.exp).ln, ⟨2, 0⟩)
  | 0x020 => some (x.exp, ⟨2, 0⟩)
  | 0x021 => some ((x.mul Rl.ln2).exp, ⟨1, 0⟩)
  | 0x022 => some (x.ln, ⟨2, 0⟩)
  | 0x023 => some (x.ln.div Rl.ln2, ⟨2, 0⟩)
  | 0x024 => some (Rl.one.div x.sqrt, ⟨1, 0⟩)
  | 0x025 => some (x.sqrt, ⟨1, 0⟩)
  | _ => none

/-- A one-operand function at ±0: infinite by IEEE 754, or a finite exact result within its bound (R122, R123). DESIGN CHOICE, safe (log 18). -/
def unaryZero (code : Nat) (s : Bool) (free : W32) : W32 :=
  match code with
  | 0x00c | 0x024 => f32Inf s
  | 0x022 | 0x023 => f32Inf true
  | _ =>
    match unaryExact code ⟨0, 0⟩ with
    | some (a, b) => if a.n = 0 then withinZero b s free else within b a free
    | none => f32Zero s

/-- The IEEE 754 result of a one-operand function at ±∞, and its value at ±0 (R123). DESIGN CHOICE, safe (log 18). -/
def unarySpecial (code : Nat) (v : FVal) (free : W32) : W32 :=
  let s := v.neg
  if v.isZero then unaryZero code s free
  else
    match code with
    | 0x00c => f32Zero s
    | 0x012 => if s then 0#32 else f32One
    | 0x013 => if s then 0xbf800000#32 else f32One
    | 0x014 | 0x015 => if s then f32Zero true else f32Inf false
    | 0x016 | 0x020 | 0x021 => if s then 0#32 else f32Inf false
    | 0x024 => 0#32
    | _ => f32Inf false

/-- Stages whose negative operand is outside the domain (R123). -/
def domainStage (code : Nat) : Bool := code = 0x022 || code = 0x023 || code = 0x024 || code = 0x025

/-- A one-operand stage with an error bound: result and DOMAIN (R122, R123). -/
def unaryStage (code : Nat) (x free : W32) : W32 × Bool :=
  let v := f32 x
  if v.isNan then (nanFree code [x], false)
  else if domainStage code && v.neg && !v.isZero then (nanFree code [x], true)
  else match v with
    | .fin _ (m + 1) e =>
      match unaryExact code (Rl.ofF (.fin v.neg (m + 1) e)) with
      | some (a, b) => (within b a free, false)
      | none => (x, false)
    | w => (unarySpecial code w free, false)

/-- x ÷ y within 2 ULP (R122), IEEE 754 at special operands (R123). -/
def divStage (x y free : W32) : W32 :=
  let a := f32 x
  let b := f32 y
  let s := a.neg != b.neg
  match a, b with
  | .nan _ _, _ => nanFree 0x00d [x, y]
  | _, .nan _ _ => nanFree 0x00d [x, y]
  | .inf _, .inf _ => nanFree 0x00d [x, y]
  | .inf _, _ => f32Inf s
  | _, .inf _ => f32Zero s
  | .fin _ m _, .fin _ k _ =>
    if k = 0 then (if m = 0 then nanFree 0x00d [x, y] else f32Inf s)
    else if m = 0 then f32Zero s
    else within ⟨2, 0⟩ ((Rl.ofF a).div (Rl.ofF b)) free

/-- x × (y + C)^−½ within 2 ULP; DOMAIN when y + C is negative (R122, R123). -/
def mulRsq (x y c free : W32) : W32 × Bool :=
  let t := (f32 y).add (f32 c)
  match t with
  | .nan _ _ => (nanFree 0x026 [x, y, c], false)
  | .inf s => if s then (nanFree 0x026 [x, y, c], true) else (toF32Free 0x026 [x, y, c] ((f32 x).mul (.fin false 0 0)), false)
  | .fin s m e =>
    if m = 0 then (toF32Free 0x026 [x, y, c] ((f32 x).mul (.inf s)), false)
    else if s then (nanFree 0x026 [x, y, c], true)
    else match f32 x with
      | .fin xs xm xe =>
        if xm = 0 then (f32Zero xs, false)
        else (within ⟨2, 0⟩ ((Rl.ofF (.fin xs xm xe)).div (Rl.sqrt ⟨(m : Int), e⟩)) free, false)
      | .inf xs => (f32Inf xs, false)
      | .nan _ _ => (nanFree 0x026 [x, y, c], false)

/-- y × derivative of an activation at x: exact result and bound on finite operands (R122). -/
def gradExact (code : Nat) (x y : Rl) : Rl × Bound :=
  let one := Rl.one
  match code with
  | 0x019 => let g := x.sigmoid; (y.mul (g.mul (one.sub g)), ⟨4, 22⟩)
  | 0x01a => let t := x.tanh; (y.mul (one.sub (t.mul t)), ⟨4, 22⟩)
  | 0x01b => let g := x.sigmoid; (y.mul (g.add (x.mul (g.mul (one.sub g)))), ⟨4, 22⟩)
  | _ =>
    let t := (geluU x).tanh
    let du := geluC.mul (one.add ((Rl.ofInt 3).mul (geluK.mul (x.mul x))))
    let half : Rl := ⟨1, -1⟩
    (y.mul ((half.mul (one.add t)).add (half.mul (x.mul ((one.sub (t.mul t)).mul du)))), ⟨4, 21⟩)

/-- The limit of an activation's derivative at ±∞ (R123); where a negative derivative tends to 0, the sign of that zero is free. DESIGN CHOICE, safe (log 18). -/
def gradLimit (code : Nat) (s : Bool) (free : W32) : FVal :=
  if code = 0x01b || code = 0x01c then (if s then .fin free.msb 0 0 else .fin false 1 0) else .fin false 0 0

/-- Whether the derivative at a finite operand is negative; it is never 0 (R122, R123). -/
def gradNeg (code : Nat) (x : Rl) : Bool :=
  (code = 0x01b || code = 0x01c) && decide (x.n < 0) && (!x.below 3 || decide ((gradExact code x Rl.one).1.n < 0))

/-- A derivative stage (R122). -/
def gradStage (code : Nat) (x y free : W32) : W32 :=
  match f32 x, f32 y with
  | .nan _ _, _ => nanFree code [x, y]
  | _, .nan _ _ => nanFree code [x, y]
  | .inf s, b => toF32Free code [x, y] (b.mul (gradLimit code s free))
  | .fin s m e, .fin t k g =>
    let (a, bd) := gradExact code (Rl.ofF (.fin s m e)) (Rl.ofF (.fin t k g))
    within bd a free
  | .fin s m e, .inf t => f32Inf (t != gradNeg code (Rl.ofF (.fin s m e)))

/-- MIN and MAX: −0 below +0, NaN if either is NaN (R122). -/
def fmin (x y : W32) : W32 :=
  let a := f32 x
  let b := f32 y
  if a.isNan then nanFree 0x006 [x, y] else if b.isNan then nanFree 0x006 [x, y]
  else if a.lt b then x else if b.lt a then y else if a.neg then x else y

def fmax (x y : W32) : W32 :=
  let a := f32 x
  let b := f32 y
  if a.isNan then nanFree 0x007 [x, y] else if b.isNan then nanFree 0x007 [x, y]
  else if a.lt b then y else if b.lt a then x else if a.neg then y else x

/-- x limited to [−|y|, |y|]; the spec states no result for a NaN limit: a free value. DESIGN CHOICE, safe (log 18). -/
def fclamp (x y free : W32) : W32 :=
  let m := y &&& 0x7fffffff#32
  if (f32 x).isNan then nanFree 0x00a [x, y]
  else if (f32 y).isNan then free
  else if (f32 m).lt (f32 x) then m
  else if (f32 x).lt (f32 (m ||| 0x80000000#32)) then m ||| 0x80000000#32
  else x

/-- x × 2^k with k = y rounded to nearest even, limited to [−300, 300] (R122). -/
def ldexp (x y : W32) : W32 :=
  match f32 x, f32 y with
  | .nan _ _, _ => nanFree 0x040 [x, y]
  | _, .nan _ _ => nanFree 0x040 [x, y]
  | a, .inf s =>
    match a with
    | .fin t m e => toF32 (.fin t m (e + (if s then -300 else 300)))
    | w => toF32 w
  | a, .fin s m e =>
    let (p, q) := scaleFrac m 1 e
    let k := min (roundInt .rne p q) 300
    match a with
    | .fin t n g => toF32 (.fin t n (g + (if s then -(k : Int) else k)))
    | w => toF32 w

/-- 1.0 or +0. -/
def f32Bool (b : Bool) : W32 := if b then f32One else 0#32

/-- x > 0. -/
def fpos (x : W32) : Bool := (FVal.fin false 0 0).lt (f32 x)

/-- Codes the catalogue lists (R122). -/
def stageListed (c : Nat) : Bool :=
  (c ≤ 0x00d) || (0x010 ≤ c && c ≤ 0x016) || (0x018 ≤ c && c ≤ 0x01c) || (0x020 ≤ c && c ≤ 0x026) ||
  (0x030 ≤ c && c ≤ 0x035) || c = 0x040 || c = 0x041 || c = 0x050 || c = 0x051

/-- One element of a stage other than QDQ, LANE and GIDX: f(x, y) with T and C (R122); the flag is DOMAIN (R123). DESIGN CHOICE, safe (log 18). -/
def stageEval (code : Nat) (x y t c : W32) : W32 × Bool :=
  let free := Config.stageFree code x y t c
  match code with
  | 0x000 => (x, false)
  | 0x001 => (fadd x y, false)
  | 0x002 => (fsub x y, false)
  | 0x003 => (fsub y x, false)
  | 0x004 => (fmul x y, false)
  | 0x005 => (ffma t x y, false)
  | 0x006 => (fmin x y, false)
  | 0x007 => (fmax x y, false)
  | 0x008 => (x &&& 0x7fffffff#32, false)
  | 0x009 => (x ^^^ 0x80000000#32, false)
  | 0x00a => (fclamp x y free, false)
  | 0x00b => (y, false)
  | 0x00d => (divStage x y free, false)
  | 0x010 => (if fpos x then x else 0#32, false)
  | 0x011 => (if fpos x then x else fmul y x, false)
  | 0x018 => (if fpos x then y else 0#32, false)
  | 0x019 | 0x01a | 0x01b | 0x01c => (gradStage code x y free, false)
  | 0x026 => mulRsq x y c free
  | 0x030 => (f32Bool ((f32 x).eqv (f32 y)), false)
  | 0x031 => (f32Bool ((f32 x).lt (f32 y)), false)
  | 0x032 => (f32Bool ((f32 x).lt (f32 y) || (f32 x).eqv (f32 y)), false)
  | 0x033 => (if (f32 t).isZero then y else x, false)
  | 0x034 => (f32Bool (f32 x).isFinite, false)
  | 0x035 => (if (f32 x).isNan then y else x, false)
  | 0x040 => (ldexp x y, false)
  | _ => unaryStage code x free

/-- EXP2(t × LOG2 β) as the update unit forms β^t (R251). -/
def powStage (b : W32) (t : Nat) : W32 :=
  let l := (stageEval 0x023 b 0#32 0#32 0#32).1
  (stageEval 0x021 (fmul (intToF32 t) l) 0#32 0#32 0#32).1

end Sys2Proof.Machine
end

