-- ==== Sys2Proof/Machine/Slots.lean ====
section
/-! DEFINITION. The four slots of a bundle and their encodings (R42, R43, R47 to R54). A decoder answers `none` where a
slot that executes raises ILLEGAL_OP. -/

namespace Sys2Proof.Machine

/-- Two-source integer operations (R48). -/
inductive AluOp where
  | add | sub | and | or | xor | shl | shr | sra | mul | min | max
  deriving DecidableEq, Repr

/-- FP32 operations of the scalar slot (R48). -/
inductive FpOp where
  | fadd | fmul | fma
  deriving DecidableEq, Repr

/-- The scalar slot (R48). -/
inductive SOp where
  | nop
  | alu (op : AluOp) (rd rs1 rs2 : SReg)
  | addi (rd rs1 : SReg) (imm : BitVec 12)
  | li (rd : SReg) (imm : BitVec 17)
  | sli (rd : SReg) (imm : BitVec 16)
  | cmp (pd : PReg) (rs1 rs2 : SReg) (fn : BitVec 7)
  | cmpi (pd : PReg) (rs1 : Fin 16) (imm : BitVec 12) (fn : BitVec 3)
  | pop (pd pa pb : PReg) (fn : BitVec 4)
  | ld (rd rs1 : SReg) (imm : BitVec 12)
  | st (rd rs1 : SReg) (imm : BitVec 12)
  | fp (op : FpOp) (rd rs1 rs2 : SReg)
  | fcvt (rd rs1 : SReg) (fn : BitVec 7)
  | csrr (rd : SReg) (n : BitVec 12)
  | csrw (n : BitVec 12) (rs1 : SReg)
  | jmp (off : BitVec 22)
  | call (off : BitVec 22)
  | ret
  | loop (rs1 : SReg) (body : BitVec 12)
  | halt
  deriving DecidableEq, Repr

/-- The matrix slot (R50); `cfg` holds the format codes as encoded. -/
inductive MOp where
  | nop
  | cfg (fmta fmtb : BitVec 4) (sparse : BitVec 2)
  | bload (ag : AgId) (post : Option SemId) (kreg : SReg)
  | pass (ag : AgId) (bank acc : Bool) (post : Option SemId) (kreg : SReg)
  deriving DecidableEq, Repr

/-- The vector slot (R53). -/
inductive VOp where
  | nop
  | chain (rs : SReg) (post : Option SemId)
  | ld (vd : VReg) (ag : AgId)
  | st (vs : VReg) (ag : AgId)
  | acc (vd : VReg) (bank half : Bool) (row : Fin 32)
  | red (vd va : VReg) (fn : BitVec 4)
  | mvs (sd : SReg) (va : VReg) (idx : Fin 64)
  | spl (vd : VReg) (rs : SReg)
  | op (code : BitVec 9) (vd va vb : VReg)
  deriving DecidableEq, Repr

/-- Asynchronous operations of the move/sync slot that name a descriptor by register (R54). -/
inductive DKind where
  | xfer | imem | coll | gather | desc | scatter | flush | dispatch | collect
  deriving DecidableEq, Repr

/-- The move/sync slot (R54). -/
inductive DOp where
  | nop
  | async (k : DKind) (rs : SReg) (post : Option SemId)
  | copy (rsrc rdst rlen : SReg) (post : Option SemId)
  | agld (ag : AgId) (rs : SReg)
  | wait (sem : SemId) (n : BitVec 8)
  | post (sem : SemId) (n : BitVec 8)
  | postr (rv : SReg) (msem : Fin 16) (n : BitVec 8)
  | seg (rs : SReg)
  | commit
  deriving DecidableEq, Repr

/-- A bundle's four slots; `none` stands for an encoding that raises ILLEGAL_OP when its guard holds (R42, R47). -/
structure Bundle where
  sg : Guard
  s : Option SOp
  mg : Guard
  m : Option MOp
  vg : Guard
  v : Option VOp
  dg : Guard
  d : Option DOp
  deriving DecidableEq, Repr

/-- The guard that always holds: p0, not inverted. -/
def Guard.always : Guard := ⟨0, false⟩

/-- A bundle of four no-ops. -/
def Bundle.nops : Bundle :=
  { sg := Guard.always, s := some .nop, mg := Guard.always, m := some .nop, vg := Guard.always, v := some .nop,
    dg := Guard.always, d := some .nop }

/-- Field [hi:lo] of a slot word. -/
def fld (w hi lo : Nat) : Nat := bits w hi lo

def sregOf (n : Nat) : SReg := Fin.ofNat 32 n
def vregOf (n : Nat) : VReg := Fin.ofNat 64 n
def pregOf (n : Nat) : PReg := Fin.ofNat 8 n
def semOf (n : Nat) : SemId := Fin.ofNat 64 n
def agOf (n : Nat) : AgId := Fin.ofNat 4 n

/-- The guard of a slot word (R43). -/
def guardOf (w : Nat) : Guard := ⟨pregOf (fld w 31 29), bit w 28⟩

/-- An encoding whose listed-as-reserved bits must be 0 (R47). -/
def okIf {α : Type} (b : Bool) (x : α) : Option α := if b then some x else none

/-- Control register numbers a core lists (R78, R109, R129, R161, R230). DEDUCED, unsafe (log 7). -/
def csrListed (n : Nat) : Bool :=
  n ≤ 0x004 || (0x008 ≤ n && n ≤ 0x00a) || (0x010 ≤ n && n ≤ 0x013) || (0x040 ≤ n && n ≤ 0x089) ||
  (0x090 ≤ n && n ≤ 0x092) || (0x0c0 ≤ n && n ≤ 0x104) || (0x110 ≤ n && n ≤ 0x115)

/-- ALU operation of an opcode (R48). -/
def aluOf : Nat → Option AluOp
  | 0x01 => some .add | 0x02 => some .sub | 0x03 => some .and | 0x04 => some .or | 0x05 => some .xor
  | 0x06 => some .shl | 0x07 => some .shr | 0x08 => some .sra | 0x09 => some .mul | 0x0a => some .min
  | 0x0b => some .max | _ => none

/-- The checks of R47 on a typed scalar slot: listed functions, control registers and loop lengths. DEDUCED, unsafe (log 7). -/
def SOp.legal : SOp → Bool
  | .cmp _ _ _ fn => decide (fn.toNat ≤ 7)
  | .pop _ _ _ fn => decide (fn.toNat ≤ 3)
  | .fcvt _ _ fn => decide (fn.toNat ≤ 1)
  | .csrr _ n => csrListed n.toNat
  | .csrw n _ => csrListed n.toNat
  | .loop _ body => decide (body.toNat ≠ 0)
  | _ => true

/-- The scalar slot of a word (R48). DEDUCED, unsafe (log 4). -/
def decodeS (w : Nat) : Option SOp :=
  let rd := sregOf (fld w 21 17)
  let rs1 := sregOf (fld w 16 12)
  let rs2 := sregOf (fld w 11 7)
  let imm := BitVec.ofNat 12 w
  let fn := BitVec.ofNat 7 w
  let pd := pregOf (fld w 19 17)
  match fld w 27 22 with
  | 0x00 => some .nop
  | 0x10 => some (.addi rd rs1 imm)
  | 0x11 => some (.li rd (BitVec.ofNat 17 w))
  | 0x12 => okIf (!bit w 16) (.sli rd (BitVec.ofNat 16 w))
  | 0x14 => okIf (fld w 21 20 = 0) (.cmp pd rs1 rs2 fn)
  | 0x15 => some (.cmpi pd (Fin.ofNat 16 (fld w 15 12)) imm (BitVec.ofNat 3 (fld w 21 20 + 4 * fld w 16 16)))
  | 0x16 => okIf (fld w 21 20 = 0 && fld w 16 15 = 0 && fld w 11 10 = 0 && fld w 6 4 = 0)
      (.pop pd (pregOf (fld w 14 12)) (pregOf (fld w 9 7)) (BitVec.ofNat 4 w))
  | 0x18 => some (.ld rd rs1 imm)
  | 0x19 => some (.st rd rs1 imm)
  | 0x1c => okIf (fn = 0) (.fp .fadd rd rs1 rs2)
  | 0x1d => okIf (fn = 0) (.fp .fmul rd rs1 rs2)
  | 0x1e => okIf (fn = 0) (.fp .fma rd rs1 rs2)
  | 0x1f => okIf (rs2 = 0) (.fcvt rd rs1 fn)
  | 0x20 => okIf (rs1 = 0) (.csrr rd imm)
  | 0x21 => okIf (rd = 0) (.csrw imm rs1)
  | 0x28 => some (.jmp (BitVec.ofNat 22 w))
  | 0x29 => some (.call (BitVec.ofNat 22 w))
  | 0x2a => okIf (fld w 21 0 = 0) .ret
  | 0x2c => okIf (fld w 21 17 = 0) (.loop rs1 imm)
  | 0x30 => okIf (fld w 21 0 = 0) .halt
  | op => match aluOf op with
    | some a => okIf (fn = 0) (.alu a rd rs1 rs2)
    | none => none

/-- POST and SEM as an option (R50, R53, R54). -/
def postOf (p : Bool) (sem : Nat) : Option SemId := if p then some (semOf sem) else none

/-- `m.cfg` as a state, none for reserved combinations: reserved codes, INT8 with another format (R47, R84, R131). -/
def mcfgOf (fmta fmtb : BitVec 4) (sparse : BitVec 2) : Option MCfg :=
  match Fmt.ofCoreCode fmta.toNat, Fmt.ofCoreCode fmtb.toNat with
  | some a, some b =>
    if (a = .int8) ≠ (b = .int8) then none
    else some ⟨a, b, bit sparse.toNat 0, bit sparse.toNat 1⟩
  | _, _ => none

/-- The checks of R47 on a typed matrix slot. -/
def MOp.legal : MOp → Bool
  | .cfg a b sp => (mcfgOf a b sp).isSome
  | _ => true

/-- The matrix slot of a word (R50). DEDUCED, unsafe (log 4). -/
def decodeM (w : Nat) : Option MOp :=
  let post := postOf (bit w 17) (fld w 16 11)
  match fld w 27 22 with
  | 0x00 => some .nop
  | 0x01 => okIf (fld w 11 0 = 0)
      (.cfg (BitVec.ofNat 4 (fld w 21 18)) (BitVec.ofNat 4 (fld w 17 14)) (BitVec.ofNat 2 (fld w 13 12)))
  | 0x02 => okIf (fld w 19 18 = 0 && fld w 5 0 = 0) (.bload (agOf (fld w 21 20)) post (sregOf (fld w 10 6)))
  | 0x03 => okIf (fld w 5 0 = 0) (.pass (agOf (fld w 21 20)) (bit w 19) (bit w 18) post (sregOf (fld w 10 6)))
  | _ => none

/-- The checks of R47 on a typed vector slot. -/
def VOp.legal : VOp → Bool
  | .red _ _ fn => decide (fn.toNat ≤ 3)
  | .op code _ _ _ => stageListed code.toNat
  | _ => true

/-- The vector slot of a word (R53). DEDUCED, unsafe (log 4). -/
def decodeV (w : Nat) : Option VOp :=
  let vd := vregOf (fld w 21 16)
  let va := vregOf (fld w 15 10)
  match fld w 27 22 with
  | 0x00 => some .nop
  | 0x01 => okIf (fld w 9 0 = 0) (.chain (sregOf (fld w 21 17)) (postOf (bit w 16) (fld w 15 10)))
  | 0x02 => okIf (fld w 13 0 = 0) (.ld vd (agOf (fld w 15 14)))
  | 0x03 => okIf (fld w 13 0 = 0) (.st vd (agOf (fld w 15 14)))
  | 0x04 => okIf (fld w 13 5 = 0) (.acc vd (bit w 15) (bit w 14) (Fin.ofNat 32 (fld w 4 0)))
  | 0x05 => okIf (fld w 9 4 = 0) (.red vd va (BitVec.ofNat 4 w))
  | 0x06 => okIf (fld w 16 16 = 0 && fld w 9 6 = 0) (.mvs (sregOf (fld w 21 17)) va (Fin.ofNat 64 (fld w 5 0)))
  | 0x07 => okIf (fld w 10 0 = 0) (.spl vd (sregOf (fld w 15 11)))
  | op =>
    if 0x20 ≤ op then some (.op (BitVec.ofNat 9 ((op - 0x20) * 16 + fld w 3 0)) vd va (vregOf (fld w 9 4)))
    else none

/-- The descriptor operation of an opcode (R54). -/
def dkindOf : Nat → Option DKind
  | 0x01 => some .xfer | 0x04 => some .imem | 0x05 => some .coll | 0x10 => some .gather | 0x11 => some .desc
  | 0x12 => some .scatter | 0x13 => some .flush | 0x14 => some .dispatch | 0x15 => some .collect | _ => none

/-- The move/sync slot of a word (R54). DEDUCED, unsafe (log 4). -/
def decodeD (w : Nat) : Option DOp :=
  let rs := sregOf (fld w 21 17)
  let post := postOf (bit w 6) (fld w 5 0)
  let sem := semOf (fld w 21 16)
  let n := BitVec.ofNat 8 w
  match fld w 27 22 with
  | 0x00 => some .nop
  | 0x02 => some (.copy rs (sregOf (fld w 16 12)) (sregOf (fld w 11 7)) post)
  | 0x03 => okIf (fld w 19 17 = 0 && fld w 11 0 = 0) (.agld (agOf (fld w 21 20)) (sregOf (fld w 16 12)))
  | 0x20 => okIf (fld w 15 8 = 0) (.wait sem n)
  | 0x21 => okIf (fld w 15 8 = 0) (.post sem n)
  | 0x22 => okIf (fld w 16 16 = 0 && fld w 11 8 = 0) (.postr rs (Fin.ofNat 16 (fld w 15 12)) n)
  | 0x23 => okIf (fld w 16 0 = 0) (.seg rs)
  | 0x24 => okIf (fld w 21 0 = 0) .commit
  | op => match dkindOf op with
    | some k => okIf (fld w 16 7 = 0) (.async k rs post)
    | none => none

/-- The bundle of a 128-bit word: S in [31:0], M in [63:32], V in [95:64], D in [127:96] (R42). -/
def decodeBundle (b : W128) : Bundle :=
  let x := b.toNat
  let ws := bits x 31 0
  let wm := bits x 63 32
  let wv := bits x 95 64
  let wd := bits x 127 96
  { sg := guardOf ws, s := (decodeS ws).filter SOp.legal, mg := guardOf wm, m := (decodeM wm).filter MOp.legal,
    vg := guardOf wv, v := (decodeV wv).filter VOp.legal, dg := guardOf wd, d := decodeD wd }

end Sys2Proof.Machine
end

