-- ==== Sys2Proof/Syntax.lean ====
section
/-! DEFINITION. The commands of the block: one constructor per row of the opcode table, and the operand types they need. -/

namespace Sys2Proof

open Machine

/-- Who starts a collective: a `d.coll` slot of a core, or a queue processor by the same descriptor (R317). -/
inductive CollSrc where
  | core (c : CoreId) (g : Guard) (rs : SReg) (post : Option SemId)
  | qp (n : Nat) (desc : List Byte)
  deriving DecidableEq, Repr

/-- A register space: the device-register range (R372), reached over BAR0, by firmware or by the TAP, or the private space of
the MP (R443, R464, R490, R514). -/
inductive RegSpace where
  | bar0 | fw | priv
  deriving DecidableEq, Repr

/-- How training of a fabric port ended (R284): lanes that failed, port number and identity the far end sent. -/
structure PortTrain where
  badLanes : BitVec 8
  peerPort : Nat
  peer : W64
  linkOk : Bool
  deriving DecidableEq, Repr

/-- What training of a die-link module found (R353, R355, R360): lanes failing the per-lane test, whether clock, valid and
track lanes are usable, the parameters of the far end, whether the standard's steps ended well. -/
structure UcieTrain where
  ok : Bool
  bad : BitVec 64
  control : Bool
  farBad : BitVec 64
  farSide : Bool
  farEpoch : BitVec 16
  farHalf : Bool
  farHigrp : Bool
  afterPartial : Bool
  deriving DecidableEq, Repr

/-- What the checks of an accessory site found (R362). -/
structure AccFacts where
  trained : Bool
  partner : Bool
  code : Nat
  version : Nat
  infoOk : Bool
  windowGib : Nat
  tempInTime : Bool
  deriving DecidableEq, Repr

/-- What a start from P4 finds (R452, R453): whether REF100 is valid, pseudo-channels that fail HBM training, whether the Cellar dies came up, whether the
first and the second copy of the image matched its digests. DESIGN CHOICE, safe (log 49). -/
structure StartFacts where
  refOk : Bool
  celUp : Bool
  badChannels : List (Fin 1024)
  copy1 : Bool
  copy2 : Bool
  deriving DecidableEq, Repr

/-- What the cold phase finds: the fuses, PROM_ROOT_N as it is sampled, whether REF100 is valid (R19, R446, R448). -/
structure ColdFacts where
  fuses : Fuses
  root : Bool
  refOk : Bool
  deriving DecidableEq, Repr

/-- The end of a die-link retrain: whether it found lanes enough, and the last flit that the far end took in order (R357, R358). -/
structure RetrainEnd where
  ok : Bool
  last : Nat
  deriving DecidableEq, Repr

/-- What training of the J2 link finds: its rate, and whether HOST_REFCLK toggled at the release of PERST_N (R21, R454). -/
structure PcieRate where
  gen : Nat
  refclk : Bool
  deriving DecidableEq, Repr

/-- A reading of the coolant flow, and whether inlet and flow have stayed within the limits of R28 for 10 s (R29). -/
structure FlowFacts where
  rate : Nat
  long : Bool
  deriving DecidableEq, Repr

/-- What training of a cave port finds (R392, R393, R396). -/
structure CaveFacts where
  up : Bool
  width : Nat
  half : Bool
  type3 : Bool
  cache : Bool
  multi : Bool
  volatileMib : Nat
  decoders : Nat
  deriving DecidableEq, Repr

/-- What the TAP halts: a firmware processor or a core (R497). -/
inductive TapTarget where
  | proc (p : ProcId)
  | core (c : CoreId)
  deriving DecidableEq, Repr


/-- The commands: one constructor per row of the opcode table. Those without operands come last: Lean's compiler builds constructors with
fields only below tag 244. -/
inductive Instr where
  /-- BUNDLE_FETCH (R45): The sequencer fetches the bundle at the PC and issues its four slots together, or stalls
      the whole bundle. -/
  | bundleFetch (c : CoreId)
  /-- SLOT_NOP (R43): Opcode 0x00 in any slot completes with no effect. -/
  | slotNop (c : CoreId) (g : Guard)
  /-- S_ADD (R48): rd receives rs1 plus rs2. -/
  | sAdd (c : CoreId) (g : Guard) (rd : SReg) (rs1 : SReg) (rs2 : SReg)
  /-- S_SUB (R48): rd receives rs1 minus rs2. -/
  | sSub (c : CoreId) (g : Guard) (rd : SReg) (rs1 : SReg) (rs2 : SReg)
  /-- S_AND (R48): rd receives rs1 AND rs2. -/
  | sAnd (c : CoreId) (g : Guard) (rd : SReg) (rs1 : SReg) (rs2 : SReg)
  /-- S_OR (R48): rd receives rs1 OR rs2. -/
  | sOr (c : CoreId) (g : Guard) (rd : SReg) (rs1 : SReg) (rs2 : SReg)
  /-- S_XOR (R48): rd receives rs1 XOR rs2. -/
  | sXor (c : CoreId) (g : Guard) (rd : SReg) (rs1 : SReg) (rs2 : SReg)
  /-- S_SHL (R48): rd receives rs1 shifted left by rs2[5:0]. -/
  | sShl (c : CoreId) (g : Guard) (rd : SReg) (rs1 : SReg) (rs2 : SReg)
  /-- S_SHR (R48): rd receives rs1 shifted right logically by rs2[5:0]. -/
  | sShr (c : CoreId) (g : Guard) (rd : SReg) (rs1 : SReg) (rs2 : SReg)
  /-- S_SRA (R48): rd receives rs1 shifted right arithmetically by rs2[5:0]. -/
  | sSra (c : CoreId) (g : Guard) (rd : SReg) (rs1 : SReg) (rs2 : SReg)
  /-- S_MUL (R48): rd receives the low 64 bits of rs1 times rs2. -/
  | sMul (c : CoreId) (g : Guard) (rd : SReg) (rs1 : SReg) (rs2 : SReg)
  /-- S_MIN (R48): rd receives the signed minimum of rs1 and rs2. -/
  | sMin (c : CoreId) (g : Guard) (rd : SReg) (rs1 : SReg) (rs2 : SReg)
  /-- S_MAX (R48): rd receives the signed maximum of rs1 and rs2. -/
  | sMax (c : CoreId) (g : Guard) (rd : SReg) (rs1 : SReg) (rs2 : SReg)
  /-- S_ADDI (R48): rd receives rs1 plus the signed IMM12. -/
  | sAddi (c : CoreId) (g : Guard) (rd : SReg) (rs1 : SReg) (imm : BitVec 12)
  /-- S_LI (R48): rd receives the sign-extended IMM17. -/
  | sLi (c : CoreId) (g : Guard) (rd : SReg) (imm : BitVec 17)
  /-- S_SLI (R48): rd receives rd shifted left 16 ORed with IMM16. -/
  | sSli (c : CoreId) (g : Guard) (rd : SReg) (imm : BitVec 16)
  /-- S_CMP (R48): A predicate receives the comparison of rs1 and rs2 selected by FN. -/
  | sCmp (c : CoreId) (g : Guard) (pd : PReg) (rs1 : SReg) (rs2 : SReg) (fn : BitVec 7)
  /-- S_CMPI (R48): A predicate receives the comparison of rs1 against IMM12 selected by FN. -/
  | sCmpi (c : CoreId) (g : Guard) (pd : PReg) (rs1 : Fin 16) (imm : BitVec 12) (fn : BitVec 3)
  /-- S_POP (R48): A predicate receives a logical combination of two predicates. -/
  | sPop (c : CoreId) (g : Guard) (pd : PReg) (pa : PReg) (pb : PReg) (fn : BitVec 4)
  /-- S_LD (R48): rd receives 64 bits from the core store. -/
  | sLd (c : CoreId) (g : Guard) (rd : SReg) (rs1 : SReg) (imm : BitVec 12)
  /-- S_ST (R48): 64 bits of a register are stored to the core store. -/
  | sSt (c : CoreId) (g : Guard) (rd : SReg) (rs1 : SReg) (imm : BitVec 12)
  /-- S_FADD (R48): FP32 addition of two register low words into rd. -/
  | sFadd (c : CoreId) (g : Guard) (rd : SReg) (rs1 : SReg) (rs2 : SReg)
  /-- S_FMUL (R48): FP32 multiplication of two register low words into rd. -/
  | sFmul (c : CoreId) (g : Guard) (rd : SReg) (rs1 : SReg) (rs2 : SReg)
  /-- S_FMA (R48): FP32 fused multiply-add into rd. -/
  | sFma (c : CoreId) (g : Guard) (rd : SReg) (rs1 : SReg) (rs2 : SReg)
  /-- S_FCVT (R48): Conversion between signed 64-bit integer and FP32 selected by FN. -/
  | sFcvt (c : CoreId) (g : Guard) (rd : SReg) (rs1 : SReg) (fn : BitVec 7)
  /-- S_CSRR (R78): rd receives a core control register. -/
  | sCsrr (c : CoreId) (g : Guard) (rd : SReg) (n : BitVec 12)
  /-- S_CSRW (R78): A core control register is written from rs1. -/
  | sCsrw (c : CoreId) (g : Guard) (n : BitVec 12) (rs1 : SReg)
  /-- S_JMP (R48): The PC moves by a signed bundle offset. -/
  | sJmp (c : CoreId) (g : Guard) (off : BitVec 22)
  /-- S_CALL (R48): s31 receives the return address and the PC moves by an offset. -/
  | sCall (c : CoreId) (g : Guard) (off : BitVec 22)
  /-- S_RET (R48): The PC is set from s31. -/
  | sRet (c : CoreId) (g : Guard)
  /-- S_LOOP (R49): A loop entry is pushed to run the next END bundles rs1 times. -/
  | sLoop (c : CoreId) (g : Guard) (rs1 : SReg) (body : BitVec 12)
  /-- S_HALT (R227): The work item begins to end: the combiner flushes every remaining entry and halt waits for
      asynchronous operations. -/
  | sHalt (c : CoreId) (g : Guard)
  /-- WORK_ITEM_END (R227): The halted work item ends once every flush packet is acknowledged or timed out, and
      codes go to the queue processor. -/
  | workItemEnd (c : CoreId)
  /-- WORK_ITEM_DISPATCH (R75): A queue processor starts a work item on a core with its registers and semaphores
      initialised. -/
  | workItemDispatch (c : CoreId) (w : WorkItem)
  /-- M_CFG (R50): Sets the array formats and sparsity mode for later passes. -/
  | mCfg (c : CoreId) (g : Guard) (fmta : BitVec 4) (fmtb : BitVec 4) (sparse : BitVec 2)
  /-- M_BLOAD (R50): Queues a b-ring load of weights through an address generator. -/
  | mBload (c : CoreId) (g : Guard) (ag : AgId) (post : Option SemId) (kreg : SReg)
  /-- M_PASS (R50): Queues a pass over k-steps into an accumulator bank. -/
  | mPass (c : CoreId) (g : Guard) (ag : AgId) (bank : Bool) (keep : Bool) (post : Option SemId) (kreg : SReg)
  /-- PASS_FRONT_END_START (R93): A queued pass starts its front end once at the queue head and its predecessor's
      a-stream is done. -/
  | passFrontEndStart (c : CoreId)
  /-- ARRAY_ISSUE_SLOT (R108): In an ACLK the activity governor permits, the array issues a k-step of a pass or a
      whey step. -/
  | arrayIssueSlot (c : CoreId)
  /-- PASS_COMPLETE (R92): The pass's bank becomes readable and its completion post is applied. -/
  | passComplete (c : CoreId)
  /-- BLOAD_START (R89): A b-ring load starts after issue or after the previous load's last write. -/
  | bloadStart (c : CoreId)
  /-- BLOAD_SLOT_WRITE (R89): A load writes its next ring slot once ordering under R90 permits. -/
  | bloadSlotWrite (c : CoreId)
  /-- LEVEL_STEP (R108): Every 1,024 ACLK the array activity level rises, falls or holds by one. -/
  | levelStep (c : CoreId) (quiet : Bool)
  /-- TOPUP_DECREMENT (R433): Every 512 ns an active current top-up falls by one step and ends when it reaches the
      new format. -/
  | topupDecrement (c : CoreId)
  /-- V_CHAIN (R111): Queues a fused vector chain named by a descriptor. -/
  | vChain (c : CoreId) (g : Guard) (rs : SReg) (post : Option SemId)
  /-- V_LD (R53): A vector register receives the next access of an address-generator stream. -/
  | vLd (c : CoreId) (g : Guard) (vd : VReg) (ag : AgId)
  /-- V_ST (R53): A vector register is written to the next access of a stream. -/
  | vSt (c : CoreId) (g : Guard) (vs : VReg) (ag : AgId)
  /-- V_ACC (R53): A vector register receives half a row of an accumulator bank. -/
  | vAcc (c : CoreId) (g : Guard) (vd : VReg) (bank : Bool) (half : Bool) (r : Fin 32)
  /-- V_RED (R124): Element 0 of a register receives a tree reduction of another register. -/
  | vRed (c : CoreId) (g : Guard) (vd : VReg) (va : VReg) (fn : BitVec 4)
  /-- V_MVS (R53): A scalar register receives one element of a vector register. -/
  | vMvs (c : CoreId) (g : Guard) (sd : SReg) (va : VReg) (idx : Fin 64)
  /-- V_SPL (R53): Every element of a vector register receives a scalar. -/
  | vSpl (c : CoreId) (g : Guard) (vd : VReg) (rs : SReg)
  /-- V_OP (R122): A single catalogue stage is applied to two vector registers. -/
  | vOp (c : CoreId) (g : Guard) (code : BitVec 9) (vd : VReg) (va : VReg) (vb : VReg)
  /-- CHAIN_START (R120): A queued chain starts once its sources, bank and predecessors permit, reading its
      descriptor checks. -/
  | chainStart (c : CoreId)
  /-- CHAIN_COMPLETE (R121): A chain finishes its last write and reductions and applies its completion post. -/
  | chainComplete (c : CoreId)
  /-- XFER_COPY (R190): d.xfer with OP COPY moves rows from source to destination. -/
  | xferCopy (c : CoreId) (g : Guard) (rs : SReg) (post : Option SemId)
  /-- XFER_FILL (R188): d.xfer with OP FILL writes the FILL pattern to the destination. -/
  | xferFill (c : CoreId) (g : Guard) (rs : SReg) (post : Option SemId)
  /-- XFER_WBACK (R188): d.xfer with OP WBACK writes back dirty lines of the destination range. -/
  | xferWback (c : CoreId) (g : Guard) (rs : SReg) (post : Option SemId)
  /-- XFER_WARM (R188): d.xfer with OP WARM reads the source range into its home row caches. -/
  | xferWarm (c : CoreId) (g : Guard) (rs : SReg) (post : Option SemId)
  /-- XFER_COMPLETE (R190): A transfer completes, writes its status word and applies its completion post. -/
  | xferComplete (c : CoreId) (op : Nat)
  /-- D_COPY (R54): Starts a copy inside the core store, or raises ARG_RANGE. -/
  | dCopy (c : CoreId) (g : Guard) (rsrc : SReg) (rdst : SReg) (rlen : SReg) (post : Option SemId)
  /-- D_COPY_COMPLETE (R55): A core-store copy finishes and posts. -/
  | dCopyComplete (c : CoreId) (op : Nat)
  /-- D_AGLD (R518): Loads and checks an address-generator descriptor. -/
  | dAgld (c : CoreId) (g : Guard) (ag : AgId) (rs : SReg)
  /-- D_IMEM (R519): Checks a descriptor and starts loading instruction memory from HBM. -/
  | dImem (c : CoreId) (g : Guard) (rs : SReg) (post : Option SemId)
  /-- IMEM_LOAD_COMPLETE (R519): An instruction-memory load finishes, marking failed bundles, and posts. -/
  | imemLoadComplete (c : CoreId) (op : Nat)
  /-- ALLREDUCE (R319): Collective operation reducing all ranks' data onto every rank. -/
  | allreduce (src : CollSrc)
  /-- REDUCE_SCATTER (R319): Collective operation leaving each rank the reduction of its chunk. -/
  | reduceScatter (src : CollSrc)
  /-- ALLGATHER (R319): Collective operation giving every rank every rank's chunk. -/
  | allgather (src : CollSrc)
  /-- ALLTOALL (R319): Collective operation exchanging chunk k with rank k. -/
  | alltoall (src : CollSrc)
  /-- ALLTOALLV (R319): Collective all-to-all with per-chunk valid lengths, exchanging counts then data. -/
  | alltoallv (src : CollSrc)
  /-- PERMUTE (R339): Collective that stages sources then writes move entries to their targets. -/
  | permute (src : CollSrc)
  /-- MULTICAST (R319): Collective sending the root's data over a multicast group. -/
  | multicast (src : CollSrc)
  /-- BARRIER (R327): Collective combining barrier records over a communicator. -/
  | barrier (src : CollSrc)
  /-- SGATHER (R329): Collective gathering rows of a sharded tensor from their homes. -/
  | sgather (src : CollSrc)
  /-- COLL_COMPLETE (R323): A collective completes, writes its status record and posts. -/
  | collComplete (id : Nat)
  /-- E_GATHER (R207): Starts an embedding gather at the lead Cellar. -/
  | eGather (c : CoreId) (g : Guard) (rs : SReg) (post : Option SemId)
  /-- GATHER_COMPLETE (R207): A gather writes its outputs and response record and posts. -/
  | gatherComplete (c : CoreId) (op : Nat)
  /-- E_DESC (R198): Checks and writes a table descriptor into its slot and writes a status word. -/
  | eDesc (c : CoreId) (g : Guard) (rs : SReg) (post : Option SemId)
  /-- E_SCATTER (R222): Enters sparse gradient contributions into the combiner. -/
  | eScatter (c : CoreId) (g : Guard) (rs : SReg) (post : Option SemId)
  /-- SCATTER_COMPLETE (R227): A scatter writes its response record and posts. -/
  | scatterComplete (c : CoreId) (op : Nat)
  /-- E_FLUSH (R231): Drains combiner entries of the named tables into packets to their owners. -/
  | eFlush (c : CoreId) (g : Guard) (rs : SReg) (post : Option SemId)
  /-- FLUSH_COMPLETE (R233): A flush completes when every packet is acknowledged or timed out, writing its flush
      record. -/
  | flushComplete (c : CoreId) (op : Nat)
  /-- E_DISPATCH (R218): Starts routing token rows into per-expert buffers. -/
  | eDispatch (c : CoreId) (g : Guard) (rs : SReg) (post : Option SemId)
  /-- DISPATCH_COMPLETE (R218): Expert buffers and headers are visible and the dispatch posts. -/
  | dispatchComplete (c : CoreId) (op : Nat)
  /-- E_COLLECT (R219): Starts gathering gated expert outputs back into token rows. -/
  | eCollect (c : CoreId) (g : Guard) (rs : SReg) (post : Option SemId)
  /-- COLLECT_COMPLETE (R219): The collected token rows are written and the operation posts. -/
  | collectComplete (c : CoreId) (op : Nat)
  /-- Y_WAIT (R62): Issues once a semaphore reaches N and subtracts N. -/
  | yWait (c : CoreId) (g : Guard) (sem : SemId) (n : BitVec 8)
  /-- Y_POST (R62): Adds N to a semaphore. -/
  | yPost (c : CoreId) (g : Guard) (sem : SemId) (n : BitVec 8)
  /-- Y_POSTR (R64): Sends a remote post to a mailbox semaphore of another virtual core. -/
  | yPostr (c : CoreId) (g : Guard) (rv : SReg) (msem : Fin 16) (n : BitVec 8)
  /-- REMOTE_POST_DELIVER (R64): A remote post arrives at its target after the sender's earlier writes are
      visible. -/
  | remotePostDeliver (c : CoreId) (op : Nat)
  /-- Y_SEG (R67): Opens a replayable segment, snapshotting state and recording the rewind point. -/
  | ySeg (c : CoreId) (g : Guard) (rs : SReg)
  /-- Y_COMMIT (R70): After the segment's operations complete, commits, rewinds or faults SEG_LIMIT. -/
  | yCommit (c : CoreId) (g : Guard)
  /-- REWIND_ACC_CLEAR (R104): At a rewind, both banks are cleared once every pass issued before y.seg has
      completed. -/
  | rewindAccClear (c : CoreId)
  /-- CORE_STALL (R65): A y.wait stalled beyond SEM_STALL_LIMIT raises a logged core-stall event. -/
  | coreStall (c : CoreId) (sem : SemId)
  /-- CMB_CFG_WRITE (R230): A write to CMB_CFG waits for earlier combiner operations and is ignored if USED is not
      0. -/
  | cmbCfgWrite (c : CoreId) (g : Guard) (rs1 : SReg)
  /-- REGISTER_WRITE (R372): A write to a device or control register with no behaviour of its own updates the
      field. -/
  | registerWrite (sp : RegSpace) (off : Nat) (size : Nat) (x : W64)
  /-- HBM_WINDOW_END (R194): A counting window ends and HBM_IMBAL is updated, logging a hot window. -/
  | hbmWindowEnd (n : CelId) (ratio pc : Nat)
  /-- HBM_UNCORR (R468): An uncorrectable HBM read is handled according to its region kind. -/
  | hbmUncorr (addr : Nat)
  /-- HBM_CORRECTED_ERROR (R469): A corrected HBM error counts and may mark its pseudo-channel over threshold. -/
  | hbmCorrectedError (pc : Fin 1024) (past : Bool)
  /-- STORE_ECC (R466): An uncorrectable core-store error faults the core and the QP rewrites, restarts or fences. -/
  | storeEcc (c : CoreId) (word : Nat) (passes : Bool)
  /-- CS_CORRECTED_ERROR (R466): A corrected core-store error counts and may fence the core at the next boundary. -/
  | csCorrectedError (c : CoreId) (past : Bool)
  /-- CORE_HANG (R466): A core that answers no status read for 1 ms is fenced. -/
  | coreHang (c : CoreId)
  /-- GSUB (R209): A home Cellar reads and pools the rows of a gather sub-request. -/
  | gsub (remote : Bool) (k : Nat)
  /-- GPART (R207): The lead adds a partial response into its bags. -/
  | gpart (remote : Bool) (k : Nat)
  /-- FLUSH (R237): Press applies a gradient packet's entries into the step's gradient table. -/
  | flush (remote : Bool) (k : Nat)
  /-- FLUSH_ACK (R233): A packet acknowledgement with code and rejected count reaches the flushing core. -/
  | flushAck (remote : Bool) (k : Nat)
  /-- BANK_CLEAR_DONE (R241): A released bank's key index finishes clearing and waiting packets proceed. -/
  | bankClearDone (n : CelId) (bank : Fin 2)
  /-- WORKLIST_READY (R265): A sealed bank's key walk and sort finish and the embedding sweeps may start. -/
  | worklistReady (n : CelId)
  /-- UPDATE_TENSOR_START (R260): An update unit takes the next ready tensor and writes its journal record. -/
  | updateTensorStart (n : CelId)
  /-- UPD_SWEEP1 (R255): A group's new optimizer state is written and MTAG raised. -/
  | updSweep1 (n : CelId)
  /-- UPD_SWEEP2 (R255): A group's masters and working rows are written and WTAG raised. -/
  | updSweep2 (n : CelId)
  /-- UPDATE_STOP (R257): A stop request ends sweeps in flight and reports STOPPED. -/
  | updateStop (n : CelId)
  /-- JOURNAL_RECOVERY (R267): After a restart with HBM intact, interrupted updates are completed from their tags. -/
  | journalRecovery (n : CelId)
  /-- SCRUB_GROUP (R269): The drift scrub compares a group's working rows with their masters and rewrites
      mismatches. -/
  | scrubGroup (n : CelId)
  /-- COLL_JOIN (R321): A peer's join carrying parameters and initial credit arrives at an engine. -/
  | collJoin (k : Nat)
  /-- COLL_DATA (R319): A collective data packet is combined or written by the engine. -/
  | collData (k : Nat)
  /-- COLL_ACK (R322): Returned stream credit arrives at an engine. -/
  | collAck (k : Nat)
  /-- COLL_SHARD_REQUEST (R330): A home Cellar serves a shard request, granting or releasing a lease. -/
  | collShardRequest (remote : Bool) (k : Nat)
  /-- COLL_SHARD_REPLY (R329): A shard reply with UVER and rows arrives at the requester. -/
  | collShardReply (remote : Bool) (k : Nat)
  /-- LEASE_DEADLINE (R331): A lease entry reaches its deadline with COUNT above 0 and ends. -/
  | leaseDeadline (n : CelId) (table : Nat) (step : Nat)
  /-- COLL_JOIN_TIMEOUT (R320): Not every member joined within COLL_TIMEOUT; the collective ends with TIMEOUT. -/
  | collJoinTimeout (id : Nat)
  /-- STREAM_STALL (R343): No stream moved for STREAM_STALL; the youngest waiting stream is spilled. -/
  | streamStall (n : CelId) (room : Bool)
  /-- BACKWARD_CLOSE_BARRIER (R328): The backward-close barrier completes and the step fails or enters its update
      phase. -/
  | backwardCloseBarrier (govf : Bool) (fail : Bool)
  /-- STEP_END_BARRIER (R328): The step-end barrier completes, updating scale, telemetry, dirty bitmaps and
      serving boundary requests. -/
  | stepEndBarrier (govf : Bool) (ftz : Nat) (total : Nat)
  /-- MAP_SWITCH_REQUEST (R303): The queue processors request a map switch and injection stops. -/
  | mapSwitchRequest (map : Fin 8)
  /-- MAPSW_VOTE (R303): A vote arrives at a barrier-tree node, which votes upward once all children have. -/
  | mapswVote (k : Nat)
  /-- MAPSW_RELEASE (R303): A release switches the module to the new map and is replicated down the tree. -/
  | mapswRelease (k : Nat)
  /-- FAB_MAP_LOAD (R301): A route-map image is checked and copied into a slot on all Cellar dies. -/
  | fabMapLoad (x : W64)
  /-- FRAME_RX (R281): A port receives a frame, delivers it in order or discards it and NAKs, and takes ACK and
      credit. -/
  | frameRx (p : PortId) (f : Frame)
  /-- LANE_SIGNAL_FAIL (R283): A fabric lane fails its signal check and the port retrains. -/
  | laneSignalFail (p : PortId) (lane : Fin 8)
  /-- OPT_READY_RISE (R23): OPT_READY rises and the port starts training within 1 ms. -/
  | optReadyRise (p : PortId)
  /-- OPT_READY_FALL (R23): OPT_READY falls and the port goes DOWN or FAILED. -/
  | optReadyFall (p : PortId)
  /-- PORT_TRAINING_DONE (R284): Port training ends UP, HALF, MISCABLED or FAILED. -/
  | portTrainingDone (p : PortId) (res : PortTrain)
  /-- RETRAIN (R310): A write of RETRAIN to PORT_CTRL retrains the port at once. -/
  | retrain (p : PortId)
  /-- PACKET_FORWARD (R298): A packet is routed on its map, replicated, delivered or discarded. -/
  | packetForward (k : Nat)
  /-- RD_REQ (R287): A remote read request is served at its destination. -/
  | rdReq (site : Option AccId) (k : Nat)
  /-- RD_RESP (R289): Read data returns to the requester, or is discarded as late. -/
  | rdResp (k : Nat)
  /-- WR (R287): A remote write is applied at its destination and acknowledged. -/
  | wr (site : Option AccId) (k : Nat)
  /-- WR_ACK (R287): A write acknowledgement frees the requester's tags. -/
  | wrAck (k : Nat)
  /-- POST (R287): A remote post packet posts a mailbox semaphore of a virtual core. -/
  | post (k : Nat)
  /-- REQUEST_TIMEOUT (R289): A request unanswered within the fabric timeout completes UNREACH and its tags
      advance. -/
  | requestTimeout (k : Nat)
  /-- PROM_WALK_TIMEOUT (R293): A WALK not acknowledged within 1 ms ends that direction. -/
  | promWalkTimeout (axis : Axis) (dir : Fin 2)
  /-- UCIE_TRAIN_DONE (R353): A die-link module finishes training with lane repair and agreed width. -/
  | ucieTrainDone (m : Fin 288) (res : UcieTrain)
  /-- FLIT_RX (R351): A module receives a flit, delivering or discarding it with NAK. -/
  | flitRx (m : Fin 288) (f : Flit)
  /-- PHYRETRAIN_DONE (R357): A retrain ends in repair, half width, or FAILED with replay on a sibling. -/
  | phyretrainDone (m : Fin 288) (bad : BitVec 64) (r : RetrainEnd)
  /-- UCIE_L1_ENTRY (R354): In P2 a module idle for 1 µs enters L1. -/
  | ucieL1Entry (m : Fin 288)
  /-- DL_TEST (R367): A write to DL_TEST starts a loopback test on one module. -/
  | dlTest (x : W64)
  /-- PCIE_LINK_TRAIN (R454): The J2 link trains after VHUB is up and PERST_N is high. -/
  | pcieLinkTrain (width : Nat) (rate : PcieRate)
  /-- BAR4_READ (R374): A host read through BAR4 is served from the read buffer after earlier writes are visible. -/
  | bar4Read (off : Nat) (len : Nat)
  /-- BAR4_WRITE (R374): A host write through BAR4 reaches device memory and updates buffered lines. -/
  | bar4Write (off : Nat) (data : List Byte)
  /-- SQ_SLOT_WRITE (R376): A host write places entry bytes in a submission-queue slot. -/
  | sqSlotWrite (q : QId) (off : Nat) (data : List Byte)
  /-- TAIL_ECHO (R381): A read of TAIL_ECHO completes after earlier slot writes have landed. -/
  | tailEcho (q : QId)
  /-- DOORBELL (R382): A doorbell makes the device read entries up to TAIL, or is ignored or errors the queue. -/
  | doorbell (q : QId) (x : W64)
  /-- SQ_REREAD (R382): Every 1 µs an entry not yet visible is read again. -/
  | sqReread (q : QId)
  /-- SQ_STALLED (R382): An entry still not visible 100 µs after its doorbell stalls the queue. -/
  | sqStalled (q : QId)
  /-- RESUME_QUEUE (R395): SQ_CTRL.RESUME restarts reading a STALLED queue. -/
  | resumeQueue (q : QId)
  /-- RESET_QUEUE (R395): SQ_CTRL.RESET leaves ERROR, aborts unstarted entries and sets NEXT_SEQ. -/
  | resetQueue (q : QId) (seq : W32)
  /-- QUEUE_ENABLE (R380): Setting SQ_CFG.ENABLE enables a queue with fresh indices. -/
  | queueEnable (q : QId) (x : W64)
  /-- QUEUE_DISABLE (R380): Clearing SQ_CFG.ENABLE stops reads and aborts read unstarted entries. -/
  | queueDisable (q : QId)
  /-- CQ_HEAD (R386): The host reports progress, making room for further records. -/
  | cqHead (q : QId) (x : W64)
  /-- NOP (R378): Queue command with no effect. -/
  | qNop (q : QId) (seq : W32)
  /-- FENCE (R378): Queue command applying its VIS actions after every earlier entry completes. -/
  | qFence (q : QId) (seq : W32)
  /-- COPY_IN (R378): Queue command copying host memory into device memory. -/
  | qCopyIn (q : QId) (seq : W32)
  /-- COPY_OUT (R378): Queue command copying device memory to host memory. -/
  | qCopyOut (q : QId) (seq : W32)
  /-- FILL (R378): Queue command filling device memory with a pattern. -/
  | qFill (q : QId) (seq : W32)
  /-- BATCH (R419): Queue command handing a batch to a job input ring. -/
  | qBatch (q : QId) (seq : W32)
  /-- WAIT_STEP (R378): Queue command completing when the job reaches a step. -/
  | qWaitStep (q : QId) (seq : W32)
  /-- SQ_POST (R378): Queue command posting a mailbox semaphore of a VCID. -/
  | qPost (q : QId) (seq : W32)
  /-- COMMAND_COMPLETE (R388): A command's effects and VIS actions finish and its record enters the device ring. -/
  | commandComplete (q : QId) (seq : W32)
  /-- COMPLETION_WRITE (R386): A record is written to the host ring once there is room. -/
  | completionWrite (q : QId)
  /-- HOST_COMPLETION_TIMEOUT (R370): A host-memory request unanswered for 10 ms ends its transfer with HOST. -/
  | hostCompletionTimeout (w : ReqOwner)
  /-- CAVE_PORT_TIMEOUT (R392): A CXL.mem request unanswered for 2 ms makes the cave port FAILED. -/
  | cavePortTimeout (k : CaveId)
  /-- CXL_LINK_DOWN (R393): A cave link going down makes the port FAILED. -/
  | cxlLinkDown (k : CaveId)
  /-- WD_EXPIRY (R399): A watchdog expires, resetting its processor or holding it on a third expiry. -/
  | wdExpiry (p : ProcId)
  /-- PROC_RELOAD_DONE (R399): A reset processor finishes reloading and serves held requests. -/
  | procReloadDone (p : ProcId)
  /-- MBX_DOORBELL (R407): A mailbox doorbell submits the request message. -/
  | mbxDoorbell (x : W64) (cfg : Option JobConfig)
  /-- GET_INFO (R409): Mailbox request returning part, serial, revision and image details. -/
  | getInfo (ch : Chan) (m : MbxReq)
  /-- ATTACH (R391): Mailbox request resuming a session, starting a new one, or refused. -/
  | attach (ch : Chan) (m : MbxReq)
  /-- OP_STATUS (R409): Mailbox request returning an accepted operation's progress. -/
  | opStatus (ch : Chan) (m : MbxReq)
  /-- JOB_LOAD (R417): Mailbox request loading a job configuration. -/
  | jobLoad (ch : Chan) (m : MbxReq) (cfg : Option JobConfig)
  /-- JOB_PARK (R417): Mailbox request parking the job at a step boundary. -/
  | jobPark (ch : Chan) (m : MbxReq)
  /-- JOB_RESUME (R417): Mailbox request resuming a parked job. -/
  | jobResume (ch : Chan) (m : MbxReq)
  /-- JOB_ABORT (R417): Mailbox request aborting the job. -/
  | jobAbort (ch : Chan) (m : MbxReq)
  /-- JOB_STATUS (R409): Mailbox request returning job state, step and scale. -/
  | jobStatus (ch : Chan) (m : MbxReq)
  /-- EXPORT (R271): Mailbox request exporting working rows at a step boundary. -/
  | mbxExport (ch : Chan) (m : MbxReq)
  /-- IMPORT (R272): Mailbox request importing working rows and resetting masters and state. -/
  | mbxImport (ch : Chan) (m : MbxReq)
  /-- RESHARD (R338): Mailbox request re-sharding the job in place. -/
  | reshard (ch : Chan) (m : MbxReq) (cfg : Option JobConfig)
  /-- PROMO_RESET (R409): Mailbox request resetting PROMO of layers. -/
  | promoReset (ch : Chan) (m : MbxReq)
  /-- CKPT_FULL (R479): Mailbox request for a full checkpoint at the next boundary. -/
  | ckptFull (ch : Chan) (m : MbxReq)
  /-- PROMENADE (R293): Mailbox request running the promenade from the root. -/
  | promenade (ch : Chan) (m : MbxReq)
  /-- LINK_TEST (R366): Mailbox request running a die-link loopback test. -/
  | linkTest (ch : Chan) (m : MbxReq)
  /-- TRACE_SET (R413): Mailbox request setting or clearing trace points. -/
  | traceSet (ch : Chan) (m : MbxReq)
  /-- LOG_INFO (R409): Mailbox request returning log ring base, head and suppression count. -/
  | logInfo (ch : Chan) (m : MbxReq)
  /-- LOG_MARK (R415): Mailbox request writing a HOST_MARK record with the host stamp. -/
  | logMark (ch : Chan) (m : MbxReq)
  /-- COLD_RESET_RELEASE (R446): Cold reset ends and the cold phase verifies and selects an image, ending in P4. -/
  | coldResetRelease (f : ColdFacts)
  /-- OVERVOLTAGE (R26): Input above the overvoltage stop puts the module in P4. -/
  | overvoltage (mv : Nat)
  /-- SAG (R438): Input below 44 V for 0.5 µs starts ride-through in P1. -/
  | sag (mv : Nat)
  /-- SAG_END (R438): Input at or above 45 V for 1 ms ends the sag. -/
  | sagEnd (mv : Nat) (dur : Nat)
  /-- RIDE_THROUGH_EXPIRY (R438): A sag lasting 2 ms starts the protect sequence. -/
  | rideThroughExpiry (mv : Nat)
  /-- PROTECT_CORE_DEADLINE (R440): After 200 µs a core still running is stopped and its work item fails. -/
  | protectCoreDeadline (c : CoreId)
  /-- PROTECT_FLUSH_END (R440): The protect flush ends done or at 40 ms and the module enters P3 or P4. -/
  | protectFlushEnd (done : Bool)
  /-- CLOCK_LOSS (R425): A root PLL loses lock or REF100 leaves range, and the Hub enters P4. -/
  | clockLoss (die : Nat) (cause : Nat)
  /-- COOLANT (R29): Coolant outside R28 limits for 100 ms requires P1 or P3. -/
  | coolant (inlet : Nat) (flow : Nat)
  /-- COOLANT_RECOVER (R29): Coolant back within limits for 1 s or 10 s clears its requirement. -/
  | coolantRecover (inlet : Nat) (flow : FlowFacts)
  /-- COOLANT_LOW (R29): Inlet below 18 °C for 100 ms is logged and reported. -/
  | coolantLow (inlet : Nat)
  /-- DIE_TEMP (R29): A die or HBM stack at its throttle temperature requires P1. -/
  | dieTemp (sensor : Nat) (reading : Nat)
  /-- DIE_TEMP_RECOVER (R29): A die or stack falling below its release temperature clears its requirement. -/
  | dieTempRecover (sensor : Nat) (reading : Nat)
  /-- TRIP (R29): A thermal trip removes rails, enters P4 and drives THERM_TRIP_N low. -/
  | trip (sensor : Nat) (reading : Nat)
  /-- GOVERNOR_TICK (R435): Every 100 µs the governor updates its energy bucket and CAP_CEIL. -/
  | governorTick (watts : Nat)
  /-- P2_DELAY_EXPIRY (R428): A Vat die without work for PWR_P2_DELAY has its ACLK gated. -/
  | p2DelayExpiry (v : VatId)
  /-- START_FROM_P4 (R453): Once every condition of R452 holds the module powers, trains and zero-writes HBM. -/
  | startFromP4 (f : StartFacts)
  /-- READINESS_EVALUATE (R457): After the last start step the module becomes ready or fails the start. -/
  | readinessEvaluate (ms : Nat)
  /-- VAT_DIE_RESET (R463): A QP-requested reset of a Vat die runs at a step boundary. -/
  | vatDieReset (v : VatId)
  /-- VAT_RESET_DONE (R463): The die reset finishes, or fails after 20 ms, and dispatch resumes. -/
  | vatResetDone (ok : Bool)
  /-- CKPT_DATA (R476): A buddy checkpoint DATA packet is written into the reserve or refused. -/
  | ckptData (k : Nat)
  /-- CKPT_ACK (R475): A checkpoint acknowledgement arrives, completing a buddy copy. -/
  | ckptAck (k : Nat)
  /-- HOLD (R482): A HOLD raises EPOCH, fails or commits the step, and sends STATE. -/
  | ckptHold (k : Nat)
  /-- STATE (R482): Job rank 0 collects recovery records and sends GO when all are held. -/
  | ckptState (k : Nat)
  /-- GO (R483): A member restores to step T with the chosen scale state. -/
  | ckptGo (k : Nat)
  /-- I3C_ENTDAA (R450): The I3C target takes a dynamic address. -/
  | i3cEntdaa (addr : Nat)
  /-- SMBUS_ARP (R451): The SMBus target takes an address by ARP. -/
  | smbusArp (addr : Nat)
  /-- SET_ENDPOINT_ID (R451): The bus owner sets the MCTP endpoint ID. -/
  | setEndpointId (eid : Nat)
  /-- GET_SENSOR_READING (R508): The controller reads a PLDM sensor. -/
  | getSensorReading (sensor : Nat)
  /-- SET_NUMERIC_EFFECTER_VALUE (R509): A numeric effecter writes PWR_CFG or is refused out of range. -/
  | setNumericEffecter (id : Nat) (v : Nat)
  /-- SET_STATE_EFFECTER_STATES (R509): The standby effecter writes PWR_REQ. -/
  | setStateEffecter (id : Nat) (v : Nat)
  /-- REQUEST_UPDATE (R512): A firmware update starts, or is refused if one is running. -/
  | requestUpdate (len : Nat)
  /-- REQUEST_FIRMWARE_DATA (R511): A block of image data arrives and is programmed; after the last the SP
      verifies. -/
  | requestFirmwareData (data : List Byte)
  /-- QUOTE (R501): Security message returning a signed attestation quote. -/
  | quote (nonce : BitVec 256)
  /-- DEBUG_SET (R498): Security message lowering or raising the debug level. -/
  | debugSet (level : Nat) (token : List Byte)
  /-- LIFECYCLE (R494): Security message requesting a lifecycle transition. -/
  | lifecycle (target : Nat) (token : List Byte)
  /-- FLOOR_RAISE (R496): Security message raising the version floor. -/
  | floorRaise (e : Nat) (token : List Byte)
  /-- LOG_READ (R504): Security message returning log ring entries. -/
  | logRead (pos : Nat) (count : Nat)
  /-- SAMPLE_PRELOAD (R497): TAP instruction sampling or preloading boundary scan. -/
  | tapSamplePreload (pins : List Bool) (load : Option (List Bool))
  /-- REG_READ (R497): TAP instruction reading device registers. -/
  | tapRegRead (sp : RegSpace) (off : Nat) (size : Nat)
  /-- MEM_READ (R497): TAP instruction reading memory. -/
  | tapMemRead (addr : Nat) (len : Nat)
  /-- TRACE_READ (R497): TAP instruction reading trace data. -/
  | tapTraceRead (count : Nat)
  /-- HALT (R497): TAP instruction halting a processor or core. -/
  | tapHalt (t : TapTarget)
  /-- RESUME (R497): TAP instruction resuming a halted processor or core. -/
  | tapResume (t : TapTarget)
  /-- STEP (R497): TAP instruction single-stepping a halted processor or core. -/
  | tapStep (t : TapTarget)
  /-- REG_WRITE (R497): TAP instruction writing device registers. -/
  | tapRegWrite (sp : RegSpace) (off : Nat) (size : Nat) (x : W64)
  /-- MEM_WRITE (R497): TAP instruction writing memory. -/
  | tapMemWrite (addr : Nat) (data : List Byte)
  /-- FLASH (R499): TAP instruction reading or writing the boot flash. -/
  | tapFlash (off : Nat) (len : Nat) (data : Option (List Byte))
  /-- CAVE_PWR_OK_FALL (R22): CAVE_PWR_OK falls on a cave port, so the port is treated as absent, CXL_PERST_N is
      asserted and the protect flush no longer writes to it. -/
  | cavePwrOkFall (k : CaveId)
  /-- CAVE_PORT_TRAINING_DONE (R392): After CXL_PERST_N release a cave port finds its expander ready, trains or is
      refused, has its HDM decoders programmed, and CAVE_SIZE is fixed. -/
  | cavePortTrainingDone (k : CaveId) (f : CaveFacts)
  /-- HOLDUP_OK (R439): The holdup store recharges to at least 90 %, HOLDUP_OK becomes 1, and a start from P4
      waiting on it may switch VCORE on. -/
  | holdupOk (energy : Nat)
  /-- DETACH (R306): A detach notice makes the multicast source send catch-up data to the child. -/
  | detach (k : Nat)
  /-- PROM_WALK (R294): A WALK record sets the module's offset and is forwarded or ended. -/
  | promWalk (k : Nat)
  /-- PROM_END (R294): An END record reaches a line's origin, which computes the line size. -/
  | promEnd (k : Nat)
  /-- PROM_SET (R294): A SET record gives the module its coordinate and starts the next axis walk. -/
  | promSet (k : Nat)
  /-- PROM_REPORT (R294): A line-size report reaches the root, which checks shape and sends DONE. -/
  | promReport (k : Nat)
  /-- PROM_DONE (R295): DONE writes FAB_ADDR, dimensions, map 0 and HOP_LIMIT. -/
  | promDone (k : Nat)
  /-- PROM_ASK (R297): A neighbour with a valid FADDR answers an ASK. -/
  | promAsk (k : Nat)
  /-- PROM_ASK_ANSWER (R297): A joining module derives its coordinates from ASK answers. -/
  | promAskAnswer (k : Nat)
  /-- ACC_ADMISSION (R362): The Hub admits or refuses a partner die after training and checks. -/
  | accAdmission (site : AccId) (f : AccFacts)
  /-- PARTNER_CMD_TIMEOUT (R363): A command to a partner die unanswered for 100 µs completes UNREACH. -/
  | partnerCmdTimeout (c : CoreId) (op : Nat)
  /-- PARTNER_TEMP_LOSS (R363): A partner die silent for 10 ms is treated as a thermal trip. -/
  | partnerTempLoss (site : AccId)
  /-- PARTNER_OVERPOWER (R36): A partner die above its power for 10 ms has its rails removed. -/
  | partnerOverpower (site : AccId)
  /-- LOOP_TEST_END (R366): A loopback test ends, reports errors and retrains the module. -/
  | loopTestEnd (errs : List Nat) (margin : Nat) (res : UcieTrain)
  /-- CXL_EVENT (R393): Firmware reads an expander event record and logs it. -/
  | cxlEvent (k : CaveId) (data : List Byte)
  /-- OVERVOLTAGE_RECOVERY (R25): Input held at or below 59 V for 100 ms clears the overvoltage stop. -/
  | overvoltageRecovery
  /-- IEEE_1500_ACCESS (R365): TAP access to a die's IEEE 1500 wrappers over the sideband. -/
  | tapIeee1500 (die : Nat)
  /-- STAND_ALONE_TEST_MODE (R365): TAP instruction placing a die in stand-alone test mode. -/
  | tapStandAlone (die : Nat)
  /-- RESTORE_COMPLETE (R483): A restore to step T finishes rewriting groups from the cave base, deltas or buddy,
      and the module sets STEP to T + 1 and runs. -/
  | restoreComplete
  /-- MEM_COMMIT (R193): Applies the memory configuration shadow after the region checks. -/
  | memCommit
  /-- START_BARRIER_DONE (R417): Every member has loaded and the job becomes RUNNING. -/
  | startBarrierDone
  /-- STEP_START (R420): The leader claims batches and starts a step, raising STEP, invalidating replicas and
      splitting micro-batches. -/
  | stepStart
  /-- MAP_SWITCH_DRAINED (R303): All packets under the old map are answered and the module votes. -/
  | mapSwitchDrained
  /-- MAPSW_TIMEOUT (R304): A switch not released within MAPSW_TO leaves the module on its map with MAPSW_FAIL. -/
  | mapswTimeout
  /-- FAB_COMMIT (R309): The fabric configuration shadow is applied. -/
  | fabCommit
  /-- PROMENADE_TIMEOUT (R296): No DONE within 10 s of port training ends the promenade with TIMEOUT. -/
  | promenadeTimeout
  /-- PERST_ASSERT (R389): PERST_N asserted detaches the session. -/
  | perstAssert
  /-- DLL_DOWN (R389): The PCIe data-link layer goes down and the session detaches. -/
  | dllDown
  /-- FUNCTION_LEVEL_RESET (R389): A Function Level Reset detaches the session. -/
  | functionLevelReset
  /-- BUS_MASTER_ENABLE_CLEARED (R389): Bus Master Enable cleared detaches the session. -/
  | busMasterEnableCleared
  /-- D3HOT_ENTRY (R430): Entry into D3hot detaches the session. -/
  | d3hotEntry
  /-- HEARTBEAT_EXPIRY (R389): No heartbeat within HB_TIME detaches the session. -/
  | heartbeatExpiry
  /-- HIF_HEARTBEAT (R394): A write restarts the heartbeat time. -/
  | hifHeartbeat
  /-- BAR4_SYNC (R388): A read of BAR4_SYNC invalidates the host read buffer. -/
  | bar4Sync
  /-- HIF_HFENCE (R388): A read of HIF_HFENCE completes after earlier host-memory writes. -/
  | hifHfence
  /-- SUPPRESS (R413): At the end of each millisecond a SUPPRESS record reports records beyond the limit. -/
  | suppress
  /-- INPUT_APPLIED (R445): J1 reaches 45 V and the management rail comes up. -/
  | inputApplied
  /-- MOD_RESET_N_FALL (R27): MOD_RESET_N falls and the module enters P4 without protect. -/
  | modResetNFall
  /-- PWR_EN_FALL (R27): PWR_EN falls, running the protect sequence at once and entering P4. -/
  | pwrEnFall
  /-- PWR_EN_RISE (R26): PWR_EN rises, permitting start-up beyond P4. -/
  | pwrEnRise
  /-- HOLDUP_EXHAUSTED (R441): With input below 30 V the holdup store runs out and the module enters P5. -/
  | holdupExhausted
  /-- PWR_REQ_STANDBY (R443): A management request puts the module in P3. -/
  | pwrReqStandby
  /-- PWR_REQ_RESUME (R443): A management request leaves P3. -/
  | pwrReqResume
  /-- P3_RETURN (R428): With its cause cleared the module returns from P3 to P0, resetting the Vat dies. -/
  | p3Return
  /-- START_STEP_TIMEOUT (R453): A start step exceeding its bound fails the start with TIMEOUT. -/
  | startStepTimeout
  /-- PORTS_SETTLED (R455): Fabric ports settle and the module sends ASK or runs the promenade. -/
  | portsSettled
  /-- ASK_TIMEOUT (R455): No ASK answer within 1 ms: the root runs the promenade, others wait. -/
  | askTimeout
  /-- DELTA_COMPLETE (R475): A delta's END entry is written back and the header records NEWEST. -/
  | deltaComplete
  /-- DELTA_MERGE_DONE (R478): An old delta has been merged into the base and freed. -/
  | deltaMergeDone
  /-- I3C_RSTDAA (R450): The I3C dynamic address is reset. -/
  | i3cRstdaa
  /-- POLL_FOR_PLATFORM_EVENT_MESSAGE (R510): The controller fetches a queued sensor or state event. -/
  | pollEvent
  /-- ACTIVATE_FIRMWARE (R511): Activation is reported as needing a cold start. -/
  | activateFirmware
  /-- CANCEL_UPDATE (R512): An update is cancelled, leaving the written image invalid. -/
  | cancelUpdate
  /-- GET_ID (R504): Security message returning identity, lifecycle, level and index state. -/
  | getId
  /-- CHALLENGE (R505): Security message returning a fresh nonce. -/
  | challenge
  /-- LIFECYCLE_COMPLETE (R494): The fuses of a transition are blown and a warm start follows. -/
  | lifecycleComplete
  /-- BYPASS (R497): TAP instruction selecting the bypass register. -/
  | tapBypass
  /-- IDCODE (R497): TAP instruction returning the identification code. -/
  | tapIdcode
  /-- EXTEST (R497): TAP instruction driving boundary scan, accepted only in P4. -/
  | tapExtest
  /-- EXPORT_COMPLETE (R271): An accepted export finishes writing its tables to host memory and its outcome is
      written as an OP_DONE record. -/
  | exportComplete
  /-- IMPORT_COMPLETE (R272): An accepted import finishes writing working rows, masters and zeroed state and its
      outcome is written as an OP_DONE record. -/
  | importComplete
  deriving DecidableEq, Repr

end Sys2Proof
end

