-- ==== Sys2Proof/Machine/Flags.lean ====
section
/-! DEFINITION. Status words and control registers of a core (R78, R109, R129, R161, R230), the overflow flag (R142, R161)
and the telemetry counts (R157 to R160). -/

namespace Sys2Proof.Machine

/-- A bit at a position of a word. -/
def bitAt (b : Bool) (i : Nat) : Nat := if b then 2 ^ i else 0

/-- CORE_STATUS (R78). -/
def Core.status (c : Core) : W64 :=
  BitVec.ofNat 64 <|
    bitAt c.ctl.run 0 + bitAt c.ctl.waiting 1 + bitAt c.seg.isOpen 2 + 2 ^ 3 * (c.seg.replays % 4) +
    2 ^ 5 * (c.seg.fmtOvr % 4) + bitAt c.ctl.semOvf 8 + bitAt c.ctl.wconflict 9 + bitAt c.ctl.fault 10 +
    2 ^ 16 * c.seg.id.toNat + 2 ^ 32 * (c.regs.pc % 2 ^ 14) + 2 ^ 48 * (c.ctl.faultCode % 256)

/-- What the array did in the previous ACLK: at LEVEL 64 what the last slot did, at LEVEL 0 nothing, between them freely either (R108, R109). DESIGN CHOICE, safe (log 97). -/
def ArrSt.lastSlot (a : ArrSt) (b : Bool) (fr : Nat) : Bool :=
  b && decide (a.level ≠ 0) && (decide (a.level = 64) || (Config.fresh fr).getLsbD 0)

/-- ARR_STATUS (R109); `fr` names the free value of ACTIVE and WHEY. -/
def Core.arrStatus (c : Core) (fr : Nat) : W64 :=
  let a := c.arr
  BitVec.ofNat 64 <|
    min a.passes.length 4 + 2 ^ 3 * min a.loads.length 2 + bitAt (a.lastSlot a.active fr) 5 + bitAt (a.lastSlot a.whey fr) 6 + 2 ^ 7 * (a.level % 128) +
    bitAt a.emptyRead 14 + bitAt a.kclamp 15 + bitAt a.fmtmix 16 + bitAt a.underrun 17

/-- VEC_STATUS (R129). -/
def Core.vecStatus (c : Core) : W64 :=
  let v := c.vec
  BitVec.ofNat 64 <|
    min v.chains.length 4 + bitAt (v.chains.any fun ch => ch.out.isSome) 3 + 2 ^ 4 * (v.ofmtLast % 16) +
    bitAt v.domain 8 + bitAt v.nanOut 9 + bitAt v.span 10 + bitAt v.noraise 11 + bitAt v.underrun 12

/-- NUM_STATUS (R161). -/
def Core.numStatus (c : Core) : W64 :=
  let n := c.num
  BitVec.ofNat 64 <|
    bitAt n.segovf 0 + bitAt n.ovfChain 1 + bitAt n.ovfAcc 2 + 2 ^ 3 * (n.ovfFmt % 16) + bitAt n.sticky 8 +
    bitAt n.shadowDis 9

/-- CMB_STATUS (R230). -/
def Core.cmbStatus (c : Core) : W64 := BitVec.ofNat 64 (c.cmb.entries.length % 2 ^ 13 + bitAt c.cmb.cfgRej 13)

/-- Entries of the telemetry buffer in use: the pairs counted outside the segment and those held for it (R158, R160). -/
def NumSt.inUse (n : NumSt) : Nat :=
  n.buf.length + (n.held.filter fun h => !n.buf.any fun b => b.layer = h.layer && b.fmt = h.fmt).length

/-- TEL_PEND (R161). -/
def Core.telPend (c : Core) : W64 := BitVec.ofNat 64 (c.num.inUse % 32 + 2 ^ 5 * (c.num.held.length % 32))

/-- What a core sees of its job: the shadow settings and scale state (R147, R155, R161), the layer table (R146), the
ceiling of LEVEL (R108), the counter of free values. -/
structure CoreEnv where
  shadowPeriod : Nat
  shadowThr : Nat
  promoMin : Nat
  scaleExp : Nat
  probe : Bool
  phase : Nat → Nat
  noshadow : Nat → Bool
  ceiling : Nat
  free : Nat

/-- A count of ACLK: at least what the model has counted (for CYCLE, what the last `s.csrr` read); the rest is free. DESIGN CHOICE, safe (log 9). -/
def aclkCount (n : W64) (fr : Nat) : W64 := n + BitVec.ofNat 64 ((Config.fresh fr).toNat % 2 ^ 48)

/-- Reading control register `n` (R78, R109, R129, R161, R230); CYCLE and the counts of conflicts are free values. DESIGN CHOICE, safe (log 9). -/
def Core.csrRead (c : Core) (env : CoreEnv) (n : Nat) : W64 :=
  if n = 0x000 then c.status
  else if n = 0x001 then c.ctl.vcid
  else if n = 0x002 then c.ctl.vcount
  else if n = 0x003 then c.ctl.mapEpoch
  else if n = 0x004 then c.ctl.step
  else if n = 0x008 then BitVec.ofNat 64 (bitAt c.num.round 0)
  else if n = 0x009 then c.num.lfsrSeed
  else if n = 0x00a then aclkCount c.ctl.cycle env.free
  else if 0x010 ≤ n ∧ n ≤ 0x013 then
    let g := c.ags[agOf (n - 0x010)]
    BitVec.ofNat 64 (bitAt g.active 0 + 2 * g.remaining)
  else if 0x040 ≤ n ∧ n ≤ 0x07f then (c.regs.sem[semOf (n - 0x040)]).setWidth 64
  else if n = 0x080 then c.arr.mxsA.setWidth 64
  else if n = 0x081 then c.arr.mxsB.setWidth 64
  else if n = 0x082 then c.arr.spxB.setWidth 64
  else if n = 0x083 then c.arr.rowmask.setWidth 64
  else if n = 0x084 then c.arrStatus env.free
  else if n = 0x085 then BitVec.ofNat 64 (bitAt c.arr.warm 0)
  else if n = 0x086 then c.arr.ksteps
  else if n = 0x087 then c.arr.kskip
  else if n = 0x088 then c.arr.wheyCyc
  else if n = 0x089 then aclkCount c.arr.stallCyc env.free
  else if n = 0x090 then c.vecStatus
  else if n = 0x091 then c.vec.elems
  else if n = 0x092 then aclkCount c.vec.stallCyc env.free
  else if 0x0c0 ≤ n ∧ n ≤ 0x0ff then (Cells.get c.regs.rb (n - 0x0c0)).setWidth 64
  else if n = 0x100 then c.numStatus
  else if n = 0x101 then BitVec.ofNat 64 c.num.telLayer
  else if n = 0x102 then
    BitVec.ofNat 64 (env.shadowPeriod % 2 ^ 16 + 2 ^ 16 * (env.shadowThr % 16) + 2 ^ 20 * (env.promoMin % 256))
  else if n = 0x103 then BitVec.ofNat 64 (env.scaleExp % 64 + bitAt env.probe 6)
  else if n = 0x104 then c.telPend
  else if n = 0x110 then c.cmb.cfg
  else if n = 0x111 then c.cmbStatus
  else if n = 0x112 then c.cmb.merged
  else if n = 0x113 then c.cmb.sent
  else if n = 0x114 then c.cmb.auto
  else if n = 0x115 then c.cmb.discard
  else 0#64

/-- Writing control register `n`: RW fields take the value, W1C bits clear, RO registers ignore it (R8, R78). -/
def Core.csrWrite (c : Core) (n : Nat) (x : W64) : Core :=
  let b := fun (i : Nat) (old : Bool) => old && !(x.getLsbD i)
  if n = 0x000 then
    { c with ctl := { c.ctl with semOvf := b 8 c.ctl.semOvf, wconflict := b 9 c.ctl.wconflict } }
  else if n = 0x008 then { c with num := { c.num with round := x.getLsbD 0 } }
  else if n = 0x009 then { c with num := { c.num with lfsrSeed := x, lfsrPos := 0 } }
  else if n = 0x080 then { c with arr := { c.arr with mxsA := x.setWidth 22 } }
  else if n = 0x081 then { c with arr := { c.arr with mxsB := x.setWidth 22 } }
  else if n = 0x082 then { c with arr := { c.arr with spxB := x.setWidth 22 } }
  else if n = 0x083 then { c with arr := { c.arr with rowmask := x.setWidth 32 } }
  else if n = 0x084 then
    { c with arr := { c.arr with emptyRead := b 14 c.arr.emptyRead, kclamp := b 15 c.arr.kclamp,
                                 fmtmix := b 16 c.arr.fmtmix, underrun := b 17 c.arr.underrun } }
  else if n = 0x085 then { c with arr := { c.arr with warm := x.getLsbD 0 } }
  else if n = 0x090 then
    { c with vec := { c.vec with domain := b 8 c.vec.domain, nanOut := b 9 c.vec.nanOut, span := b 10 c.vec.span,
                                 noraise := b 11 c.vec.noraise, underrun := b 12 c.vec.underrun } }
  else if 0x0c0 ≤ n ∧ n ≤ 0x0ff then
    { c with regs := { c.regs with rb := Cells.set c.regs.rb (n - 0x0c0) (x.setWidth 32) } }
  else if n = 0x100 then
    { c with num := { c.num with sticky := b 8 c.num.sticky, shadowDis := b 9 c.num.shadowDis } }
  else if n = 0x101 then { c with num := { c.num with telLayer := x.toNat % 4096 } }
  else if n = 0x110 then
    if c.cmb.entries.isEmpty then { c with cmb := { c.cmb with cfg := x &&& BitVec.ofNat 64 (2 ^ 44 - 1) } }
    else { c with cmb := { c.cmb with cfgRej := true } }
  else if n = 0x111 then { c with cmb := { c.cmb with cfgRej := b 13 c.cmb.cfgRej } }
  else c

/-- What a core tells the rest of the module. -/
inductive CoreEv where
  /-- A semaphore saturated (R62). -/
  | semOvf (sem : Nat)
  /-- A rewind: attempt, cause, first format, overflow count (R144). -/
  | replay (attempt cause fmt count : Nat)
  /-- A telemetry entry for the queue processor (R158). -/
  | tel (e : TelEntry)
  /-- An overflow outside any segment in this layer (R149). -/
  | overflow (layer : Nat)
  deriving DecidableEq, Repr

/-- Adding a post to a semaphore: saturation sets SEM_OVF (R62). -/
def Core.postN (c : Core) (sem : SemId) (n : Nat) : Core × List CoreEv :=
  let v := c.regs.sem[sem].toNat + n
  if 65535 < v then
    ({ c with regs := { c.regs with sem := c.regs.sem.set sem 0xffff#16 }, ctl := { c.ctl with semOvf := true } },
      [.semOvf sem.val])
  else ({ c with regs := { c.regs with sem := c.regs.sem.set sem (BitVec.ofNat 16 v) } }, [])

/-- A completion post, when the operation carries one (R54). -/
def Core.complete (c : Core) (post : Option SemId) : Core × List CoreEv :=
  match post with
  | some s => c.postN s 1
  | none => (c, [])

/-- An empty entry for a pair. -/
def TelEntry.zero (layer fmt : Nat) : TelEntry := ⟨layer, fmt, 0, 0, 0, 0, 0, 0, 0, 0, 0, false⟩

/-- Elements of one class counted into an entry (R157). -/
def TelEntry.bump (e : TelEntry) (k : ConvClass) (n : Nat) : TelEntry :=
  let e := { e with total := e.total + n }
  match k with
  | .ovf => { e with ovf := e.ovf + n }
  | .ftz => { e with ftz := e.ftz + n }
  | .sub => { e with sub := e.sub + n }
  | .nan => { e with nan := e.nan + n }
  | _ => e

/-- The sum of two entries of one pair. -/
def TelEntry.add (a b : TelEntry) : TelEntry :=
  { a with total := a.total + b.total, ovf := a.ovf + b.ovf, ftz := a.ftz + b.ftz, sub := a.sub + b.sub,
           nan := a.nan + b.nan, accOvf := a.accOvf + b.accOvf, replays := a.replays + b.replays,
           shadowN := a.shadowN + b.shadowN, shadowDis := a.shadowDis + b.shadowDis, sat := a.sat || b.sat }

/-- Whether an entry is of a pair. -/
def TelEntry.isPair (e : TelEntry) (layer fmt : Nat) : Bool := e.layer = layer && e.fmt = fmt

/-- Counting into the buffer outside a segment: the pair becomes the most recently counted; a full buffer evicts the least
recently counted entry not held, and with every entry held the count is sent as an entry of its own (R158, R160). -/
def NumSt.countOut (n : NumSt) (layer fmt : Nat) (f : TelEntry → TelEntry) : NumSt × List CoreEv :=
  match n.buf.find? (·.isPair layer fmt) with
  | some e => ({ n with buf := f e :: n.buf.filter fun x => !x.isPair layer fmt }, [])
  | none =>
    if n.inUse < 16 || n.held.any (·.isPair layer fmt) then ({ n with buf := f (.zero layer fmt) :: n.buf }, [])
    else
      match n.buf.reverse.find? (fun e => !n.held.any (·.isPair e.layer e.fmt)) with
      | some v =>
        ({ n with buf := f (.zero layer fmt) :: n.buf.filter fun x => !x.isPair v.layer v.fmt }, [.tel v])
      | none => (n, [.tel (f (.zero layer fmt))])

/-- Counting inside the open segment, apart from the rest; with 16 pairs held an excess pair counts into the segment's
first entry, which is marked saturated (R159, R160). -/
def NumSt.countIn (n : NumSt) (layer fmt : Nat) (f : TelEntry → TelEntry) : NumSt × List CoreEv :=
  if n.held.any (·.isPair layer fmt) then
    ({ n with held := n.held.map fun e => if e.isPair layer fmt then f e else e }, [])
  else if n.inUse < 16 || n.buf.any (·.isPair layer fmt) then
    ({ n with held := n.held ++ [f (.zero layer fmt)] }, [])
  else
    match n.buf.reverse.find? (fun e => !n.held.any (·.isPair e.layer e.fmt)) with
    | some v =>
      ({ n with buf := n.buf.filter (fun x => !x.isPair v.layer v.fmt), held := n.held ++ [f (.zero layer fmt)] },
        [.tel v])
    | none =>
      match n.held with
      | [] => (n, [])
      | h :: t => ({ n with held := { f h with sat := true } :: t }, [])

/-- The layer of what was issued in (`seg`) or outside a segment (R146). -/
def Core.layerOf (c : Core) (seg : Bool) : Nat := if seg then c.seg.id.toNat / 16 else c.num.telLayer

/-- A telemetry count of an operation. One issued in a segment that is no longer open counts nothing (R159). -/
def Core.count (c : Core) (seg : Bool) (fmt : Nat) (f : TelEntry → TelEntry) : Core × List CoreEv :=
  if seg then
    if c.seg.isOpen then
      let (n, ev) := c.num.countIn (c.layerOf true) fmt f
      ({ c with num := n }, ev)
    else (c, [])
  else
    let (n, ev) := c.num.countOut (c.layerOf false) fmt f
    ({ c with num := n }, ev)

/-- Overflow events of an operation (R142, R144, R161): inside its open segment they set the segment flag, elsewhere
STICKY_OVF. -/
def Core.overflow (c : Core) (seg acc : Bool) (fmt n : Nat) : Core × List CoreEv :=
  if n = 0 then (c, [])
  else if seg then
    if c.seg.isOpen then
      let m := c.num
      ({ c with num := { m with segovf := true, ovfChain := m.ovfChain || !acc, ovfAcc := m.ovfAcc || acc,
                                ovfFmt := if m.segovf then m.ovfFmt else fmt, ovfCount := satAdd 32 m.ovfCount n } }, [])
    else (c, [])
  else ({ c with num := { c.num with sticky := true } }, [.overflow c.num.telLayer])

/-- Clearing the segment overflow flag and its detail fields (R67, R70, R161). -/
def NumSt.clearOvf (n : NumSt) : NumSt :=
  { n with segovf := false, ovfChain := false, ovfAcc := false, ovfFmt := 0, ovfCount := 0 }

/-- Held counts merged at a commit; their entries are sent (R158, R159). -/
def NumSt.commitHeld (n : NumSt) : NumSt × List CoreEv :=
  let sent := n.held.map fun h =>
    match n.buf.find? (·.isPair h.layer h.fmt) with
    | some b => b.add h
    | none => h
  ({ n with held := [], buf := n.buf.filter fun b => !n.held.any (·.isPair b.layer b.fmt) }, sent.map .tel)

end Sys2Proof.Machine
end

