-- ==== Sys2Proof/Machine/Array.lean ====
section
/-! DEFINITION. The outer-product array: issue of passes and loads, the b-ring, k-steps, whey steps, the activity level
and the format bridge (R50 to R52, R82 to R109, R140 to R143, R431 to R433). -/

namespace Sys2Proof.Machine

/-- The count of KREG cut to the limit of R88, and whether it was cut. DEDUCED, unsafe (log 13). -/
def kLimit (cfg : MCfg) (n : Nat) : Nat × Bool :=
  let fp := cfg.fmtb = .fp32
  let n := if cfg.paired then n / 4 * 4 else n
  let lim := if cfg.paired then (if fp then 512 else 1024) else (if fp then 256 else 512)
  if lim < n then (lim, true) else (n, false)

/-- The start slot of KREG (R50, R88). DEDUCED, unsafe (log 13). -/
def kStart (cfg : MCfg) (k : W64) : Nat :=
  let s := bits k.toNat 24 16
  if cfg.fmtb = .fp32 then s / 2 * 2 else s

/-- Stored steps of a count: k-steps, or stored slots of the paired-step groups (R88, R99). -/
def storedSteps (cfg : MCfg) (count : Nat) : Nat := if cfg.paired then count / 2 else count

/-- Ring slots of stored step n (R83, R88). DEDUCED, unsafe (log 13). -/
def stepSlots (cfg : MCfg) (start n : Nat) : List Nat :=
  if cfg.fmtb = .fp32 then [(start + 2 * n) % 512, (start + 2 * n + 1) % 512] else [(start + n) % 512]

/-- Stored steps of a pass. DEDUCED, unsafe (log 36). -/
def Pass.steps (p : Pass) : Nat := storedSteps p.cfg p.count

/-- The raised formats of a pass and four times its rate F (R84, R102, R143). -/
def Pass.rate (p : Pass) : Nat := min (p.cfg.fmta.raise p.ovr).rate4 (p.cfg.fmtb.raise p.ovr).rate4

/-- The fewest issue ACLK of the steady state under k-skip: the front end examines up to 2F steps in each (R98, R100). -/
def Pass.minSpent (p : Pass) : Nat := if p.cfg.skip then ceilDiv (2 * p.steps) p.rate else 0

/-- A pass all of whose k-steps have issued or been skipped, its steady state over (R92, R98). -/
def Pass.issued (p : Pass) : Bool := decide (p.steps ≤ p.next) && decide (p.sub = 0) && decide (p.minSpent ≤ p.spent)

/-- Data slots a load writes. -/
def Load.slots (l : Load) : Nat := storedSteps l.cfg l.count * (if l.cfg.fmtb = .fp32 then 2 else 1)

/-- Slot number of data slot j of a load. -/
def Load.slot (l : Load) (j : Nat) : Nat := (l.start + j) % 512

/-- Slots a load has still to write. -/
def Load.left (l : Load) : List Nat := (List.range (l.slots - l.next)).map fun i => l.slot (l.next + i)

/-- Slots whose k-step of a pass has not issued yet. -/
def Pass.left (p : Pass) : List Nat :=
  ((List.range (p.steps - p.next)).map fun i => stepSlots p.cfg p.start (p.next + i)).flatten

/-- Issue of `m.pass` (R50, R51, R87, R88); `pre` is the core as the bundle found it, whose control registers it latches (R45). -/
def Core.issuePass (c pre : Core) (ag : AgId) (bank acc : Bool) (post : Option SemId) (k : W64) : Core :=
  let (n, cut) := kLimit c.mcfg (k.toNat % 2 ^ 16)
  let p : Pass :=
    { seq := c.seq, ag := ag, bank := if bank then 1 else 0, keep := acc, post := post, count := n,
      start := kStart c.mcfg k, cfg := c.mcfg, mxsA := pre.arr.mxsA.toNat, rowmask := pre.arr.rowmask, seg := c.seg.isOpen,
      ovr := if c.seg.isOpen then c.seg.fmtOvr else 0, started := false, next := 0, sub := 0, streamEnded := false,
      access := 0, grp := [], spent := 0, src := none, spoilt := false }
  { c with seq := c.seq + 1, arr := { c.arr with passes := c.arr.passes ++ [p], kclamp := c.arr.kclamp || cut } }

/-- Issue of `m.bload` (R50, R51, R87, R88); `pre` as for `m.pass`. -/
def Core.issueLoad (c pre : Core) (ag : AgId) (post : Option SemId) (k : W64) : Core :=
  let (n, cut) := kLimit c.mcfg (k.toNat % 2 ^ 16)
  let l : Load :=
    { seq := c.seq, ag := ag, post := post, count := n, start := kStart c.mcfg k, cfg := c.mcfg,
      mxsB := pre.arr.mxsB.toNat, spxB := pre.arr.spxB.toNat, seg := c.seg.isOpen, started := false, next := 0, streamEnded := false,
      access := 0, half := [], src := none, spoilt := false }
  { c with seq := c.seq + 1, arr := { c.arr with loads := c.arr.loads ++ [l], kclamp := c.arr.kclamp || cut } }

/-- Whether an earlier-issued pass that writes `bank` has not finished (R52). -/
def Core.bankWriter (c : Core) (bank seq : Nat) : Bool :=
  c.arr.passes.any fun p => p.bank = bank && p.seq < seq

/-- A generator written back into the core. -/
def Core.setAg (c : Core) (i : AgId) (g : Ag) : Core := { c with ags := c.ags.set i g }

/-- Whether a started chain still uses generator `i`. -/
def Chain.uses (ch : Chain) (i : AgId) : Bool :=
  match ch.out with
  | some o => !o.read && o.ags.any fun a => a.1 = i
  | none => false

/-- A stream started, or a descriptor loaded, on an active generator (R80): what its streams read and write is free. A chain that uses
it may write anywhere in the store. DEDUCED, safe (log 43). -/
def Core.agClash (c : Core) (fr : Nat) (i : AgId) : Core :=
  let hit := c.vec.chains.any fun ch => ch.uses i
  { c.setAg i (Ag.wild fr) with
    vec := { c.vec with chains := c.vec.chains.map fun ch => if ch.uses i then { ch with spoilt := true } else ch }
    store := if hit then Cells.putDense c.store 0 (freeBytes (fr + 256) storeBytes) else c.store }

/-- A stream started on generator `i` at the present base (R57, R80). -/
def Core.startAg (c : Core) (fr : Nat) (i : AgId) : Core :=
  if (c.ags[i]).active then c.agClash fr i else c.setAg i ((c.ags[i]).start c.regs i)

/-- Replacing the pass of an issue number. -/
def ArrSt.setPass (a : ArrSt) (p : Pass) : ArrSt :=
  { a with passes := a.passes.map fun q => if q.seq = p.seq then p else q }

/-- Replacing the load of an issue number. -/
def ArrSt.setLoad (a : ArrSt) (l : Load) : ArrSt :=
  { a with loads := a.loads.map fun q => if q.seq = l.seq then l else q }

/-- Clearing an accumulator bank to +0 (R94, R104). -/
def CoreRegs.clearBank (r : CoreRegs) (bank : Nat) : CoreRegs := { r with acc := Cells.clear r.acc (4096 * bank) 4096 }

/-- The first pass whose front end has not started, when every pass before it has issued all its k-steps (R93). -/
def ArrSt.frontPass (a : ArrSt) : Option Pass :=
  match a.passes.find? (fun p => !p.started) with
  | some p => if (a.passes.filter (fun q => q.seq < p.seq)).all Pass.issued then some p else none
  | none => none

/-- The front end of a pass starts: its a-stream starts, and ACC = 0 clears the bank (R85, R92 to R94). A pass of count 0
starts nothing. DEDUCED, unsafe (log 36). -/
def Core.passStart (c : Core) (fr : Nat) : Core :=
  match c.arr.frontPass with
  | none => c
  | some p =>
    if p.count = 0 then c
    else
      let c := c.startAg fr p.ag
      { c with arr := c.arr.setPass { p with started := true, src := some c.ags[p.ag] },
               regs := if p.keep then c.regs else c.regs.clearBank p.bank }

/-- The next access of a pass's a-stream: 32 codes and their block scale; after the stream's end +0 and UNDERRUN (R85,
R87). -/
def Core.passAccess (c : Core) (p : Pass) : (List Nat × Nat) × Pass × Core :=
  let g := c.ags[p.ag]
  if g.active && !p.streamEnded then
    let codes := g.readAt c.store 32 g.taken
    let sc := if p.cfg.fmta.isMx && !g.padding g.taken then storeLe c.store (p.mxsA + p.access) 1 else 127
    let g' := g.advance 1
    ((codes, sc), { p with access := p.access + 1, streamEnded := !g'.active }, c.setAg p.ag g')
  else
    ((List.replicate 32 0, 127), { p with access := p.access + 1, streamEnded := true },
      { c with arr := { c.arr with underrun := true } })

/-- The exact a-values of an access under the row mask (R82, R132). DEDUCED, unsafe (log 12). -/
def aValues (p : Pass) (x : List Nat × Nat) : List FVal :=
  x.1.zipIdx.map fun e =>
    if p.rowmask.getLsbD e.2 then p.cfg.fmta.value e.1 x.2 else .fin false 0 0

/-- Whether every element of an access is zero after the row mask (R97). -/
def aZero (p : Pass) (x : List Nat × Nat) : Bool :=
  x.1.zipIdx.all fun e => !p.rowmask.getLsbD e.2 || p.cfg.fmta.elemZero e.1

/-- A slot of the ring, none when no load has written it (R91). -/
def ArrSt.slot (a : ArrSt) (n : Nat) : Option RingSlot := (a.ring.find? fun s => s.1 = n).map (·.2)

/-- The 256 bytes of a slot: those its load wrote, and free bytes beyond them, which the spec does not state (R89, R91). DESIGN CHOICE, safe (log 98). -/
def RingSlot.bytes (s : RingSlot) : List Byte :=
  s.data ++ (List.range (256 - s.data.length)).map fun i => Config.ringRest s.load (s.data.length + i)

/-- A block scale of a slot; free where its load was not of an MX format (R87, R91). DESIGN CHOICE, safe (log 98). -/
def RingSlot.scale (s : RingSlot) (k : Nat) : Nat :=
  match s.scales with
  | some l => l.getD k 127
  | none => (Config.ringRest s.load (256 + k)).toNat

/-- A byte of a slot's indices; free where its load was not in paired-step mode (R87, R91). DESIGN CHOICE, safe (log 98). -/
def RingSlot.indexByte (s : RingSlot) (k : Nat) : Byte :=
  match s.index with
  | some l => l.getD k 0#8
  | none => Config.ringRest s.load (260 + k)

/-- A slot whose content an undefined case reaches: free but for its tag (R81). DEDUCED, safe (log 43). -/
def RingSlot.wild (s : RingSlot) : RingSlot :=
  { s with data := [], index := none, scales := none,
           zmask := BitVec.ofNat 128 (leNat ((List.range 16).map fun i => Config.ringRest s.load (300 + i))) }

/-- The 128 b-values of a stored step in the pass's own format, with block scales (R84, R91). -/
def bValues (a : ArrSt) (p : Pass) (n : Nat) : List FVal :=
  let f := p.cfg.fmtb
  let ss := (stepSlots p.cfg p.start n).map a.slot
  let bytes := (ss.map fun o => match o with | some s => s.bytes | none => List.replicate 256 0#8).flatten
  let scale := fun (k : Nat) => match ss.head? with | some (some s) => s.scale k | _ => 127
  (unpackElems f.bits 128 bytes).zipIdx.map fun e => f.value e.1 (scale (e.2 / 32))

/-- The 2:4 index of column j of a stored step (R99). -/
def bIndex (a : ArrSt) (p : Pass) (n j : Nat) : Nat :=
  match ((stepSlots p.cfg p.start n).head?).bind a.slot with
  | some s => (s.indexByte (j / 4)).toNat / 4 ^ (j % 4) % 4
  | none => 0

/-- Whether the zero masks of a stored step show every column zero; a mask bit is 1 for a column that is not zero
(R91, R97). DEDUCED, unsafe (log 10). -/
def bZero (a : ArrSt) (p : Pass) (n : Nat) : Bool :=
  (stepSlots p.cfg p.start n).all fun x => match a.slot x with | some s => s.zmask = 0 | none => true

/-- Whether every load issued before the pass has written the slots of a stored step (R90). -/
def stepReady (a : ArrSt) (p : Pass) (n : Nat) : Bool :=
  (stepSlots p.cfg p.start n).all fun x => !a.loads.any fun l => l.seq < p.seq && l.left.contains x

/-- Marks of reading the slots of a stored step: EMPTY_READ, FMTMIX (R91), the hold of R103. DEDUCED, unsafe (log 10). -/
def ArrSt.noteRead (a : ArrSt) (p : Pass) (n : Nat) : ArrSt :=
  let xs := stepSlots p.cfg p.start n
  { a with
    emptyRead := a.emptyRead || xs.any fun x => (a.slot x).isNone
    fmtmix := a.fmtmix || xs.any fun x =>
      match a.slot x with | some s => s.fmt ≠ p.cfg.fmtb || s.paired ≠ p.cfg.paired | none => false
    readBySeg := if p.seg then a.readBySeg ++ xs.filter fun x => !a.readBySeg.contains x else a.readBySeg }

/-- Current of a format at LEVEL 64, in units of 1/6400 A (R432). -/
def fmtCurrent : Fmt → Nat
  | .fp32 | .xf40 => 33920
  | .bf16 | .fp16 => 40000
  | .e4m3 | .e5m2 | .int8 => 38400
  | .mx8e4m3 | .mx8e5m2 => 39040
  | .mx6e2m3 | .mx6e3m2 => 39680
  | .mx4 => 37760

/-- The format in which steps of a pass issue, for R433. -/
def Pass.issueFmt (p : Pass) : Fmt :=
  let a := p.cfg.fmta.raise p.ovr
  let b := p.cfg.fmtb.raise p.ovr
  if fmtCurrent a < fmtCurrent b then b else a

/-- The format bridge at the issue of a step of format f (R433). DEDUCED, unsafe (log 14). -/
def ArrSt.bridge (a : ArrSt) (f : Fmt) : ArrSt :=
  match a.lastFmt with
  | none => { a with lastFmt := some f }
  | some o =>
    if fmtCurrent o < fmtCurrent f then
      { a with lastFmt := some f, level := a.level * fmtCurrent o / fmtCurrent f, topup := 0 }
    else { a with lastFmt := some f, topup := a.topup + (fmtCurrent o - fmtCurrent f) }

/-- Whether ACLK number k (modulo 64) may issue at a level (R108). -/
def mayIssue (level k : Nat) : Bool := decide (k * level / 64 < (k + 1) * level / 64)

/-- The next ACLK number after `k` that may issue at a positive level (R108). -/
def nextIssue (level : Nat) : Nat → Nat → Nat
  | 0, k => k % 64
  | n + 1, k => if mayIssue level ((k + 1) % 64) then (k + 1) % 64 else nextIssue level n (k + 1)

/-- An infinity, as its sign. -/
def FVal.infSign : FVal → Option Bool
  | .inf s => some s
  | _ => none

/-- One accumulation of a cell: the exact sum of an ACLK's products added to the accumulator with one rounding; ∞ − ∞ and 0 × ∞ give
0x7fc0_0000, and a NaN operand gives a quiet NaN of free sign and low bits (R140). DESIGN CHOICE, safe (log 17). -/
def accumulate (acc : W32) (ps : List (FVal × FVal)) : W32 :=
  let a := f32 acc
  let vs := ps.map fun p => p.1.mul p.2
  let infs := (a :: vs).filterMap FVal.infSign
  if a.isNan || ps.any fun p => p.1.isNan || p.2.isNan then nanFree 0x140 (acc :: vs.map fun v => toF32 v)
  else if vs.any FVal.isNan || (infs.contains true && infs.contains false) then 0x7fc00000#32
  else toF32 (vs.foldl FVal.add a)

/-- An ACLK's products added into the 4,096 cells of a bank with one rounding each, and the number of accumulator
overflows (R82, R140, R141). `prod i j` lists the products of cell (i, j) as their factors. DEDUCED, unsafe (log 11). -/
def addBank (acc : Cells 32) (bank : Nat) (prod : Nat → Nat → List (FVal × FVal)) : Cells 32 × Nat :=
  let old := Cells.dense acc (4096 * bank) 4096
  let new := old.zipIdx.map fun e =>
    let ps := prod (e.2 / 128) (e.2 % 128)
    let r := accumulate e.1 ps
    (r, (f32 e.1).isFinite && (ps.all fun p => (p.1.mul p.2).isFinite) && !(f32 r).isFinite)
  (Cells.putDense acc (4096 * bank) (new.map (·.1)), (new.filter (·.2)).length)

/-- A stored step issued in an ACLK: its a-vectors and its number. -/
structure StepIssue where
  n : Nat
  avs : List (List Nat × Nat)

/-- The products of cell (i, j) of the steps issued in one ACLK (R82, R99). DEDUCED, unsafe (log 11). -/
def stepProducts (a : ArrSt) (p : Pass) (xs : List StepIssue) : Nat → Nat → List (FVal × FVal) :=
  let pre := xs.map fun x => (x.n, x.avs.map (aValues p), bValues a p x.n)
  fun i j => pre.map fun t =>
    let av := if p.cfg.paired then t.2.1.getD (bIndex a p t.1 j) [] else t.2.1.headD []
    (av.getD i (.fin false 0 0), t.2.2.getD j (.fin false 0 0))

/-- The next stored step of a paired-step pass, its group's four accesses taken at the group's first slot (R99, R100):
the outcome is a step to issue, or `none` for a skipped group of four k-steps. -/
def Core.pairedStep (c : Core) (p : Pass) : Option StepIssue × Core × Pass :=
  let n := p.next
  let (p, c) :=
    if n % 2 = 0 then
      (List.range 4).foldl (fun (pc : Pass × Core) _ =>
        let (x, p, c) := pc.2.passAccess pc.1
        ({ p with grp := p.grp ++ [x] }, c)) ({ p with grp := [] }, c)
    else (p, c)
  let c := { c with arr := c.arr.noteRead p n }
  if p.cfg.skip && n % 2 = 0 && (p.grp.all (aZero p) || (bZero c.arr p n && bZero c.arr p (n + 1))) then
    (none, { c with arr := c.arr.noteRead p (n + 1) }, { p with next := n + 2, grp := [] })
  else (some ⟨n, p.grp⟩, c, { p with next := n + 1 })

/-- The next k-step of a dense pass: a step to issue, or `none` for a skipped one (R85, R97). -/
def Core.denseStep (c : Core) (p : Pass) : Option StepIssue × Core × Pass :=
  let n := p.next
  let (x, p, c) := c.passAccess p
  let c := { c with arr := c.arr.noteRead p n }
  if p.cfg.skip && (aZero p x || bZero c.arr p n) then (none, c, { p with next := n + 1 })
  else (some ⟨n, [x]⟩, c, { p with next := n + 1 })

/-- Whether the next stored step may be judged: its slots written, under k-skip those of its whole group (R90, R98). -/
def judgeReady (a : ArrSt) (p : Pass) : Bool :=
  stepReady a p p.next && (!(p.cfg.paired && p.cfg.skip && p.next % 2 = 0) || stepReady a p (p.next + 1))

/-- Examination of stored steps from the next one, issuing at most `cap` (R83, R97 to R100): the steps to issue, the core and pass
after, the k-steps skipped. It stops at a step whose slots are not ready (R90). R98 fixes the number of issue ACLK, which
`Pass.minSpent` keeps; which of them carry the steps is the model's. DEDUCED, unsafe (log 11). -/
def examine : (fuel cap : Nat) → Core → Pass → List StepIssue → List StepIssue × Core × Pass × Nat
  | 0, _, c, p, acc => (acc, c, p, 0)
  | fuel + 1, cap, c, p, acc =>
    if cap = 0 ∨ p.steps ≤ p.next ∨ judgeReady c.arr p = false then (acc, c, p, 0)
    else
      match (if p.cfg.paired then c.pairedStep p else c.denseStep p) with
      | (some x, c, p) => examine fuel (cap - 1) c p (acc ++ [x])
      | (none, c, p) =>
        let (a, c, p, k) := examine fuel cap c p acc
        (a, c, p, k + if p.cfg.paired then 4 else 1)

/-- An ACLK in which the array issues a whey step (R107). -/
def ArrSt.wheyStep (a : ArrSt) (stalled : Bool) : ArrSt :=
  { a with whey := true, active := false, wheyCyc := a.wheyCyc + 1,
           stallCyc := if stalled then a.stallCyc + 1 else a.stallCyc }

/-- The pass at its issue point: the first whose k-steps have not all issued, once its front end has started (R92). -/
def ArrSt.issuing (a : ArrSt) : Option Pass := a.passes.find? fun p => p.started && !p.issued

/-- The array's clock at the next ACLK that LEVEL permits; none at LEVEL 0, where nothing issues. -/
def ArrSt.tick (a : ArrSt) : ArrSt := { a with aclk := nextIssue a.level 64 a.aclk }

/-- The steps of an issue ACLK added into the bank, counted, with their overflows (R82, R140 to R142, R157). -/
def Core.issueSteps (c : Core) (p : Pass) (xs : List StepIssue) : Core × List CoreEv :=
  let (acc, ovf) := addBank c.regs.acc p.bank (stepProducts c.arr p xs)
  let c := { c with regs := { c.regs with acc := acc },
                    arr := { c.arr with active := true, whey := false,
                                        ksteps := c.arr.ksteps + BitVec.ofNat 64 (xs.length * if p.cfg.paired then 2 else 1) } }
  let f := (p.cfg.fmta.raise p.ovr).code
  let (c, e1) := c.overflow p.seg true f ovf
  let (c, e2) := if ovf = 0 then (c, []) else c.count p.seg f fun t => { t with accOvf := t.accOvf + ovf }
  (c, e1 ++ e2)

/-- ARRAY_ISSUE_SLOT: the next ACLK that LEVEL permits. The pass at its issue point issues up to F stored steps; an FP32 step takes four
such ACLK; with nothing to issue a whey step issues (R82, R83, R97, R98, R107, R108, R140 to R142). -/
def Core.issueSlot (c : Core) : Core × List CoreEv :=
  match c.arr.issuing with
  | none =>
    if c.arr.level = 0 then ({ c with arr := { c.arr with active := false, whey := false } }, [])
    else ({ c with arr := (c.arr.wheyStep false).tick }, [])
  | some p =>
    if c.arr.level = 0 then ({ c with arr := { c.arr with active := false, whey := false } }, [])
    else if 0 < p.sub then
      let p := { p with sub := (p.sub + 1) % 4, spent := p.spent + 1 }
      ({ c with arr := { (c.arr.setPass p).tick with active := true, whey := false } }, [])
    else if p.steps ≤ p.next then
      ({ c with arr := ((c.arr.setPass { p with spent := p.spent + 1 }).wheyStep false).tick }, [])
    else if !judgeReady c.arr p then ({ c with arr := (c.arr.wheyStep true).tick }, [])
    else
      let arr := c.arr.bridge p.issueFmt
      if arr.level = 0 then ({ c with arr := arr }, [])
      else
        let c := { c with arr := arr.tick }
        let (xs, c, p, skipped) := examine p.steps (max 1 (p.rate / 4)) c p []
        let p := { p with spent := p.spent + 1, sub := if p.rate < 4 && !xs.isEmpty then 1 else p.sub }
        let a := c.arr.setPass p
        let c := { c with arr := { a with kskip := a.kskip + BitVec.ofNat 64 skipped } }
        if xs.isEmpty then ({ c with arr := c.arr.wheyStep false }, []) else c.issueSteps p xs

/-- PASS_COMPLETE: the head pass, all of whose k-steps have issued, leaves the queue and posts (R50, R92, R94). A bank that an undefined
case reaches holds free values (R81). DEDUCED, safe (log 43). -/
def Core.passComplete (c : Core) (fr : Nat) : Core × List CoreEv :=
  match c.arr.passes with
  | [] => (c, [])
  | p :: ps =>
    if p.count = 0 || (p.started && p.issued) then
      let c := if p.spoilt then { c with regs := { c.regs with acc := Cells.putDense c.regs.acc (4096 * p.bank) (freeWords fr 4096) } } else c
      ({ c with arr := { c.arr with passes := ps } }).complete p.post
    else (c, [])

/-- BLOAD_START: the head load starts its stream (R57, R89). DEDUCED, unsafe (log 36). -/
def Core.loadStart (c : Core) (fr : Nat) : Core :=
  match c.arr.loads with
  | [] => c
  | l :: ls =>
    if l.started || l.count = 0 then c
    else
      let c := c.startAg fr l.ag
      { c with arr := { c.arr with loads := { l with started := true, src := some c.ags[l.ag] } :: ls } }

/-- Whether a load may write a slot: every earlier pass that reads it has issued on it (R90), and no pass of the open
segment has read it unless the load was issued inside (R103). -/
def loadMayWrite (c : Core) (l : Load) (x : Nat) : Bool :=
  !(c.arr.passes.any fun p => p.seq < l.seq && p.left.contains x) &&
  !(c.seg.isOpen && l.seq < c.seg.openSeq && c.arr.readBySeg.contains x)

/-- The ring with a slot written. -/
def ArrSt.putSlot (a : ArrSt) (n : Nat) (s : RingSlot) : ArrSt :=
  { a with ring := a.ring.filter (fun e => e.1 < n) ++ (n, s) :: a.ring.filter (fun e => n < e.1) }

/-- Mask of the elements that are not zero, element 0 in bit 0 (R97). DEDUCED, unsafe (log 10). -/
def nonzeroMask (f : Fmt) (codes : List Nat) : BitVec 128 :=
  BitVec.ofNat 128 (codes.foldr (fun x m => 2 * m + if f.elemZero x then 0 else 1) 0)

/-- BLOAD_SLOT_WRITE: the started head load writes its next data slot (R87, R89, R90, R91); with its last slot it leaves
the queue and posts. A load of count 0 completes. A slot that an undefined case reaches is free (R81). DESIGN CHOICE, safe (log 98). -/
def Core.loadWrite (c : Core) : Core × List CoreEv :=
  match c.arr.loads with
  | [] => (c, [])
  | l :: ls =>
    if l.count = 0 then ({ c with arr := { c.arr with loads := ls } }).complete l.post
    else if !l.started then (c, [])
    else
      let x := l.slot l.next
      if !loadMayWrite c l x then (c, [])
      else
        let f := l.cfg.fmtb
        let g := c.ags[l.ag]
        let second := f = .fp32 && l.next % 2 = 1
        let live := g.active && !l.streamEnded && !second
        let k := l.access
        let codes :=
          if second then l.half
          else if live then g.readAt c.store 128 g.taken else []
        let under := codes.isEmpty
        let mine := if under then List.replicate (if f = .fp32 then 64 else 128) 0
          else if f = .fp32 then codes.take 64 else codes
        let at_ := if second then k - 1 else k
        let pad := !second && live && g.padding g.taken
        let scales := if under || (pad && f.isMx) then some [127, 127, 127, 127]
          else if f.isMx then some ((storeRead c.store (l.mxsB + 4 * at_) 4).map (·.toNat)) else none
        let index := if under then some (List.replicate 32 0#8)
          else if l.cfg.paired then some (storeRead c.store (l.spxB + 32 * at_) 32) else none
        let slot : RingSlot :=
          { data := packElems f.bits mine, index := index, scales := scales, zmask := nonzeroMask f mine, fmt := f, paired := l.cfg.paired,
            load := l.seq }
        let slot := if l.spoilt then slot.wild else slot
        let g' := g.advance 1
        let c := if live then c.setAg l.ag g' else c
        let l' := { l with next := l.next + 1, access := if second then k else k + 1,
                           streamEnded := if second then l.streamEnded else !(live && g'.active),
                           half := if f = .fp32 && !second then codes.drop 64 else [] }
        let a := (c.arr.putSlot x slot)
        let a := { a with underrun := a.underrun || under }
        if l'.next < l.slots then ({ c with arr := { a with loads := l' :: ls } }, [])
        else ({ c with arr := { a with loads := ls } }).complete l.post

/-- LEVEL_STEP: one step of the level (R108, R431). `quiet` tells that no k-step of a pass has issued for 4,000 ACLK. DESIGN CHOICE, safe (log 92). -/
def Core.levelStep (c : Core) (ceiling : Nat) (quiet : Bool) : Core :=
  let a := c.arr
  let want := !a.passes.isEmpty || a.warm
  let level :=
    if ceiling < a.level then a.level - 1
    else if want then min (a.level + 1) ceiling
    else if quiet then a.level - 1
    else a.level
  { c with arr := { a with level := level } }

/-- TOPUP_DECREMENT: the top-up falls by I(BF16) ÷ 64 (R433). -/
def Core.topupDecrement (c : Core) : Core := { c with arr := { c.arr with topup := c.arr.topup - 625 } }

/-- The rewind's clear of both banks waits for every pass issued before the segment (R104). -/
def Core.accClearReady (c : Core) : Bool := !c.arr.passes.any fun p => p.seq < c.seg.openSeq

end Sys2Proof.Machine
end

