-- ==== Sys2Proof/Machine/Vector.lean ====
section
/-! DEFINITION. The vector engine: chains from descriptor to written results, the synchronous vector operations, the
reduction tree (R110 to R124, R127 to R129, R131, R137 to R139, R153 to R157, R520). -/

namespace Sys2Proof.Machine

/-- A chain descriptor read from its 128 bytes (R112). -/
structure ChainDesc where
  raw : List Byte
  deriving DecidableEq, Repr

/-- `n` bytes at offset `o` of the descriptor. -/
def ChainDesc.fld (d : ChainDesc) (o n : Nat) : Nat := fieldLe d.raw o n
/-- CTRL (R113). -/
def ChainDesc.ctrl (d : ChainDesc) : Nat := d.fld 0 4
def ChainDesc.src (d : ChainDesc) : Nat := bits d.ctrl 1 0
def ChainDesc.srcag (d : ChainDesc) : AgId := agOf (bits d.ctrl 3 2)
def ChainDesc.dst (d : ChainDesc) : Nat := bits d.ctrl 5 4
def ChainDesc.dstag (d : ChainDesc) : AgId := agOf (bits d.ctrl 7 6)
def ChainDesc.nstage (d : ChainDesc) : Nat := bits d.ctrl 11 8
def ChainDesc.pack (d : ChainDesc) : Bool := bit d.ctrl 12
def ChainDesc.redfn (d : ChainDesc) : Nat := bits d.ctrl 15 13
def ChainDesc.rscope (d : ChainDesc) : Nat := bits d.ctrl 17 16
def ChainDesc.ifmt (d : ChainDesc) : Nat := bits d.ctrl 21 18
def ChainDesc.ofmt (d : ChainDesc) : Nat := bits d.ctrl 25 22
def ChainDesc.ngroup (d : ChainDesc) : Nat := d.fld 4 2
def ChainDesc.isBank (d : ChainDesc) : Bool := decide (d.src ≤ 1)
/-- ROWLEN; 0 is treated as 1, and a bank source has 2 (R112, R116). -/
def ChainDesc.rowlen (d : ChainDesc) : Nat := if d.isBank then 2 else max 1 (d.fld 6 2)
def ChainDesc.row0 (d : ChainDesc) : Nat := d.fld 8 1 % 32
def ChainDesc.vsrc (d : ChainDesc) : Nat := d.fld 9 1 % 64
def ChainDesc.vdst (d : ChainDesc) : Nat := d.fld 0x0a 1 % 64
def ChainDesc.rvidx (d : ChainDesc) : Nat := d.fld 0x0b 1 % 64
def ChainDesc.dstalt (d : ChainDesc) : Nat := d.fld 0x0c 4 % storeBytes
def ChainDesc.stage (d : ChainDesc) (i : Nat) : Nat := d.fld (0x10 + 4 * i) 4
def ChainDesc.konst (d : ChainDesc) (i : Nat) : W32 := BitVec.ofNat 32 (d.fld (0x30 + 4 * i) 4)
def ChainDesc.oscale (d : ChainDesc) : Nat := d.fld 0x50 4 % storeBytes
def ChainDesc.iscale (d : ChainDesc) : Nat := d.fld 0x54 4 % storeBytes
def ChainDesc.rscale (d : ChainDesc) : W32 := BitVec.ofNat 32 (d.fld 0x58 4)
def ChainDesc.yfmt (d : ChainDesc) (a : AgId) : Nat := bits (d.fld 0x5c 2) (4 * a.val + 3) (4 * a.val)

/-- Fields of a stage entry (R114). -/
def stCode (e : Nat) : Nat := bits e 8 0
def stYsel (e : Nat) : Nat := bits e 11 9
def stVr (e : Nat) : Nat := bits e 17 12
def stYag (e : Nat) : AgId := agOf (bits e 19 18)
def stTee (e : Nat) : Bool := bit e 20

/-- The stages in use. -/
def ChainDesc.stages (d : ChainDesc) : List Nat := (List.range d.nstage).map d.stage

/-- Generators of the Y streams, each once (R117). -/
def ChainDesc.yags (d : ChainDesc) : List AgId := (d.stages.filter fun e => stYsel e = 4).map stYag |>.eraseDups

/-- Whether the chain reads vector registers (R120). -/
def ChainDesc.readsRegs (d : ChainDesc) : Bool := d.src = 3 || d.stages.any fun e => stYsel e = 2
/-- Whether the chain reads the reduction buffer (R120). -/
def ChainDesc.readsRb (d : ChainDesc) : Bool := d.stages.any fun e => stYsel e = 3
/-- Whether the chain writes vector registers. -/
def ChainDesc.writesRegs (d : ChainDesc) : Bool := d.dst = 1
/-- Whether the chain writes the reduction buffer. -/
def ChainDesc.writesRb (d : ChainDesc) : Bool := decide (d.redfn ≠ 0)

/-- Elements of a group: 64, or 128 in packed mode (R110, R116). -/
def ChainDesc.width (d : ChainDesc) : Nat := if d.pack then 128 else 64

/-- The format codes a chain uses are all ones a core may name (R131). -/
def ChainDesc.fmtsOk (d : ChainDesc) : Bool :=
  (d.src ≠ 2 || (Fmt.ofCoreCode d.ifmt).isSome) && (d.dst = 2 || (Fmt.ofCoreCode d.ofmt).isSome) &&
  d.yags.all fun a => (Fmt.ofCoreCode (d.yfmt a)).isSome

/-- The reserved values and combinations of R112 to R117 that do not depend on generators. RSVD bits of the descriptor have
no stated consequence and are ignored (R9). DEDUCED, unsafe (log 15). -/
def ChainDesc.legal (d : ChainDesc) : Bool :=
  d.fmtsOk &&
  decide (d.ngroup ≠ 0) && decide (1 ≤ d.nstage ∧ d.nstage ≤ 8) && decide (d.dst ≠ 3) &&
  decide (d.redfn ≤ 5) && decide (d.rscope ≠ 3) &&
  (d.stages.all fun e => stageListed (stCode e) && decide (stYsel e ≠ 7)) &&
  !(d.pack && (d.isBank || d.redfn ≠ 0 || d.ifmt ≠ 1 || d.ofmt ≠ 1)) &&
  !(d.dst = 1 && d.ofmt ≠ (if d.pack then 1 else 0)) &&
  (let streams := (if d.src = 2 then [d.srcag] else []) ++ (if d.dst = 0 then [d.dstag] else []) ++ d.yags
   decide (streams.eraseDups.length = streams.length))

/-- Element size of a generator against a format (R115). -/
def esizeMatches (g : Ag) (f : Fmt) : Bool := g.esize = f.esize

/-- Whether a chain raises its output format in a replay (R119). -/
def ChainDesc.raises (d : ChainDesc) (ovr : Nat) : Bool := decide (0 < ovr) && d.dst = 0 && !d.pack && d.dstalt ≠ 0

/-- The output format after the raise of R119. -/
def ChainDesc.outFmt (d : ChainDesc) (ovr : Nat) : Fmt :=
  let f := (Fmt.ofCoreCode d.ofmt).getD .fp32
  if d.raises ovr then f.raise ovr else f

/-- Groups the chain runs after the cuts of R116 and R117. -/
def ChainDesc.groups (d : ChainDesc) : Nat :=
  let n := d.ngroup
  let n := if d.isBank then min n (2 * (32 - d.row0)) else n
  let n := if d.src = 3 then min n (64 - d.vsrc) else n
  let n := if d.dst = 1 then min n (64 - d.vdst) else n
  d.stages.foldl (fun n e =>
    if stYsel e = 2 then (if 64 ≤ stVr e + min (n - 1) (d.rowlen - 1) then min n (64 - stVr e) else n)
    else if stYsel e = 3 then min n ((64 - stVr e) * d.rowlen)
    else n) n

/-- Elements of a packed register: lane l holds 2l and 2l + 1 (R110). -/
def unpackBf16 (ls : List W32) : List W32 :=
  (ls.map fun (x : W32) => [x <<< 16, x &&& 0xffff0000#32]).flatten

/-- Lanes of packed elements (R110). -/
def packBf16 : List Nat → List W32
  | a :: b :: r => BitVec.ofNat 32 (a % 65536 + 65536 * (b % 65536)) :: packBf16 r
  | _ => []

/-- The elements of a register in the chain's mode. -/
def Core.regElems (c : Core) (pack : Bool) (r : Nat) : List W32 :=
  let ls := Cells.dense c.regs.v (64 * r) 64
  if pack then unpackBf16 ls else ls

/-- Elements of access g of a read stream of a chain, widened to FP32; after the stream's end +0 (R116, R117). DEDUCED, unsafe (log 39). -/
def streamElems (m : Cells 8) (g : Ag) (f : Fmt) (plane : Option Nat) (w k : Nat) : List W32 :=
  if g.total ≤ k then List.replicate w 0#32
  else
    (g.readAt m w k).zipIdx.map fun e =>
      let sc := match plane with
        | some p => if f.isMx then storeLe m (p + (w / 32) * k + e.2 / 32) 1 else 127
        | none => 127
      f.widen e.1 sc

/-- QDQ of a list of elements with one format each, in blocks of 32 for MX formats (R122, R131, R520): results, their
classes, DOMAIN. A class is none for a reserved format. -/
def qdqList (fmts : List Nat) (xs : List W32) : List (W32 × Option ConvClass) :=
  let zs := (xs.zip fmts).zipIdx
  zs.map fun z =>
    let x := z.1.1
    match Fmt.ofCoreCode z.1.2 with
    | none => (nanFree 0x041 [x, BitVec.ofNat 32 z.1.2], none)
    | some f =>
      if f.isMx then
        let blk := zs.filter fun y => y.2 / 32 = z.2 / 32 && y.1.2 = z.1.2
        let sc := mxScale f (fun _ => .rne) (blk.map fun y => f32 y.1.1)
        if sc = 0xff then (nanFree 0x041 [x, BitVec.ofNat 32 z.1.2], some .nan)
        else
          let (k, cl) := f.narrow .rne ((f32 x).scaleDown ((sc : Int) - 127))
          (f.widen k sc, some cl)
      else let r := qdq f x; (r.1, some r.2)

/-- Working state of a chain over its groups: the registers and reduction buffer as the next group reads them, flags and counts, each group's
final values and converted elements with the scales of their blocks, accesses taken of the Y streams. -/
structure ChainRun where
  regs : CoreRegs
  domain : Bool
  counts : List (Nat × ConvClass × Nat)
  finals : List (List W32)
  outs : List (List (Nat × ConvClass) × List Nat)
  yuses : List (AgId × Nat)

/-- Operand y of a stage for every element of group g (R117); `k` is the Y stream's access number. -/
def stageY (c : Core) (d : ChainDesc) (i e g k : Nat) (src t : List W32) : List W32 :=
  let w := d.width
  match stYsel e with
  | 1 => List.replicate w (d.konst i)
  | 2 => c.regElems d.pack (stVr e + g % d.rowlen)
  | 3 => List.replicate w (Cells.get c.regs.rb (stVr e + g / d.rowlen))
  | 4 =>
    let ag := stYag e
    streamElems c.store (c.ags[ag]) ((Fmt.ofCoreCode (d.yfmt ag)).getD .fp32) none w k
  | 5 => t
  | 6 => src
  | _ => List.replicate w 0#32

/-- Results of a stage over the elements of a group (R117, R118, R122, R520), with DOMAIN and QDQ counts. -/
def stageGroup (d : ChainDesc) (i e g : Nat) (xs ys ts : List W32) : List W32 × Bool × List (Nat × ConvClass × Nat) :=
  let code := stCode e
  let rnd := fun x => if d.pack then roundBf16 x else x
  if code = 0x041 then
    let f := (d.konst i).toNat % 16
    let r := qdqList (xs.map fun _ => f) xs
    (r.map fun x => rnd x.1, r.any fun x => x.2.isNone, r.filterMap fun x => x.2.map fun k => (f, k, 1))
  else if code = 0x050 then ((List.range xs.length).map fun (l : Nat) => rnd (intToF32 l), false, [])
  else if code = 0x051 then (xs.map fun _ => rnd (intToF32 g), false, [])
  else
    let r := (xs.zip (ys.zip ts)).map fun z => stageEval code z.1 z.2.1 z.2.2 (d.konst i)
    (r.map fun x => rnd x.1, r.any (·.2), [])

/-- The source elements of group g (R116). -/
def chainSource (c : Core) (d : ChainDesc) (g : Nat) : List W32 :=
  match d.src with
  | 2 => streamElems c.store (c.ags[d.srcag]) ((Fmt.ofCoreCode d.ifmt).getD .fp32) (some d.iscale) d.width g
  | 3 => c.regElems d.pack (d.vsrc + g)
  | b => Cells.dense c.regs.acc (accKey b (d.row0 + g / 2) (64 * (g % 2))) 64

/-- One group through its stages (R117), but for its conversion. -/
def chainGroup (c : Core) (d : ChainDesc) (r : ChainRun) (g : Nat) : ChainRun :=
  let src := chainSource c d g
  let zero := src.map fun _ => 0#32
  let out := d.stages.zipIdx.foldl (fun (a : List W32 × List W32 × ChainRun) e =>
      let (xs, ts, r) := a
      let ag := stYag e.1
      let k := ((r.yuses.find? fun u => u.1 = ag).map (·.2)).getD 0
      let ys := stageY c d e.2 e.1 g k src ts
      let r := if stYsel e.1 = 4
        then { r with yuses := (ag, k + 1) :: r.yuses.filter fun u => u.1 ≠ ag } else r
      let (zs, dom, cnt) := stageGroup d e.2 e.1 g xs ys ts
      (zs, if stTee e.1 then zs else ts, { r with domain := r.domain || dom, counts := r.counts ++ cnt }))
    (src, zero, r)
  { out.2.2 with finals := out.2.2.finals ++ [out.1] }

/-- Adjacent pairs combined, one level of the tree (R124). -/
def treeLevel (f : W32 → W32 → W32) : List W32 → List W32
  | a :: b :: r => f a b :: treeLevel f r
  | l => l

/-- The tree over a group: six levels (R124). -/
def tree (f : W32 → W32 → W32) (xs : List W32) : W32 :=
  ((List.range 6).foldl (fun l _ => treeLevel f l) xs).headD 0#32

/-- Index of the first maximum of a list, a NaN counting as the maximum; −0 and +0 are equal here (R124). DEDUCED, unsafe (log 102). -/
def argmax (xs : List W32) : Nat :=
  (xs.zipIdx.foldl (fun (b : Nat × W32) x =>
    if (f32 b.2).isNan then b
    else if (f32 x.1).isNan || (f32 b.2).lt (f32 x.1) then (x.2, x.1) else b) (0, xs.headD 0#32)).1

/-- A reduction over the groups of one scope (R124): 1 sum, 2 max, 3 min, 4 argmax, 5 sum of squares. -/
def reduceScope (fn : Nat) (gs : List (List W32)) : W32 :=
  let comb := fun (f : W32 → W32 → W32) (l : List W32) =>
    match l with | [] => 0#32 | x :: r => r.foldl f x
  match fn with
  | 1 => comb fadd (gs.map (tree fadd))
  | 2 => comb fmax (gs.map (tree fmax))
  | 3 => comb fmin (gs.map (tree fmin))
  | 5 => comb fadd (gs.map fun g => tree fadd (g.map fun x => fmul x x))
  | _ => intToF32 (argmax gs.flatten)

/-- Conversion of a group's elements to the output format (R118, R137 to R139): codes with classes and the scales of its
blocks. `pos` is the number of random values already drawn. DEDUCED, unsafe (log 39). -/
def convertGroup (f : Fmt) (round : Bool) (seed : W64) (pos : Nat) (xs : List W32) :
    List (Nat × ConvClass) × List Nat :=
  let md := fun (i : Nat) => if round then RMode.stoch (Config.lfsr seed (pos + i)) else RMode.rne
  if f.isMx then
    let blocks := scopesN 32 xs.length (xs.zipIdx)
    let r := blocks.map fun b => mxBlock f (fun i => md ((b.headD (0#32, 0)).2 + i)) (b.map fun x => f32 x.1)
    ((r.map (·.2)).flatten, r.map (·.1))
  else (xs.zipIdx.map fun x => f.narrow (md x.2) (f32 x.1), [])
where
  /-- Stretches of `k` elements. -/
  scopesN (k : Nat) : Nat → List (W32 × Nat) → List (List (W32 × Nat))
    | 0, _ => []
    | _, [] => []
    | n + 1, l => l.take k :: scopesN k n (l.drop k)

/-- Whether a converted element disagrees with its reference (R154). DEDUCED, unsafe (log 19). -/
def shadowElem (f : Fmt) (thr : Nat) (x q : FVal) : Bool :=
  match x, q with
  | .fin s m e, .fin _ _ _ =>
    let d := Rl.ofF (q.add (x.negate))
    let u : Rl :=
      match f.layout with
      | none => ⟨1, 0⟩
      | some l => if m = 0 then ⟨0, 0⟩ else ⟨1, (Rl.ofF (.fin s m e)).n.natAbs.log2 + e - l.mb⟩
    decide (0 < ((⟨d.n.natAbs, d.e⟩ : Rl).sub ((Rl.ofInt thr).mul u)).n)
  | .fin _ _ _, _ => true
  | _, .fin _ _ _ => true
  | _, _ => false

/-- Bytes a chain's read streams touch in group g; accesses past a stream's end touch nothing (R116, R117). -/
def chainReads (c : Core) (d : ChainDesc) (g : Nat) : List (Nat × Nat) :=
  (if d.src = 2 then
      (c.ags[d.srcag]).spansOf d.width g 1 ++
      (if ((Fmt.ofCoreCode d.ifmt).getD .fp32).isMx && decide (g < (c.ags[d.srcag]).total) then
        [(storeAddr (d.iscale + d.width / 32 * g), d.width / 32)] else [])
    else []) ++
  (d.yags.map fun a =>
    let n := (d.stages.filter fun e => stYsel e = 4 && stYag e = a).length
    (c.ags[a]).spansOf d.width (n * g) n).flatten

/-- Bytes a chain's destination stream writes in group g, with its scale bytes (R116, R118). -/
def chainWrites (c : Core) (d : ChainDesc) (ovr g : Nat) : List (Nat × Nat) :=
  if d.dst = 0 then
    (c.ags[d.dstag]).spansOf d.width g 1 ++
    (if (d.outFmt ovr).isMx && decide (g < (c.ags[d.dstag]).total) then [(storeAddr (d.oscale + d.width / 32 * g), d.width / 32)] else [])
  else []

/-- Whether a set of spans touches any span of another. -/
def spansMeet (a b : List (Nat × Nat)) : Bool := a.any fun x => b.any fun y => overlaps x.1 x.2 y.1 y.2

/-- D of R121: a chain that reads a stream writes a group 4 ACLK after it reads it. -/
def ChainDesc.lag (d : ChainDesc) : Nat := if d.src = 2 || !d.yags.isEmpty then 4 else 0

/-- Groups of a reduction scope; the scope of a chain has `n` (R113, R124). -/
def ChainDesc.scopeLen (d : ChainDesc) (n : Nat) : Nat := match d.rscope with | 0 => 1 | 1 => d.rowlen | _ => max 1 n

/-- Vector lanes that group g of a register destination writes (R116). -/
def ChainDesc.groupRegs (d : ChainDesc) (g : Nat) (out : List (Nat × ConvClass)) : List (Nat × W32) :=
  if d.dst = 1 then
    let ls := if d.pack then packBf16 (out.map (·.1)) else out.map fun y => BitVec.ofNat 32 y.1
    ls.zipIdx.map fun l => (64 * (d.vdst + g) + l.2, l.1)
  else []

/-- The reduction-buffer entry of scope r, none beyond RB63 (R124). -/
def ChainDesc.scopeResult (d : ChainDesc) (k r : Nat) (finals : List (List W32)) : Option (Nat × W32) :=
  if d.rvidx + r < 64 then some (d.rvidx + r, fmul (reduceScope d.redfn ((finals.drop (k * r)).take k)) d.rscale) else none

/-- The registers as group g of `n` reads them: what an earlier group of the chain wrote at least an ACLK before stands there, a result of the reduction
tree 7 ACLK after the last group of its scope (R121). -/
def chainRegs (d : ChainDesc) (n : Nat) (r : ChainRun) (g : Nat) : CoreRegs :=
  let regs := r.regs
  let regs :=
    if d.lag < g then
      { regs with v := (d.groupRegs (g - 1 - d.lag) ((r.outs[g - 1 - d.lag]?).getD ([], [])).1).foldl (fun m x => Cells.set m x.1 x.2) regs.v }
    else regs
  let k := d.scopeLen n
  if d.redfn ≠ 0 ∧ d.lag + 8 ≤ g ∧ (g - 7 - d.lag) % k = 0 then
    match d.scopeResult k ((g - 7 - d.lag) / k - 1) r.finals with
    | some x => { regs with rb := Cells.set regs.rb x.1 x.2 }
    | none => regs
  else regs

/-- Group g of `n` read, staged and converted (R116 to R118, R121). -/
def chainStep (c : Core) (ch : Chain) (d : ChainDesc) (n : Nat) (r : ChainRun) (g : Nat) : ChainRun :=
  let regs := chainRegs d n r g
  let r := chainGroup { c with regs := regs } d { r with regs := regs } g
  let xs := r.finals.getLastD []
  { r with outs := r.outs ++ [convertGroup (d.outFmt ch.ovr) ch.round c.num.lfsrSeed (c.num.lfsrPos + d.width * g) xs] }

/-- The outputs of a chain whose streams have started (R116 to R124, R153, R154, R157). DEDUCED, safe (log 16). -/
def Core.runChain (c : Core) (env : CoreEnv) (ch : Chain) (d : ChainDesc) (shadow : Bool) : ChainOut :=
  let n := d.groups
  let r := (List.range n).foldl (chainStep c ch d n) ⟨c.regs, false, [], [], [], []⟩
  let f := d.outFmt ch.ovr
  let g := c.ags[d.dstag]
  let conv := (r.finals.zip r.outs).zipIdx.map fun x => (x.1.1, x.2, x.1.2)
  let hasOut := d.dst ≠ 2
  let counts := if hasOut then (conv.map fun x => x.2.2.1.map fun y => (f.code, y.2, 1)).flatten else []
  let stores :=
    if d.dst = 0 then
      (conv.map fun x =>
        if g.total ≤ x.2.1 then []
        else (if g.padding x.2.1 then [] else g.writeAt x.2.1 (x.2.2.1.map (·.1))) ++
          (if f.isMx then [(storeAddr (d.oscale + d.width / 32 * x.2.1), x.2.2.2.map (BitVec.ofNat 8 ·))] else [])).flatten
    else []
  let k := d.scopeLen n
  let results := if d.redfn = 0 then 0 else ceilDiv n k
  let rbs := (List.range results).filterMap fun i => d.scopeResult k i r.finals
  let written := conv.filter fun x => d.dst = 1 || (d.dst = 0 && x.2.1 < g.total && !g.padding x.2.1)
  let outNan := written.any fun x => x.2.2.1.zipIdx.any fun y =>
    (f.value y.1.1 (x.2.2.2.getD (y.2 / 32) 127)).isNan
  let dis := (conv.map fun x => ((x.1.zip x.2.2.1).zipIdx.filter fun y =>
    let ref := f32 y.1.1
    let ref := if env.probe then bf16.decode (bf16.narrow .rne ref).1 else ref
    shadowElem f env.shadowThr ref (f.value y.1.2.1 (x.2.2.2.getD (y.2 / 32) 127))).length).foldl (· + ·) 0
  let under :=
    (d.src = 2 && (c.ags[d.srcag]).total < n) ||
    (r.yuses.any fun u => (c.ags[u.1]).total < u.2) ||
    (d.dst = 0 && g.total < n)
  { stores := stores, regs := (conv.map fun x => d.groupRegs x.2.1 x.2.2.1).flatten, rbs := rbs, counts := counts ++ r.counts,
    ovf := if hasOut then (counts.filter fun x => x.2.1 = .ovf).length else 0,
    elems := written.length * d.width, domain := r.domain, nanOut := outNan || rbs.any fun x => (f32 x.2).isNan,
    span := decide (n < d.ngroup) || decide (rbs.length < results),
    noraise := decide (0 < ch.ovr) && !d.raises ch.ovr, underrun := under, fmt := f.code,
    shadow := if shadow then some (decide (conv.length * d.width < 64 * dis)) else none,
    draws := if hasOut && ch.round then n * d.width else 0,
    reads := ((List.range n).map fun g => chainReads c d g).flatten,
    ags := (if d.src = 2 then [(d.srcag, n)] else []) ++ (if d.dst = 0 then [(d.dstag, n)] else []) ++ r.yuses, read := false }

/-- Whether a chain's destination stream writes what a later group of its own streams reads (R128). -/
def chainOverlaps (c : Core) (d : ChainDesc) (ovr : Nat) : Bool :=
  d.dst = 0 && (List.range d.groups).any fun g =>
    let w := chainWrites c d ovr g
    (List.range (d.groups - g - 1)).any fun k => spansMeet w (chainReads c d (g + 1 + k))

/-- Whether a chain names a descriptor at all: a misaligned one reads none (R112). -/
def Chain.hasDesc (ch : Chain) : Bool := ch.addr % 16 = 0

/-- Whether a chain reads an accumulator bank (R52). -/
def Chain.readsBank (ch : Chain) (bank : Nat) : Bool := ch.hasDesc && (ChainDesc.mk ch.desc).src = bank

/-- The queued chain whose turn it is, when the bank, register and reduction-buffer conditions of R120 hold. A pass of the bundle that
issued the chain counts as issued before it. DEDUCED, unsafe (log 99). -/
def Core.nextChain (c : Core) : Option Chain :=
  match c.vec.chains.find? (fun ch => ch.out.isNone) with
  | none => none
  | some ch =>
    let d : ChainDesc := ⟨ch.desc⟩
    let before := c.vec.chains.filter fun x => x.seq < ch.seq
    if !ch.hasDesc then some ch
    else if d.isBank && c.bankWriter d.src ch.seq then none
    else if d.readsRegs && before.any fun x => (ChainDesc.mk x.desc).writesRegs then none
    else if d.readsRb && before.any fun x => (ChainDesc.mk x.desc).writesRb then none
    else some ch

/-- Generators a chain starts (R116). -/
def ChainDesc.starts (d : ChainDesc) : List AgId :=
  (if d.src = 2 then [d.srcag] else []) ++ (if d.dst = 0 then [d.dstag] else []) ++ d.yags

/-- The core with the alternate destination descriptor of R119 loaded; none where the descriptor is one `d.agld` refuses. DEDUCED, unsafe (log 15). -/
def Core.loadAlt (c : Core) (d : ChainDesc) (ovr : Nat) : Option Core :=
  if d.raises ovr then
    let x := agDescAt c.store (d.dstalt + 64 * (ovr - 1))
    if agDescOk x then some (c.setAg d.dstag { c.ags[d.dstag] with desc := x }) else none
  else some c

/-- Sizes of a chain's streams against their formats (R115). -/
def Core.chainSizes (c : Core) (d : ChainDesc) (ovr : Nat) : Bool :=
  (d.src ≠ 2 || esizeMatches (c.ags[d.srcag]) ((Fmt.ofCoreCode d.ifmt).getD .fp32)) &&
  (d.dst ≠ 0 || esizeMatches (c.ags[d.dstag]) (d.outFmt ovr)) &&
  d.yags.all fun a => esizeMatches (c.ags[a]) ((Fmt.ofCoreCode (d.yfmt a)).getD .fp32)

/-- Whether a chain is to be shadowed and the new count of chains (R153, R155). DEDUCED, unsafe (log 19). -/
def Core.shadowed (c : Core) (env : CoreEnv) (ch : Chain) (d : ChainDesc) : Bool × Nat :=
  let f := d.outFmt ch.ovr
  let layer := c.layerOf ch.seg
  if d.dst = 2 || env.noshadow layer then (false, c.num.shadowCnt)
  else if env.probe then (decide (f.level ≤ 2 ∧ env.phase layer ≤ 1), c.num.shadowCnt)
  else if !f.narrowFmt || env.shadowPeriod = 0 then (false, c.num.shadowCnt)
  else (c.num.shadowCnt % env.shadowPeriod = c.ctl.vcid.toNat % env.shadowPeriod, c.num.shadowCnt + 1)

/-- What CHAIN_START comes to. -/
inductive ChainStart where
  /-- Nothing can start. -/
  | none
  /-- The chain holds a reserved value: fault ILLEGAL_OP at the PC of its bundle, and the queue behind it is discarded
  (R115, R127). -/
  | illegal (pc : Nat) (c : Core)
  /-- The chain has started. -/
  | started (c : Core)

/-- The last groups of the started chains read, so that their generators have moved past what they took (R59, R120). -/
def Core.chainsRead (c : Core) : Core :=
  c.vec.chains.foldl (fun (c : Core) ch =>
    match ch.out with
    | some o =>
      if o.read then c
      else
        let c := o.ags.foldl (fun (c : Core) x => c.setAg x.1 ((c.ags[x.1]).advance x.2)) c
        { c with vec := { c.vec with chains := c.vec.chains.map fun x => if x.seq = ch.seq then { x with out := some { o with read := true } } else x } }
    | none => c) c

/-- CHAIN_START: checks, streams, and what the chain will write (R115, R116, R119, R120, R127); the chain before it has read its last group.
Outputs that an undefined case reaches are free (R80, R128). DEDUCED, safe (log 16). DEDUCED, safe (log 43). -/
def Core.chainStart (c : Core) (env : CoreEnv) : ChainStart :=
  match c.nextChain with
  | none => .none
  | some ch =>
    let c := c.chainsRead
    let d : ChainDesc := ⟨ch.desc⟩
    let bad := ChainStart.illegal ch.pc
      { c with vec := { c.vec with chains := c.vec.chains.filter fun x => x.seq < ch.seq } }
    if !ch.hasDesc || !d.legal then bad
    else
      let clash := d.raises ch.ovr && (c.ags[d.dstag]).active
      let c := if clash then c.agClash env.free d.dstag else c
      match if clash then some c else c.loadAlt d ch.ovr with
      | none => bad
      | some c =>
        if !clash && !c.chainSizes d ch.ovr then bad
        else
          let busy := clash || d.starts.any fun a => (c.ags[a]).active
          let c := d.starts.foldl (fun (c : Core) a => c.startAg env.free a) c
          let spoilt := ch.spoilt || busy || chainOverlaps c d ch.ovr
          let (sh, cnt) := c.shadowed env ch d
          let out := c.runChain env ch d sh
          let ch := { ch with out := some out, spoilt := spoilt }
          .started { c with
            num := { c.num with lfsrPos := c.num.lfsrPos + out.draws, shadowCnt := cnt }
            vec := { c.vec with chains := c.vec.chains.map fun x => if x.seq = ch.seq then ch else x } }

/-- Adding up the telemetry counts of a chain. -/
def Core.countAll (c : Core) (seg : Bool) : List (Nat × ConvClass × Nat) → Core × List CoreEv
  | [] => (c, [])
  | x :: xs =>
    let (c, e1) := c.count seg x.1 fun t => t.bump x.2.1 x.2.2
    let (c, e2) := c.countAll seg xs
    (c, e1 ++ e2)

/-- The outputs of a chain that an undefined case reaches: free bytes and words in the places it writes (R80, R81, R128). DEDUCED, safe (log 43). -/
def ChainOut.wild (o : ChainOut) (fr : Nat) : ChainOut :=
  { o with
    stores := o.stores.zipIdx.map fun x => (x.1.1, freeBytes (fr + 512 * x.2) x.1.2.length)
    regs := o.regs.zipIdx.map fun x => (x.1.1, (Config.fresh (fr + x.2)).setWidth 32)
    rbs := o.rbs.zipIdx.map fun x => (x.1.1, (Config.fresh (fr + 8192 + x.2)).setWidth 32) }

/-- CHAIN_COMPLETE, but for its writes of the core store and the post: registers, reductions, counts, flags (R116, R118, R121, R123,
R154, R157). DEDUCED, safe (log 16). DEDUCED, unsafe (log 39). DEDUCED, unsafe (log 40). -/
def Core.chainFinish (c : Core) (ch : Chain) (o : ChainOut) : Core × List CoreEv :=
  let d : ChainDesc := ⟨ch.desc⟩
  let c := { c with
    regs := { c.regs with
      v := o.regs.foldl (fun m x => Cells.set m x.1 x.2) c.regs.v
      rb := o.rbs.foldl (fun m x => Cells.set m x.1 x.2) c.regs.rb }
    vec := { c.vec with
      chains := c.vec.chains.filter fun x => x.seq ≠ ch.seq
      elems := c.vec.elems + BitVec.ofNat 64 o.elems
      ofmtLast := if d.dst = 2 then c.vec.ofmtLast else o.fmt
      domain := c.vec.domain || o.domain
      nanOut := c.vec.nanOut || o.nanOut
      span := c.vec.span || o.span
      noraise := c.vec.noraise || o.noraise
      underrun := c.vec.underrun || o.underrun } }
  let c := if o.read then c else o.ags.foldl (fun (c : Core) x => c.setAg x.1 ((c.ags[x.1]).advance x.2)) c
  let (c, e1) := c.countAll ch.seg o.counts
  let (c, e2) := c.overflow ch.seg false o.fmt o.ovf
  let (c, e3) :=
    match o.shadow with
    | none => (c, [])
    | some dis =>
      let c := { c with num := { c.num with shadowDis := c.num.shadowDis || dis } }
      c.count ch.seg o.fmt fun t =>
        { t with shadowN := t.shadowN + 1, shadowDis := t.shadowDis + if dis then 1 else 0 }
  (c, e1 ++ e2 ++ e3)

/-- The started chain that completes: a chain with fewer ACLK to its last write may pass those before it, so which one is free (R121). DESIGN CHOICE, safe (log 100). -/
def Core.endingChain (c : Core) (fr : Nat) : Option Chain :=
  let xs := c.vec.chains.filter fun ch => ch.out.isSome
  xs[(Config.fresh fr).toNat % xs.length]?

/-- Issue of `v.chain` (R53, R111, R112, R118): the descriptor is read whole, ROUND and FMT_OVR are sampled, ROUND as the bundle found it (R45). DEDUCED, unsafe (log 8). -/
def Core.issueChain (c pre : Core) (rs : W64) (post : Option SemId) : Core :=
  let a := storeAddr rs.toNat
  let ch : Chain :=
    { seq := c.seq, post := post, addr := a, desc := if a % 16 = 0 then storeRead c.store a 128 else List.replicate 128 0#8,
      pc := c.regs.pc, round := pre.num.round, seg := c.seg.isOpen, ovr := if c.seg.isOpen then c.seg.fmtOvr else 0,
      out := none, spoilt := false }
  { c with seq := c.seq + 1, vec := { c.vec with chains := c.vec.chains ++ [ch] } }

/-- Vector register loads (R53, R57, R59): an inactive generator starts a new stream. -/
def Core.agNext (c : Core) (i : AgId) : Ag := if (c.ags[i]).active then c.ags[i] else (c.ags[i]).start c.regs i

/-- `v.ld` (R53). The DIR bit of a generator has no stated effect and none here (R56). DEDUCED, unsafe (log 101). -/
def Core.vld (c : Core) (vd : VReg) (i : AgId) : Core :=
  let g := c.agNext i
  let xs := (g.readAt c.store 64 g.taken).map fun x => BitVec.ofNat 32 x
  { c.setAg i (g.advance 1) with regs := c.regs.vset vd.val xs }

/-- `v.st` (R53): the stretches written and the core with the generator advanced. DEDUCED, unsafe (log 101). -/
def Core.vst (c : Core) (vs : VReg) (i : AgId) : List (Nat × List Byte) × Core :=
  let g := c.agNext i
  (g.writeAt g.taken ((c.regs.vget vs.val).map (·.toNat)), c.setAg i (g.advance 1))

/-- `v.acc` (R53). -/
def Core.vacc (c : Core) (vd : VReg) (bank half : Bool) (row : Fin 32) : Core :=
  let k := accKey (if bank then 1 else 0) row.val (if half then 64 else 0)
  { c with regs := c.regs.vset vd.val (Cells.dense c.regs.acc k 64) }

/-- `v.red` (R53, R124). -/
def vred (fn : BitVec 4) (xs : List W32) : W32 := reduceScope (fn.toNat + 1) [xs]

/-- `v.op`: one stage over two registers, T and S the old content of vd, C +0 (R53, R122, R123, R131, R520). -/
def vop (code : Nat) (va vb vd : List W32) : List W32 × Bool :=
  if code = 0x041 then
    let r := qdqList (vb.map fun y => y.toNat % 16) va
    (r.map (·.1), r.any fun x => x.2.isNone)
  else if code = 0x050 then ((List.range 64).map fun (l : Nat) => intToF32 l, false)
  else if code = 0x051 then (va.map fun _ => 0#32, false)
  else
    let r := (va.zip (vb.zip vd)).map fun z => stageEval code z.1 z.2.1 z.2.2 0#32
    (r.map (·.1), r.any (·.2))

end Sys2Proof.Machine
end

