-- ==== Sys2Proof/Machine/Sequencer.lean ====
section
/-! DEFINITION. The sequencer: a bundle's faults, stalls and effects (R40 to R73, R78, R79, R518, R519), as functions of
one core. What needs the rest of the module comes out as a request. -/

namespace Sys2Proof.Machine

/-- Fault codes of R79. -/
def fIllegal : Nat := 0x01
def fPcRange : Nat := 0x02
def fLoopOvf : Nat := 0x03
def fImemBad : Nat := 0x04
def fSegNest : Nat := 0x05
def fSegNone : Nat := 0x06
def fSegClass : Nat := 0x07
def fSegLimit : Nat := 0x08
def fSegHalt : Nat := 0x09
def fSemClass : Nat := 0x0a
def fArgRange : Nat := 0x0b
def fStoreEcc : Nat := 0x0c

/-- The slots of a bundle that execute: a guarded-off slot is a no-op (R44), `none` an illegal encoding that executes. -/
structure Live where
  s : Option SOp
  m : Option MOp
  v : Option VOp
  d : Option DOp
  deriving DecidableEq, Repr

/-- The executing slots of a bundle (R44, R47). -/
def Bundle.live (b : Bundle) (r : CoreRegs) : Live :=
  { s := if b.sg.holds r then b.s else some .nop
    m := if b.mg.holds r then b.m else some .nop
    v := if b.vg.holds r then b.v else some .nop
    d := if b.dg.holds r then b.d else some .nop }

/-- Whether a semaphore is in the segment class (R60). -/
def segSem (s : SemId) : Bool := decide (40 ≤ s.val ∧ s.val ≤ 47)

/-- The class rule of R61 for a named semaphore. -/
def semClassOk (inSeg : Bool) (s : Option SemId) : Bool :=
  match s with
  | none => true
  | some x => segSem x = inSeg

/-- Decode fault of the scalar slot (R47, R68). -/
def SOp.fault (inSeg : Bool) : Option SOp → Option Nat
  | none => some fIllegal
  | some .halt => if inSeg then some fSegHalt else none
  | some _ => none

/-- Decode fault of the matrix slot (R47, R61). -/
def MOp.fault (inSeg : Bool) : Option MOp → Option Nat
  | none => some fIllegal
  | some (.bload _ p _) => if semClassOk inSeg p then none else some fSemClass
  | some (.pass _ _ _ p _) => if semClassOk inSeg p then none else some fSemClass
  | some _ => none

/-- Decode fault of the vector slot (R47, R61). -/
def VOp.fault (inSeg : Bool) : Option VOp → Option Nat
  | none => some fIllegal
  | some (.chain _ p) => if semClassOk inSeg p then none else some fSemClass
  | some _ => none

/-- Decode fault of the move/sync slot (R47, R61, R67, R68, R70). An asynchronous operation that a segment bars and that also names a semaphore of
another class reports the segment rule. DEDUCED, unsafe (log 6). -/
def DOp.fault (inSeg : Bool) : Option DOp → Option Nat
  | none => some fIllegal
  | some .nop => none
  | some (.agld _ _) => none
  | some (.copy _ _ _ p) => if semClassOk inSeg p then none else some fSemClass
  | some (.wait s _) => if semClassOk inSeg (some s) then none else some fSemClass
  | some (.post s _) => if semClassOk inSeg (some s) then none else some fSemClass
  | some (.seg _) => if inSeg then some fSegNest else none
  | some .commit => if inSeg then none else some fSegNone
  | some (.async _ _ p) => if inSeg then some fSegClass else if semClassOk inSeg p then none else some fSemClass
  | some (.postr _ _ _) => if inSeg then some fSegClass else none

/-- The decode fault of a bundle, slots taken in the order S, M, V, D. DEDUCED, unsafe (log 6). -/
def Live.fault (l : Live) (inSeg : Bool) : Option Nat :=
  (SOp.fault inSeg l.s).or ((MOp.fault inSeg l.m).or ((VOp.fault inSeg l.v).or (DOp.fault inSeg l.d)))

/-- Operations outstanding at the move/sync port (R55). -/
def Core.outstanding (c : Core) : Nat := c.ops.length + c.vec.chains.length

/-- Whether an operation needs a place among the 32 of R55. DEDUCED, safe (log 24). -/
def Live.needs (l : Live) : Nat :=
  (match l.v with | some (.chain _ _) => 1 | _ => 0) +
  (match l.d with | some (.async _ _ _) => 1 | some (.copy _ _ _ _) => 1 | some (.postr _ _ _) => 1 | _ => 0)

/-- A combiner operation in flight (R227, R230). -/
def Op.isCombiner (o : Op) : Bool :=
  match o.body with | .scatter _ _ | .flush _ | .combiner _ _ => true | _ => false

/-- A control register of the reduction buffer. -/
def isRbCsr (n : Nat) : Bool := decide (0x0c0 ≤ n ∧ n ≤ 0x0ff)

/-- Whether the scalar slot must wait: reduction-buffer registers (R120), CMB_CFG (R230). -/
def Core.stallS (c : Core) : Option SOp → Bool
  | some (.csrr _ n) => isRbCsr n.toNat && c.vec.chains.any fun ch => (ChainDesc.mk ch.desc).writesRb
  | some (.csrw n _) =>
    (isRbCsr n.toNat && c.vec.chains.any fun ch => (ChainDesc.mk ch.desc).writesRb) ||
    (n.toNat = 0x110 && c.ops.any Op.isCombiner)
  | _ => false

/-- Whether the matrix slot must wait: full queues (R51), bank interlock (R52). -/
def Core.stallM (c : Core) : Option MOp → Bool
  | some (.bload _ _ _) => decide (2 ≤ c.arr.loads.length)
  | some (.pass _ bank _ _ _) =>
    decide (4 ≤ c.arr.passes.length) || c.vec.chains.any fun ch => ch.readsBank (if bank then 1 else 0)
  | _ => false

/-- Whether the vector slot must wait: the chain queue, earlier chains (R111), the bank interlock (R52). -/
def Core.stallV (c : Core) : Option VOp → Bool
  | some .nop => false
  | some (.chain _ _) => decide (4 ≤ c.vec.chains.length)
  | some (.acc _ bank _ _) => !c.vec.chains.isEmpty || c.bankWriter (if bank then 1 else 0) c.seq
  | some _ => !c.vec.chains.isEmpty
  | none => false

/-- Whether every operation issued inside the open segment has completed (R70). -/
def Core.segIdle (c : Core) : Bool :=
  !(c.arr.passes.any (·.seg)) && !(c.arr.loads.any (·.seg)) && !(c.vec.chains.any (·.seg)) && !(c.ops.any (·.seg))

/-- Whether the move/sync slot must wait for something other than a semaphore: `y.commit` (R70). -/
def Core.stallD (c : Core) : Option DOp → Bool
  | some .commit => !c.segIdle
  | _ => false

/-- Whether `y.wait` must wait (R62). -/
def Core.waitsSem (c : Core) : Option DOp → Bool
  | some (.wait s n) => decide ((c.regs.sem[s]).toNat < n.toNat)
  | _ => false

/-- A span of the core store cut at its end, where addresses wrap (R41). -/
def spanCut (a n : Nat) : List (Nat × Nat) :=
  let a := storeAddr a
  if a + n ≤ storeBytes then [(a, n)] else [(a, storeBytes - a), (0, min (n - (storeBytes - a)) storeBytes)]

/-- The generator of a stream: as it stood when the stream started, or as a start now would leave it. -/
def Core.streamOf (c : Core) (src : Option Ag) (i : AgId) : Ag := src.getD ((c.ags[i]).start c.regs i)

/-- Spans of the core store that a pass in the queue reads: its a-stream and its scale plane (R81). -/
def Pass.reads (c : Core) (p : Pass) : List (Nat × Nat) :=
  (c.streamOf p.src p.ag).spansOf 32 0 p.count ++ (if p.cfg.fmta.isMx then spanCut p.mxsA p.count else [])

/-- Spans that a load in the queue reads: its stream, scale and index planes (R81). -/
def Load.reads (c : Core) (l : Load) : List (Nat × Nat) :=
  let n := storedSteps l.cfg l.count
  (c.streamOf l.src l.ag).spansOf 128 0 n ++ (if l.cfg.fmtb.isMx then spanCut l.mxsB (4 * n) else []) ++
    (if l.cfg.paired then spanCut l.spxB (32 * n) else [])

/-- Spans that a chain in the queue reads or writes; those of one that has not started are what its descriptor gives now (R81). DEDUCED, unsafe (log 103). -/
def Chain.spans (c : Core) (ch : Chain) : List (Nat × Nat) :=
  match ch.out with
  | some o => o.reads ++ o.stores.map fun w => (storeAddr w.1, w.2.length)
  | none =>
    let d : ChainDesc := ⟨ch.desc⟩
    if !ch.hasDesc || !d.legal then []
    else
      let alt := d.raises ch.ovr
      let c := { c with ags := Vector.ofFn fun (i : Fin 4) =>
        if alt && i = d.dstag then ({ c.ags[i] with desc := agDescAt c.store (d.dstalt + 64 * (ch.ovr - 1)) } : Ag).start c.regs i
        else (c.ags[i]).start c.regs i }
      ((List.range d.groups).map fun g => chainReads c d g ++ chainWrites c d ch.ovr g).flatten

/-- Whether the unfinished operation number `own` is the one whose access is judged; 0 names none. -/
def Op.uses (o : Op) (ws : List (Nat × Nat)) : Bool := spansMeet ws (o.reads ++ o.writes)

/-- Whether a write of `ws` on behalf of operation `own` meets a region that another unfinished operation of the core reads or writes (R81). -/
def Core.races (c : Core) (own : Nat) (ws : List (Nat × Nat)) : Bool :=
  (c.ops.any fun o => o.id ≠ own && o.uses ws) || (c.vec.chains.any fun ch => ch.seq ≠ own && spansMeet ws (ch.spans c)) ||
  (c.arr.passes.any fun p => spansMeet ws (p.reads c)) || (c.arr.loads.any fun l => spansMeet ws (l.reads c))

/-- The operations whose region a write meets, marked: their results become free (R81). DEDUCED, safe (log 43). -/
def Core.spoil (c : Core) (own : Nat) (ws : List (Nat × Nat)) : Core :=
  let hit := (c.arr.loads.filter fun l => spansMeet ws (l.reads c)).map (·.seq)
  { c with
    ops := c.ops.map fun o => if o.id ≠ own && o.uses ws then { o with spoilt := true } else o
    vec := { c.vec with chains := c.vec.chains.map fun ch =>
      if ch.seq ≠ own && spansMeet ws (ch.spans c) then { ch with spoilt := true } else ch }
    arr := { c.arr with
      passes := c.arr.passes.map fun p => if spansMeet ws (p.reads c) then { p with spoilt := true } else p
      loads := c.arr.loads.map fun l => if hit.contains l.seq then { l with spoilt := true } else l
      ring := c.arr.ring.map fun s => if hit.contains s.2.load then (s.1, s.2.wild) else s } }

/-- CMB_BASE, CMB_ENTRIES (0 for a reserved value) and the pitch in bytes (R230). -/
def CmbSt.base (m : CmbSt) : Nat := bits m.cfg.toNat 21 0
def CmbSt.size (m : CmbSt) : Nat :=
  let n := bits m.cfg.toNat 34 22
  if 8 ≤ n ∧ n ≤ 4096 ∧ n % 8 = 0 then n else 0
def CmbSt.pitch (m : CmbSt) : Nat :=
  let p := bits m.cfg.toNat 43 35
  16 * (if p = 0 ∨ 256 < p then 256 else p)

/-- The value area of the combiner (R224, R230). -/
def CmbSt.area (m : CmbSt) : List (Nat × Nat) := spanCut m.base (m.size * m.pitch)

/-- A declared input of the open segment has been written (R72): the core's store, what the segment has put into accumulators, vector registers and the
reduction buffer, and its telemetry are free. DEDUCED, safe (log 43). -/
def Core.segSpoilt (c : Core) (fr : Nat) : Core :=
  { c with
    store := Cells.putDense c.store 0 (freeBytes fr storeBytes)
    regs := { c.regs with acc := Cells.putDense c.regs.acc 0 (freeWords (fr + 1) 8192), v := Cells.putDense c.regs.v 0 (freeWords (fr + 2) 4096)
                          rb := Cells.putDense c.regs.rb 0 (freeWords (fr + 3) 64) }
    num := { c.num with held := c.num.held.map fun e => { e with total := (Config.fresh (fr + 4)).toNat, ovf := (Config.fresh (fr + 5)).toNat } } }

/-- Writing the core store on behalf of operation number `own` (0 for an instruction or another unit); `fr` names free values. What meets a region in use
(R81), the combiner's value area while it holds entries (R229; `cmb` tells that the combiner itself writes) or a declared input of the open
segment (R72) goes on with free values in the reach of the rule. DEDUCED, safe (log 43). -/
def Core.writeStore (c : Core) (fr own : Nat) (cmb : Bool) (a : Nat) (bs : List Byte) : Core :=
  let ws := spanCut a bs.length
  if bs.isEmpty then c
  else
    let c := if c.races own ws then ({ c with store := storePut c.store a (freeBytes fr bs.length) } : Core).spoil own ws
      else { c with store := storePut c.store a bs }
    let c := if !cmb && !c.cmb.entries.isEmpty && spansMeet ws c.cmb.area then
        { c with store := storePut c.store c.cmb.base (freeBytes (fr + 64) (c.cmb.size * c.cmb.pitch)) } else c
    if c.seg.isOpen && spansMeet ws c.seg.regions then c.segSpoilt (fr + 128) else c

/-- Several writes. -/
def Core.writeAll (c : Core) (fr own : Nat) (ws : List (Nat × List Byte)) : Core :=
  ws.foldl (fun c w => c.writeStore fr own false w.1 w.2) c

/-- The two-source operations (R48). -/
def AluOp.eval (op : AluOp) (a b : W64) : W64 :=
  match op with
  | .add => a + b | .sub => a - b | .and => a &&& b | .or => a ||| b | .xor => a ^^^ b
  | .shl => a <<< (b.toNat % 64) | .shr => a >>> (b.toNat % 64) | .sra => a.sshiftRight (b.toNat % 64)
  | .mul => a * b
  | .min => if b.slt a then b else a
  | .max => if a.slt b then b else a

/-- Low 32 bits of a register as an FP32 code (R48). -/
def lo32 (x : W64) : W32 := x.setWidth 32

/-- Comparisons of `s.cmp` (R48); a function above 7 does not occur in a legal slot. -/
def cmpEval (fn : Nat) (a b : W64) : Bool :=
  match fn with
  | 0 => a = b
  | 1 => a ≠ b
  | 2 => a.slt b
  | 3 => !a.slt b
  | 4 => a.ult b
  | 5 => !a.ult b
  | 6 => (f32 (lo32 a)).lt (f32 (lo32 b))
  | _ => (f32 (lo32 a)).lt (f32 (lo32 b)) || (f32 (lo32 a)).eqv (f32 (lo32 b))

/-- Predicate operations of `s.pop` (R48). -/
def popEval (fn : Nat) (a b : Bool) : Bool :=
  match fn with
  | 0 => a && b
  | 1 => a || b
  | 2 => a != b
  | _ => a && !b

/-- Sign extension of a 12-bit immediate. -/
def imm64 (i : BitVec 12) : W64 := i.signExtend 64

/-- The second operand of `s.cmpi`: IMM12, converted to FP32 for functions 6 and 7 (R48). -/
def cmpiOperand (fn : Nat) (i : BitVec 12) : W64 :=
  if fn < 6 then imm64 i else (intToF32 i.toInt).setWidth 64

/-- FP32 operations of the scalar slot; `d` is the old destination (R48). -/
def FpOp.eval (op : FpOp) (d a b : W64) : W64 :=
  (match op with
   | .fadd => Machine.fadd (lo32 a) (lo32 b)
   | .fmul => Machine.fmul (lo32 a) (lo32 b)
   | .fma => ffma (lo32 d) (lo32 a) (lo32 b)).setWidth 64

/-- `s.fcvt` (R48). -/
def fcvtEval (fn : Nat) (a : W64) : W64 :=
  if fn = 0 then (intToF32 a.toInt).setWidth 64 else f32ToInt (lo32 a)

/-- Address of `s.ld` and `s.st`: rs1 + 8 × IMM12 (R48). -/
def ldAddr (a : W64) (i : BitVec 12) : Nat := (a + 8 * imm64 i).toNat

/-- Where the PC goes after the bundle: the next bundle, a jump, a new loop, or the end of the work item. -/
inductive Flow where
  | seq
  | jump (pc : Nat)
  | loop (count body : Nat)
  | halt
  deriving DecidableEq, Repr

/-- A jump target: PC + OFF22 as a whole number; a negative one lies beyond every image (R48, R49). DEDUCED, unsafe (log 5). -/
def jumpTarget (pc : Nat) (off : BitVec 22) : Nat := (((pc : Int) + off.toInt).emod (2 ^ 22)).toNat

/-- The scalar register a scalar slot writes (R46, R48). -/
def SOp.dest : SOp → Option SReg
  | .alu _ rd _ _ | .addi rd _ _ | .li rd _ | .sli rd _ | .ld rd _ _ | .fp _ rd _ _ | .fcvt rd _ _ | .csrr rd _ => some rd
  | .call _ => some 31
  | _ => none

/-- The effect of a scalar slot on the core whose registers the slots read in `r` (R45, R48). -/
def Core.execS (c : Core) (env : CoreEnv) (r : CoreRegs) : SOp → Core
  | .alu op rd a b => { c with regs := c.regs.sset rd (op.eval (r.sget a) (r.sget b)) }
  | .addi rd a i => { c with regs := c.regs.sset rd (r.sget a + imm64 i) }
  | .li rd i => { c with regs := c.regs.sset rd (i.signExtend 64) }
  | .sli rd i => { c with regs := c.regs.sset rd ((r.sget rd <<< 16) ||| i.setWidth 64) }
  | .cmp pd a b fn => { c with regs := c.regs.pset pd (cmpEval fn.toNat (r.sget a) (r.sget b)) }
  | .cmpi pd a i fn =>
    { c with regs := c.regs.pset pd (cmpEval fn.toNat (r.sget (sregOf a.val)) (cmpiOperand fn.toNat i)) }
  | .pop pd a b fn => { c with regs := c.regs.pset pd (popEval fn.toNat (r.pget a) (r.pget b)) }
  | .ld rd a i => { c with regs := c.regs.sset rd (BitVec.ofNat 64 (storeLe c.store (ldAddr (r.sget a) i) 8)) }
  | .st rd a i => c.writeStore env.free 0 false (ldAddr (r.sget a) i) (toLe 8 (r.sget rd).toNat)
  | .fp op rd a b => { c with regs := c.regs.sset rd (op.eval (r.sget rd) (r.sget a) (r.sget b)) }
  | .fcvt rd a fn => { c with regs := c.regs.sset rd (fcvtEval fn.toNat (r.sget a)) }
  | .csrr rd n =>
    let x := c.csrRead env n.toNat
    { c with regs := c.regs.sset rd x, ctl := { c.ctl with cycle := if n.toNat = 0x00a then x else c.ctl.cycle } }
  | .csrw n a => c.csrWrite n.toNat (r.sget a)
  | .call _ => { c with regs := c.regs.sset 31 (BitVec.ofNat 64 (r.pc + 1)) }
  | .nop | .jmp _ | .ret | .loop _ _ | .halt => c

/-- Where a scalar slot sends the PC (R48, R49). -/
def SOp.flow (r : CoreRegs) : SOp → Flow
  | .jmp off | .call off => .jump (jumpTarget r.pc off)
  | .ret => .jump ((r.sget 31).toNat % 2 ^ 14)
  | .loop a body => .loop (r.sget a).toNat body.toNat
  | .halt => .halt
  | _ => .seq

/-- The effect of a matrix slot (R50); `pre` is the core as the bundle found it. -/
def Core.execM (c pre : Core) : MOp → Core
  | .nop => c
  | .cfg a b sp => { c with mcfg := (mcfgOf a b sp).getD c.mcfg }
  | .bload ag post k => c.issueLoad pre ag post (pre.regs.sget k)
  | .pass ag bank acc post k => c.issuePass pre ag bank acc post (pre.regs.sget k)

/-- The effect of a vector slot (R53); `sdest` is the register that the scalar slot writes (R46), `pre` the core as the bundle found it. DEDUCED, unsafe (log 25). -/
def Core.execV (c pre : Core) (fr : Nat) (sdest : Option SReg) : VOp → Core
  | .nop => c
  | .chain rs post => c.issueChain pre (pre.regs.sget rs) post
  | .ld vd ag => c.vld vd ag
  | .st vs ag =>
    let (ws, c) := c.vst vs ag
    c.writeAll fr 0 ws
  | .acc vd bank half row => c.vacc vd bank half row
  | .red vd va fn => { c with regs := c.regs.vset vd.val (vred fn (pre.regs.vget va.val) :: List.replicate 63 0#32) }
  | .mvs sd va idx =>
    if sdest = some sd ∧ sd ≠ 0 then { c with ctl := { c.ctl with wconflict := true } }
    else { c with regs := c.regs.sset sd ((pre.regs.lane va.val idx.val).setWidth 64) }
  | .spl vd rs => { c with regs := c.regs.vset vd.val (List.replicate 64 (lo32 (pre.regs.sget rs))) }
  | .op code vd va vb =>
    let (xs, dom) := vop code.toNat (pre.regs.vget va.val) (pre.regs.vget vb.val) (pre.regs.vget vd.val)
    { c with regs := c.regs.vset vd.val xs, vec := { c.vec with domain := c.vec.domain || dom } }

/-- Whether `d.copy` operands are in range (R54). -/
def copyOk (src dst len : Nat) : Bool :=
  src % 16 = 0 && dst % 16 = 0 && len % 16 = 0 &&
  decide (storeAddr src + len ≤ storeBytes) && decide (storeAddr dst + len ≤ storeBytes)

/-- A `d.imem` descriptor (R73): source, first bundle, count, RSVD. -/
def imemDesc (x : Nat) : Nat × Nat × Nat × Nat := (bits x 47 0, bits x 61 48, bits x 75 62, bits x 127 76)

/-- The check of `d.imem` (R519). -/
def imemOk (x : Nat) : Bool :=
  let (src, first, n, rsvd) := imemDesc x
  src % 16 = 0 && decide (first + n ≤ 16384) && rsvd = 0

/-- The fault a bundle that can issue raises at issue: LOOP_OVF (R49; a count of 0 enters no loop and raises none), ARG_RANGE (R54, R519), ILLEGAL_OP
(R518). `m` is the core store that the move/sync slot reads its descriptor from. DEDUCED, unsafe (log 6). DEDUCED, unsafe (log 104). -/
def Core.issueFault (c : Core) (m : Cells 8) (s : SOp) (d : DOp) : Option Nat :=
  let r := c.regs
  let sFault := match s with
    | .loop a _ => if (r.sget a).toNat ≠ 0 ∧ 4 ≤ r.loops.length then some fLoopOvf else none
    | _ => none
  sFault.or <|
    match d with
    | .copy a b n _ => if copyOk (r.sget a).toNat (r.sget b).toNat (r.sget n).toNat then none else some fArgRange
    | .agld _ rs => if agDescOk (agDescAt m (r.sget rs).toNat) then none else some fIllegal
    | .async .imem rs _ => if imemOk (storeLe m (r.sget rs).toNat 16) then none else some fArgRange
    | _ => none

/-- What a move/sync slot leaves to the module. -/
inductive DReq where
  | none
  | async (k : DKind) (addr : Nat) (post : Option SemId)
  | postr (vcid : Nat) (sem : Nat) (n : Nat)
  | commit
  deriving DecidableEq, Repr

/-- The snapshot of R67, R105. -/
def Core.snap (c : Core) (r : CoreRegs) : Snap :=
  { s := r.s, a := r.a, p := r.p, loops := r.loops, ags := c.ags.toList.map (·.desc), mcfg := c.mcfg,
    mxsA := c.arr.mxsA, mxsB := c.arr.mxsB, spxB := c.arr.spxB, rowmask := c.arr.rowmask }

/-- sem40 to sem47 set to 0 (R67, R70). -/
def CoreRegs.clearSegSems (r : CoreRegs) : CoreRegs :=
  { r with sem := Vector.ofFn fun i => if segSem i then 0#16 else r.sem[i] }

/-- `y.seg` (R66, R67): `pre` is the core as the bundle found it. DEDUCED, unsafe (log 15). DEDUCED, unsafe (log 41). -/
def Core.openSeg (c pre : Core) (a : Nat) : Core :=
  let d := storeRead c.store a 64
  let nreg := fieldLe d 2 1 % 8
  let regs := (List.range nreg).map fun i =>
    let x := fieldLe d (8 + 8 * i) 8
    (bits x 21 0, bits x 43 22)
  { c with
    regs := c.regs.clearSegSems
    num := { c.num.clearOvf with held := [] }
    arr := { c.arr with readBySeg := [] }
    seg := { isOpen := true, id := BitVec.ofNat 16 (fieldLe d 0 2), replays := 0, fmtOvr := 0,
             regions := (regs.map fun x => spanCut x.1 x.2).flatten, rewind := pre.regs.pc + 1, openSeq := pre.seq, accClear := false,
             snap := some (pre.snap pre.regs) } }

/-- The effect of a move/sync slot within the core, and what is left to the module (R54, R62, R67). -/
def Core.execD (c pre : Core) (fr : Nat) : DOp → Core × List CoreEv × DReq
  | .nop => (c, [], .none)
  | .async k rs post => (c, [], .async k (storeAddr (pre.regs.sget rs).toNat) post)
  | .copy a b n post =>
    let src := storeAddr (pre.regs.sget a).toNat
    let dst := storeAddr (pre.regs.sget b).toNat
    let len := (pre.regs.sget n).toNat
    ({ c with seq := c.seq + 1,
              ops := c.ops ++ [⟨c.seq, post, pre.seg.isOpen, [(src, len)], [(dst, len)], .copy src dst len, false⟩] }, [], .none)
  | .agld i rs =>
    if (c.ags[i]).active then (c.agClash fr i, [], .none)
    else (c.setAg i { c.ags[i] with desc := agDescAt c.store (pre.regs.sget rs).toNat, taken := 0, base := 0 }, [], .none)
  | .wait s n =>
    ({ c with regs := { c.regs with sem := c.regs.sem.set s (c.regs.sem[s] - n.setWidth 16) } }, [], .none)
  | .post s n =>
    let (c, e) := c.postN s n.toNat
    (c, e, .none)
  | .postr rv m n => (c, [], .postr (pre.regs.sget rv).toNat (48 + m.val) n.toNat)
  | .seg rs => (c.openSeg pre (pre.regs.sget rs).toNat, [], .none)
  | .commit => (c, [], .commit)

/-- Loop stack and PC at the end of a body: the loop runs again or its entry is popped, innermost first (R49). -/
def loopEnd : Nat → List LoopEnt → Nat → List LoopEnt × Nat
  | 0, ls, pc => (ls, pc)
  | _, [], pc => ([], pc)
  | n + 1, l :: ls, pc =>
    if pc = l.last + 1 then
      if 1 < l.left then ({ l with left := l.left - 1 } :: ls, l.first) else loopEnd n ls pc
    else (l :: ls, pc)

/-- Entries whose body holds the PC; the head of the list is the innermost loop (R49). -/
def loopsHolding (ls : List LoopEnt) (pc : Nat) : List LoopEnt := ls.filter fun l => l.first ≤ pc && pc ≤ l.last

/-- The registers with the PC and loop stack after a bundle (R48, R49). DEDUCED, unsafe (log 5). -/
def CoreRegs.advance (r : CoreRegs) (f : Flow) : CoreRegs :=
  match f with
  | .halt => r
  | .jump t => { r with pc := t, loops := loopsHolding r.loops t }
  | .seq =>
    let (ls, pc) := loopEnd 4 r.loops (r.pc + 1)
    { r with loops := ls, pc := pc }
  | .loop n body =>
    if n = 0 then
      let (ls, pc) := loopEnd 4 r.loops (r.pc + 1 + body)
      { r with loops := loopsHolding ls pc, pc := pc }
    else { r with loops := ⟨r.pc + 1, r.pc + body, n⟩ :: r.loops, pc := r.pc + 1 }

/-- What comes of trying to issue a bundle. -/
inductive Issue where
  /-- The bundle stalls; the flag tells whether on `y.wait` (R45, R62). -/
  | stall (c : Core)
  /-- The sequencer stops with a fault (R79). -/
  | fault (code : Nat)
  /-- The bundle has issued. -/
  | issued (c : Core) (evs : List CoreEv) (req : DReq) (halt : Bool)

/-- Whether the bundle stalls (R45). -/
def Core.stalls (c : Core) (l : Live) : Bool :=
  c.stallS l.s || c.stallM l.m || c.stallV l.v || c.stallD l.d ||
  (decide (l.needs ≠ 0) && decide (32 < c.outstanding + l.needs))

/-- The core after the scalar, matrix and vector slots of a bundle that issues (R45, R46): registers and control registers are read as the bundle found
them; a store of the scalar slot stands before the vector slot's reads, both before the move/sync slot's. DEDUCED, unsafe (log 8). -/
def Core.execSmv (c : Core) (env : CoreEnv) (s : SOp) (m : MOp) (v : VOp) : Core :=
  ((c.execS env c.regs s).execM c m).execV c env.free s.dest v

/-- Issue of a bundle's executing slots: decode faults, stalls, issue faults, effects, PC (R45 to R49, R61, R68, R79). DEDUCED, unsafe (log 6). -/
def Core.tryIssue (c : Core) (env : CoreEnv) (b : Bundle) : Issue :=
  let l := b.live c.regs
  match l.fault c.seg.isOpen with
  | some f => .fault f
  | none =>
    if c.waitsSem l.d then .stall { c with ctl := { c.ctl with waiting := true } }
    else if c.stalls l then .stall { c with ctl := { c.ctl with waiting := false } }
    else
      match l.s, l.m, l.v, l.d with
      | some s, some m, some v, some d =>
        let c1 := c.execSmv env s m v
        match c.issueFault c1.store s d with
        | some f => .fault f
        | none =>
          let (c', evs, req) := c1.execD c env.free d
          let f := s.flow c.regs
          .issued { c' with regs := c'.regs.advance f, ctl := { c'.ctl with waiting := false, halting := f = .halt } }
            evs req (f = .halt)
      | _, _, _, _ => .fault fIllegal

/-- `y.commit` once the segment's operations are complete: a clear flag closes the segment (R70, R158, R159). DEDUCED, unsafe (log 41). -/
def Core.commitSeg (c : Core) : Core × List CoreEv :=
  let (n, ev) := c.num.commitHeld
  ({ c with num := n, arr := { c.arr with readBySeg := [] },
            seg := { c.seg with isOpen := false, regions := [], snap := none } }, ev)

/-- The snapshot's registers restored (R70, R71, R105). -/
def Core.restore (c : Core) (sn : Snap) (pc : Nat) : Core :=
  { c with
    regs := { c.regs.clearSegSems with s := sn.s, a := sn.a, p := sn.p, loops := sn.loops, pc := pc }
    mcfg := sn.mcfg
    ags := Vector.ofFn fun i => { c.ags[i] with desc := (sn.ags[i.val]?).getD 0#512 }
    arr := { c.arr with mxsA := sn.mxsA, mxsB := sn.mxsB, spxB := sn.spxB, rowmask := sn.rowmask } }

/-- The rewind of R70 but for the accumulator clear, which REWIND_ACC_CLEAR makes (R104); the record of R144; counts
of the attempt are discarded but for one REPLAYS count (R159). -/
def Core.rewindSeg (c : Core) : Core × List CoreEv :=
  match c.seg.snap with
  | none => (c, [])
  | some sn =>
    let n := c.num
    let cause := (if n.ovfChain then 1 else 0) + (if n.ovfAcc then 2 else 0)
    let ev := CoreEv.replay (c.seg.replays + 1) cause n.ovfFmt n.ovfCount
    let e := { TelEntry.zero (c.seg.id.toNat / 16) n.ovfFmt with replays := 1 }
    let c' := c.restore sn c.seg.rewind
    ({ c' with num := { n.clearOvf with held := [] },
               seg := { c.seg with replays := c.seg.replays + 1, fmtOvr := c.seg.fmtOvr + 1, accClear := true } },
      [ev, .tel e])

end Sys2Proof.Machine
end

