-- ==== Sys2Proof/Machine/State.lean ====
section
/-! DEFINITION. The state of the module: what the spec gives it, the queue of waiting commands, a counter for free values and
what the last read returned; faults, refusals and the state after reset. -/

namespace Sys2Proof.Machine

/-- Acknowledgement of a gradient packet on its way to its core (R233): core, flush generation, table and owner of the packet,
code, entries rejected. -/
structure GradAck where
  core : Nat
  op : Nat
  table : Nat
  owner : Nat
  cellar : Nat
  code : Nat
  rejected : Nat
  deriving DecidableEq, Repr

/-- The state of the block. -/
structure State where
  pending : List Instr
  free : Nat
  reply : List Byte
  cores : Vector Core 256
  mem : MemSt
  emb : Vector EmbSt 4
  press : Vector PressSt 4
  upd : Vector UpdSt 4
  collCel : Vector CollCel 4
  coll : CollSt
  gathers : List Gather
  gsubs : List GSub
  gparts : List GPart
  grads : List GradPacket
  gacks : List GradAck
  shardReqs : List Packet
  shardReps : List Packet
  fab : FabSt
  dl : DlSt
  hif : HifSt
  cave : CaveSt
  fw : FwSt
  mbx : MbxSt
  log : LogSt
  job : JobSt
  ras : RasSt
  inp : Inputs
  pwr : PowerSt
  start : StartSt
  fuses : Fuses
  sec : SecSt
  mgmt : MgmtSt
  tap : TapSt
  deriving DecidableEq, Repr

/-- Faults: none. Each undefined case of R488 goes on with free values within the reach its rule gives. DEDUCED, safe (log 43). -/
inductive Fault where
  deriving DecidableEq, Repr

/-- A command the model turns away. -/
inductive Refusal where
  /-- Raised by an arm of Dispatch whose command has no meaning in the model yet. Safe. -/
  | notModelled (mnemonic : String)
  deriving DecidableEq, Repr

/-- The board's inputs as the model takes them at reset: input power and REF100 good, coolant within limits, PWR_EN low, PROM_ROOT_N
open. DESIGN CHOICE, unsafe (log 33). -/
def Inputs.reset : Inputs :=
  { Inputs.zero with modReset := true, inputOk := true, refOk := true, volt := 54000, coolOk := true }

/-- The machine right after reset: cold reset is about to be released, PSTATE is 4, every register at its reset column, everything
else as the assumption log names it. DESIGN CHOICE, unsafe (log 1). DESIGN CHOICE, unsafe (log 2). DESIGN CHOICE, unsafe (log 33). -/
def State.reset : State :=
  { pending := [], free := 0, reply := [], cores := Vector.replicate 256 Core.zero, mem := MemSt.zero,
    emb := Vector.replicate 4 EmbSt.zero, press := Vector.replicate 4 PressSt.zero, upd := Vector.replicate 4 UpdSt.zero,
    collCel := Vector.replicate 4 CollCel.zero, coll := CollSt.zero, gathers := [], gsubs := [], gparts := [], grads := [],
    gacks := [], shardReqs := [], shardReps := [], fab := FabSt.zero, dl := DlSt.zero, hif := HifSt.zero,
    cave := CaveSt.zero, fw := FwSt.zero, mbx := MbxSt.zero, log := LogSt.zero, job := JobSt.zero, ras := RasSt.zero,
    inp := Inputs.reset, pwr := PowerSt.zero, start := StartSt.zero, fuses := Fuses.zero, sec := SecSt.zero,
    mgmt := MgmtSt.zero, tap := TapSt.zero }

end Sys2Proof.Machine
end

