-- ==== Sys2Proof/Machine/Tables.lean ====
section
/-! DEFINITION. Table descriptors, shard tables, homes of rows, and where a tensor's parts lie (R195 to R203, R245 to R249). -/

namespace Sys2Proof.Machine

/-- A table descriptor: the 64 bytes of its slot (R196). -/
structure TDesc where
  raw : List Byte
  deriving DecidableEq, Repr

def TDesc.fld (d : TDesc) (o n : Nat) : Nat := fieldLe d.raw o n
def TDesc.id (d : TDesc) : Nat := d.fld 0 2
def TDesc.dim (d : TDesc) : Nat := d.fld 2 2
def TDesc.ctrl (d : TDesc) : Nat := d.fld 4 4
def TDesc.wfmt (d : TDesc) : Nat := bits d.ctrl 3 0
def TDesc.mfmt (d : TDesc) : Nat := bits d.ctrl 7 4
def TDesc.opt (d : TDesc) : Nat := bits d.ctrl 10 8
def TDesc.mapKind (d : TDesc) : Nat := bits d.ctrl 12 11
def TDesc.homesel (d : TDesc) : Nat := bits d.ctrl 15 13
def TDesc.repl (d : TDesc) : Bool := bit d.ctrl 16
def TDesc.rows (d : TDesc) : Nat := bits (d.fld 8 8) 39 0
def TDesc.version (d : TDesc) : Nat := bits (d.fld 8 8) 63 48
def TDesc.hotRows (d : TDesc) : Nat := bits (d.fld 0x10 8) 39 0
def TDesc.shardTab (d : TDesc) : Nat := bits (d.fld 0x18 8) 47 0
def TDesc.nshard (d : TDesc) : Nat := bits (d.fld 0x18 8) 63 48
def TDesc.dflt (d : TDesc) : Nat := bits (d.fld 0x20 8) 47 0
def TDesc.moff (d : TDesc) : Nat := bits (d.fld 0x28 8) 39 0
def TDesc.soff (d : TDesc) : Nat := bits (d.fld 0x30 8) 39 0
def TDesc.hparam (d : TDesc) : Nat := bits (d.fld 0x38 8) 47 0

/-- Working formats that are not reserved (R196). -/
def wfmtOk (w : Nat) : Bool := w ≤ 4 || w = 6 || w = 7

/-- The checks of `e.desc` on an image (R198). -/
def TDesc.ok (d : TDesc) : Bool :=
  (d.dim = 0 || (decide (16 ≤ d.dim ∧ d.dim ≤ 1024) && d.dim % 16 = 0)) &&
  wfmtOk d.wfmt && decide (d.mapKind ≠ 3) && decide (d.homesel ≤ 4) &&
  (d.opt = 0 || d.mfmt = 0xb) && (d.mapKind = 0 || decide (1 ≤ d.nshard)) &&
  d.shardTab % 64 = 0 && d.dflt % 16 = 0 &&
  bits d.ctrl 31 17 = 0 && bits (d.fld 8 8) 47 40 = 0 && bits (d.fld 0x10 8) 63 40 = 0 && bits (d.fld 0x20 8) 63 48 = 0 &&
  bits (d.fld 0x28 8) 63 40 = 0 && bits (d.fld 0x30 8) 63 40 = 0 && bits (d.fld 0x38 8) 63 48 = 0

/-- Bytes of a working row (R200). -/
def TDesc.rowBytes (d : TDesc) : Nat :=
  match d.wfmt with
  | 0 => 4 * d.dim
  | 1 | 2 => 2 * d.dim
  | 6 | 7 => d.dim + d.dim / 32
  | _ => d.dim

/-- WPITCH (R200). -/
def TDesc.wpitch (d : TDesc) : Nat := roundUp d.rowBytes 16

/-- SPITCH (R249) and GPITCH (R248). -/
def TDesc.spitch (d : TDesc) : Nat :=
  match d.opt with
  | 2 | 3 => 4 * d.dim
  | 4 => 16
  | 5 | 6 | 7 => 8 * d.dim
  | _ => 0
def TDesc.gpitch (d : TDesc) : Nat := 64 + 64 * d.spitch

/-- Rows per shard of a RANGE table. -/
def TDesc.perShard (d : TDesc) : Nat := max 1 (ceilDiv d.rows (max 1 d.nshard))

/-- Shard and local index of row r (R201). -/
def TDesc.locate (d : TDesc) (r : Nat) : Nat × Nat :=
  match d.mapKind with
  | 1 => (r / d.perShard, r % d.perShard)
  | 2 => (r % max 1 d.nshard, r / max 1 d.nshard)
  | _ => (0, r)

/-- The row with a shard and local index. -/
def TDesc.rowOf (d : TDesc) (s q : Nat) : Nat :=
  match d.mapKind with
  | 1 => s * d.perShard + q
  | 2 => q * max 1 d.nshard + s
  | _ => q

/-- F(q): XOR of the 2-bit fields from q[3:2] upward (R203). -/
def fold2 (q : Nat) : Nat := (List.range 19).foldl (fun a i => a ^^^ bits q (2 * i + 3) (2 * i + 2)) 0

/-- Cellar and slot of local index q (R203). -/
def TDesc.home (d : TDesc) (q : Nat) : Nat × Nat :=
  if d.homesel = 0 then ((q % 4) ^^^ fold2 q, q / 4) else (d.homesel - 1, q)

/-- A shard-table entry (R202). -/
structure Shard where
  faddr : Nat
  hbase : List Nat
  cbase : Nat
  deriving DecidableEq, Repr

/-- Entry s of the shard table of a descriptor. -/
def MemSt.shard (m : MemSt) (d : TDesc) (s : Nat) : Shard :=
  let b := m.read (d.shardTab + 64 * s) 64
  { faddr := bits (fieldLe b 0 8) 23 0
    hbase := (List.range 4).map fun n => bits (fieldLe b (8 + 8 * n) 8) 47 0
    cbase := bits (fieldLe b 0x28 8) 47 0 }

/-- Base and slot of a local row on a shard: HBASEn and j, or CBASE and q − HOT_ROWS (R203, R246). -/
def TDesc.baseOf (d : TDesc) (sh : Shard) (q : Nat) : Nat × Nat :=
  if q < d.hotRows then ((sh.hbase[(d.home q).1]?).getD 0, (d.home q).2) else (sh.cbase, q - d.hotRows)

/-- Address of a working row. -/
def TDesc.rowAddr (d : TDesc) (sh : Shard) (q : Nat) : Nat := (d.baseOf sh q).1 + (d.baseOf sh q).2 * d.wpitch

/-- Addresses of a master record and of a group record at a base (R246). -/
def TDesc.masterAddr (d : TDesc) (base j : Nat) : Nat := base + d.moff + j * 5 * d.dim
def TDesc.groupAddr (d : TDesc) (base k : Nat) : Nat := base + d.soff + k * d.gpitch

/-- Descriptor of a table, read from the area (R195). -/
def MemSt.tdesc (m : MemSt) (area t : Nat) : TDesc := ⟨m.read (area + 64 * t) 64⟩

/-- Rows that a shard holds in all. -/
def TDesc.shardRows (d : TDesc) (s : Nat) : Nat :=
  match d.mapKind with
  | 1 => min d.perShard (d.rows - s * d.perShard)
  | 2 => (d.rows + max 1 d.nshard - 1 - s) / max 1 d.nshard
  | _ => d.rows

/-- Slots that hot rows of a shard take at one Cellar, and slots of its cold rows. -/
def TDesc.hotSlots (d : TDesc) (s : Nat) : Nat :=
  let n := min d.hotRows (d.shardRows s)
  if d.homesel = 0 then ceilDiv n 4 else n
def TDesc.coldSlots (d : TDesc) (s : Nat) : Nat := d.shardRows s - min d.hotRows (d.shardRows s)

/-- Shards of a table that lie on a module. -/
def MemSt.shardsOn (m : MemSt) (d : TDesc) (faddr : Nat) : List (Nat × Shard) :=
  if d.mapKind = 0 then [(0, m.shard d 0)]
  else ((List.range d.nshard).map fun s => (s, m.shard d s)).filter fun p => p.2.faddr = faddr

/-- Ranges of the masters and group records of a table on a module (R246, R275). -/
def MemSt.stateRanges (m : MemSt) (d : TDesc) (faddr : Nat) : List (Nat × Nat) :=
  if d.dim = 0 || d.opt = 0 then []
  else
    ((m.shardsOn d faddr).map fun p =>
      let one := fun (base slots : Nat) =>
        if slots = 0 then [] else [(base + d.moff, slots * 5 * d.dim), (base + d.soff, ceilDiv slots 64 * d.gpitch)]
      ((List.range 4).map fun n =>
        if d.homesel = 0 || d.homesel = n + 1 then one ((p.2.hbase[n]?).getD 0) (d.hotSlots p.1) else []).flatten ++
      one p.2.cbase (d.coldSlots p.1)).flatten

/-- Ranges of the working rows of a shard (R204). -/
def TDesc.rowRanges (d : TDesc) (s : Nat) (sh : Shard) : List (Nat × Nat) :=
  ((List.range 4).map fun n =>
    if d.homesel = 0 || d.homesel = n + 1 then [((sh.hbase[n]?).getD 0, d.hotSlots s * d.wpitch)] else []).flatten ++
  [(sh.cbase, d.coldSlots s * d.wpitch)]

end Sys2Proof.Machine
end

