-- ==== Sys2Proof/Machine/Ops.lean ====
section
/-! DEFINITION. Operations over the whole state that every family uses: powered and serving units, the log (R411 to R416), posts
(R62 to R64, R76), failing a step (R470), reaching memory (R162 to R166, R178), running a core. -/

namespace Sys2Proof.Machine

/-- What a command answers. -/
abbrev Res := Host.Outcome State Fault Refusal

/-- A command whose conditions do not hold leaves the state as it is. DESIGN CHOICE, safe (log 31). -/
def unchanged (s : State) : Res := .next s

/-- A state if a condition holds, otherwise no effect. DESIGN CHOICE, safe (log 9). DESIGN CHOICE, safe (log 31). -/
def onlyIf (b : Bool) (s : State) (f : State → Res) : Res := if b then f s else .next s

/-- Die of a core (R12). -/
def vatOf (c : CoreId) : VatId := Fin.ofNat 4 (c.val / 64)

/-- The state with a core replaced. -/
def State.setCore (s : State) (c : CoreId) (x : Core) : State := { s with cores := s.cores.set c x }

/-- A core changed by a function. -/
def State.updCore (s : State) (c : CoreId) (f : Core → Core) : State := s.setCore c (f s.cores[c])

/-- The state with the free-value counter advanced. -/
def State.drawn (s : State) (n : Nat) : State := { s with free := s.free + n }

/-- Whether the module is in P0 to P2 (the state word of R443 before gating). -/
def State.running (s : State) : Bool := s.pwr.pstate = 0

/-- Whether VCORE is on: P0 to P2 but after step 4 of a protect sequence (R426, R440). -/
def State.vcoreOn (s : State) : Bool :=
  s.running && !(match s.pwr.protect with | some p => p.flushing | none => false)

/-- Whether the ACLK of a Vat die runs (R424). -/
def State.vatClocked (s : State) (v : VatId) : Bool := s.vcoreOn && !s.pwr.gated[v] && s.ras.dieResetting ≠ some v.val

/-- Whether a core is enabled and its clock runs: its array and its queued work go on although its item has ended or it is fenced (R76, R103, R108). -/
def State.coreClocked (s : State) (c : CoreId) : Bool := s.vatClocked (vatOf c) && s.cores[c].ctl.enabled

/-- Whether a core is in service with its clock running (R76, R424, R458). -/
def State.coreOn (s : State) (c : CoreId) : Bool :=
  s.vatClocked (vatOf c) && s.cores[c].ctl.enabled && !s.cores[c].ctl.fenced && !s.cores[c].ctl.hung

/-- Whether firmware processor `p` serves: not resetting, not held, not halted (R399 to R401, R497). -/
def State.procUp (s : State) (p : ProcId) : Bool := s.fw.procs[p].state = 0 && !s.fw.procs[p].halted

/-- Whether a processor is held (R400). -/
def State.procHeld (s : State) (p : ProcId) : Bool := s.fw.procs[p].state = 2

/-- PROC of QPn. -/
def qpProc (n : Nat) : ProcId := Fin.ofNat 10 (2 + n % 4)

/-- The QP that serves the duties of QPn: itself, or the next not held (R400). -/
def State.servingQp (s : State) (n : Nat) : Nat :=
  (([n, n + 1, n + 2, n + 3].map (· % 4)).find? fun k => !s.procHeld (qpProc k)).getD (n % 4)

/-- The QP that dispatches to a Vat die: the table of R398, then any QP not held. -/
def State.dispatchQp (s : State) (v : VatId) : Nat :=
  let first := match v.val with | 0 => 3 | 1 => 0 | 2 => 2 | _ => 1
  let second := match v.val with | 0 => 0 | 1 => 1 | 2 => 3 | _ => 2
  if !s.procHeld (qpProc first) then first
  else if !s.procHeld (qpProc second) then second else s.servingQp first

/-- The leader of the step program: the lowest-numbered QP not held (R398). -/
def State.leader (s : State) : Option Nat := [0, 1, 2, 3].find? fun k => !s.procHeld (qpProc k)

/-- A change of one processor. -/
def State.updProc (s : State) (p : ProcId) (f : Proc → Proc) : State :=
  { s with fw := { s.fw with procs := s.fw.procs.set p (f s.fw.procs[p]) } }

/-- A stamp received by a source (R415). -/
def State.receiveStamp (s : State) (p : ProcId) (m : W64) : State :=
  s.updProc p fun x => { x with stamp := if x.stamp.ult m then m else x.stamp }

/-- A message from one processor to another, with its stamp (R415). -/
def State.message (s : State) (p q : ProcId) : State :=
  if p = q then s
  else
    let m := s.fw.procs[p].stamp + 1
    (s.updProc p fun x => { x with stamp := m }).receiveStamp q m

/-- The next stamp and SRCSEQ of a source (R414, R415). -/
def State.stampNext (s : State) (p : ProcId) : W64 × W64 × State :=
  let x := s.fw.procs[p]
  let st := x.stamp + 1
  let n := x.count + 1
  (st, BitVec.ofNat 64 (s.fw.boot.toNat * 2 ^ 44 + n.toNat), s.updProc p fun x => { x with stamp := st, count := n })

/-- The FADDR a module shows: 0 while FAB_ADDR.VALID is 0 (R411). DESIGN CHOICE, safe (log 95). -/
def State.origin (s : State) : Nat := if s.fab.valid then s.fab.faddr.toNat else 0

/-- The 32 payload bytes of a record (R412, R516): block and code of an EVENT, the stamp and text of a HOST_MARK, the trace point;
where the spec gives fields no place, free bytes. DESIGN CHOICE, safe (log 77). -/
def LogRec.payload (r : LogRec) : List Byte :=
  let rest := fun (k n : Nat) => (List.range n).map fun i => Config.payloadByte r.typ r.fields (k + i)
  if r.typ = 0x000b then
    BitVec.ofNat 8 (r.fields.headD 0) :: BitVec.ofNat 8 ((r.fields.drop 1).headD 0) :: rest 2 30
  else if r.typ = 0x0009 then toLe 8 (r.fields.headD 0) ++ toLe 24 ((r.fields.drop 1).headD 0)
  else if r.typ = 0x0100 then toLe 2 (r.fields.headD 0) ++ rest 2 30
  else rest 0 32

/-- The 64 bytes of a record (R411). -/
def LogRec.bytes (r : LogRec) : List Byte :=
  toLe 8 r.srcseq.toNat ++ toLe 8 r.cstamp.toNat ++ toLe 4 (r.faddr + 2 ^ 24 * r.proc + 2 ^ 28 * r.sev) ++ toLe 2 r.typ ++
    toLe 2 (bits r.pos 35 20) ++ r.payload ++ toLe 8 r.pos

/-- Address of log position POS (R411). DESIGN CHOICE, unsafe (log 76). -/
def LogSt.addr (l : LogSt) (pos : Nat) : Nat := l.base + 64 * (pos % 0x100000)

/-- Placing a record: in the ring, or in the early log until the ring exists (R411, R449). -/
def State.putRecord (s : State) (r : LogRec) : State :=
  if s.log.ringUp then { s with mem := s.mem.write (s.log.addr r.pos) r.bytes }
  else if s.log.early.length < 1024 then { s with log := { s.log with early := s.log.early ++ [r] } }
  else { s with log := { s.log with earlyLost := s.log.earlyLost + 1 } }

/-- Records a (PROC, TYPE) pair has tried to write in this millisecond (R413). -/
def LogSt.rate (l : LogSt) (p t : Nat) : Nat := ((l.rates.find? fun x => x.1 = p && x.2.1 = t).map (·.2.2)).getD 0

/-- One more record of a pair in this millisecond. -/
def LogSt.bump (l : LogSt) (p t : Nat) : LogSt :=
  { l with rates := (p, t, l.rate p t + 1) :: l.rates.filter fun x => !(x.1 = p && x.2.1 = t) }

/-- Writing a record without the limit of R413. -/
def State.logAlways (s : State) (p : ProcId) (typ : Nat) (fields : List Nat) : State :=
  let (st, sq, s) := s.stampNext p
  let r : LogRec :=
    { pos := s.log.head, srcseq := sq, cstamp := st, faddr := s.origin, proc := p.val,
      sev := Config.severity typ (if typ = 0x000b then (fields.headD 0) * 256 + (fields.drop 1).headD 0 else 0) % 4,
      typ := typ, fields := fields }
  ({ s with log := { s.log with head := s.log.head + 1 } }).putRecord r

/-- A log record by a processor: within 1,000 records of the pair in a millisecond it is written, beyond it is counted
(R411, R413). -/
def State.logRec (s : State) (p : ProcId) (typ : Nat) (fields : List Nat) : State :=
  let s' := { s with log := s.log.bump p.val typ }
  if s.log.rate p.val typ < 1000 then s'.logAlways p typ fields else s'

/-- An EVENT record (R412, R516). -/
def State.event (s : State) (p : ProcId) (block code : Nat) (fields : List Nat) : State :=
  s.logRec p 0x000b (block :: code :: fields)

/-- PROC of the MP and of the SP (R397). -/
def procMP : ProcId := 0
def procSP : ProcId := 1

/-- PROC of LPn. -/
def lpProc (n : Nat) : ProcId := Fin.ofNat 10 (6 + n % 4)

/-- The processor that does an LP's duties: the MP while it is held (R400). -/
def State.lpFor (s : State) (n : Nat) : ProcId := if s.procHeld (lpProc n) then procMP else lpProc n

/-- A sensor or state event for the management path; the queue holds 256 (R510). -/
def State.mgmtEvent (s : State) (sensor value : Nat) : State :=
  if s.mgmt.events.length < 256 then { s with mgmt := { s.mgmt with events := s.mgmt.events ++ [(sensor, value)] } }
  else
    { s with mgmt := { s.mgmt with events := s.mgmt.events.drop 1 ++ [(sensor, value)], evtLost := s.mgmt.evtLost + 1,
                                   lostMs := s.mgmt.lostMs + 1 } }

/-- Whether a job is loaded: any state but NONE (R417). -/
def State.jobLoaded (s : State) : Bool := s.job.state ≠ 0

/-- The layer entry of R146. -/
def State.layer (s : State) (l : Nat) : Nat := (Cells.get s.job.layers (l % 4096)).toNat

/-- PHASE, PROMO and NOSHADOW of a layer (R146). -/
def State.layerPhase (s : State) (l : Nat) : Nat := bits (s.layer l) 1 0
def State.layerPromo (s : State) (l : Nat) : Nat := bits (s.layer l) 3 2
def State.layerNoshadow (s : State) (l : Nat) : Bool := bit (s.layer l) 4

/-- PWR_P1_CEIL in force (R431, R443). -/
def State.p1Ceil (s : State) : Nat :=
  let x := bits s.pwr.cfgNow.toNat 5 0
  if 27 ≤ x ∧ x ≤ 63 then x else 32

/-- Whether anything requires P1 (R428, R431). DEDUCED, unsafe (log 44). -/
def State.needsP1 (s : State) : Bool :=
  s.pwr.sag || decide (s.pwr.coolReq ≠ 0) || !s.pwr.hot.isEmpty || decide (s.pwr.capCeil < 64)

/-- The LEVEL ceiling of a Vat die (R431): 0 on a gated die, in P1 the lowest of the ceilings in force. DEDUCED, unsafe (log 45). -/
def State.ceiling (s : State) (v : VatId) : Nat :=
  if s.pwr.gated[v] then 0
  else
    let a := if s.pwr.sag || decide (s.pwr.coolReq ≠ 0) || !s.pwr.hot.isEmpty then s.p1Ceil else 64
    min a (min 64 s.pwr.capCeil)

/-- What a core sees of its job (R108, R146, R147, R155). -/
def State.env (s : State) (c : CoreId) : CoreEnv :=
  { shadowPeriod := (s.job.cfg.map (·.period)).getD 4096
    shadowThr := (s.job.cfg.map (·.thr)).getD 2
    promoMin := (s.job.cfg.map (·.promoMin)).getD 4
    scaleExp := s.job.scale.exp
    probe := decide (0 < s.job.scale.probe)
    phase := fun l => s.layerPhase l
    noshadow := fun l => s.layerNoshadow l
    ceiling := s.ceiling (vatOf c)
    free := s.free }

/-- Failing the running step; after the backward-close barrier no step fails (R263, R470). The first cause stands. -/
def State.failStep (s : State) (rule : Nat) : State :=
  if 1 ≤ s.job.phase ∧ s.job.phase ≤ 3 then
    { s with job := { s.job with failed := true, failCause := if s.job.failed then s.job.failCause else rule } }
  else s

/-- A telemetry entry added into the step's table (R158). DEDUCED, unsafe (log 88). -/
def State.addTel (s : State) (e : TelEntry) : State :=
  let j := s.job
  if j.telNow.any fun x => x.isPair e.layer e.fmt then
    { s with job := { j with telNow := j.telNow.map fun x => if x.isPair e.layer e.fmt then x.add e else x } }
  else { s with job := { j with telNow := j.telNow ++ [e] } }

/-- The module's share of what a core tells (R62, R144, R149, R158). -/
def State.applyEv (s : State) (c : CoreId) (e : CoreEv) : State :=
  let x := s.cores[c]
  let p := qpProc (s.dispatchQp (vatOf c))
  match e with
  | .semOvf k => s.event p 13 1 [x.ctl.vcid.toNat, k, x.regs.pc]
  | .replay att cause fmt n =>
    let ph := s.layerPhase (x.seg.id.toNat / 16)
    let s := s.logRec p 0x0003 [x.seg.id.toNat, x.ctl.vcid.toNat, x.ctl.step.toNat, att, cause, fmt, ph, n]
    { s with job := { s.job with rewinds := s.job.rewinds + 1, govf := s.job.govf || decide (ph = 1) } }
  | .tel e => s.addTel e
  | .overflow l => { s with job := { s.job with govf := s.job.govf || decide (s.layerPhase l = 1) } }

/-- A core put in place and its events applied. -/
def State.withCore (s : State) (c : CoreId) (r : Core × List CoreEv) : State :=
  r.2.foldl (fun s e => s.applyEv c e) (s.setCore c r.1)

/-- A post to a semaphore of a core (R62). -/
def State.postTo (s : State) (c : CoreId) (sem : SemId) (n : Nat) : State := s.withCore c (s.cores[c].postN sem n)

/-- A completion post of a core's operation (R54, R63). -/
def State.completionPost (s : State) (c : CoreId) (post : Option SemId) : State := s.withCore c (s.cores[c].complete post)

/-- Physical core of a VCID in the job's map (R74); none beyond VCOUNT. -/
def State.coreOfVcid (s : State) (v : Nat) : Option CoreId :=
  if s.jobLoaded then (s.job.vcids[v]?).map fun c => Fin.ofNat 256 c else none

/-- The stand-in that runs as VCID `v` (R76). -/
def State.runningAs (s : State) (v : Nat) : Option CoreId :=
  (List.finRange 256).find? fun d => s.cores[d].ctl.run && s.cores[d].ctl.standIn = some v && s.cores[d].ctl.vcid.toNat = v

/-- The core whose store other modules and the engines reach under VCID `v`: the stand-in that runs as it, else the mapped core (R74, R76). -/
def State.storeFor (s : State) (v : Nat) : Option CoreId := (s.runningAs v).or (s.coreOfVcid v)

/-- The core whose store an operation of core `c` reaches under VCID `v`: its own while it runs as `v`, else the mapped core's (R55, R74, R76). -/
def State.storeOfVcid (s : State) (c : CoreId) (v : Nat) : Option CoreId :=
  let x := s.cores[c].ctl
  if s.jobLoaded && x.vcid.toNat = v && (x.run && x.standIn = some v || s.coreOfVcid v = some c) then some c
  else s.storeFor v

/-- A mailbox post to a VCID (R60, R64, R76): a stand-in that runs as the VCID takes it; on a core that is fenced, or that runs as
another VCID, the shadow mailbox holds it. False: the VCID is not in the map. DEDUCED, unsafe (log 82). -/
def State.postVcid (s : State) (v sem n : Nat) : Bool × State :=
  match s.runningAs v with
  | some d => (true, s.postTo d (semOf sem) n)
  | none =>
    match s.coreOfVcid v with
    | none => (false, s)
    | some c =>
      let x := s.cores[c].ctl
      if x.fenced || (x.run && x.vcid.toNat ≠ v) then
        (true, { s with job := { s.job with shadow := s.job.shadow ++ [(v, sem, n)] } })
      else (true, s.postTo c (semOf sem) n)

/-- Status codes of R191. -/
def stOk : Nat := 0
def stBadDesc : Nat := 1
def stUnmapped : Nat := 2
def stUncorr : Nat := 3
def stUnreach : Nat := 4
def stHost : Nat := 5
def stCaveDown : Nat := 6
def stStale : Nat := 7

/-- The place of a local address (R162, R362). -/
def State.place (s : State) (a : Nat) : Place :=
  match s.mem.cfg.place s.fuses.lx a with
  | .acc n => if s.dl.acc[Fin.ofNat 2 n] = 1 then .acc n else .unmapped
  | p => p

/-- Status of an access by a requester to the unit at `a`, content aside (R163, R164, R178). -/
def State.accessAt (s : State) (q : Requester) (a : Nat) : Nat :=
  let p := s.place a
  if !p.reach q then stUnmapped
  else
    match p with
    | .cave k => if s.cave.ports[k].state = 2 then stOk else stCaveDown
    | _ => stOk

/-- Status of an access to `n` bytes: the first failing line's, in address order. -/
def State.access (s : State) (q : Requester) (a n : Nat) : Nat :=
  (((linesOf a n).map fun l => s.accessAt q (max a (128 * l))).find? fun c => c ≠ stOk).getD stOk

/-- Status of a read: access, then uncorrectable content (R166). -/
def State.readStatus (s : State) (q : Requester) (a n : Nat) : Nat :=
  let c := s.access q a n
  if c ≠ stOk then c else if s.mem.uncorrAt a n then stUncorr else stOk

/-- Reading `n` mapped bytes: memory, or a core store through its window (R162). -/
def State.readBytes (s : State) (a n : Nat) : List Byte :=
  match s.place a with
  | .store c off => storeRead (s.cores[Fin.ofNat 256 c].store) off n
  | _ => s.mem.read a n

/-- Base of the descriptor area (R195). -/
def State.descBase (s : State) : Nat := s.emb[(0 : Fin 4)].descBase

/-- Source and destination ranges of a collective in flight, as far as they lie in local memory (R318, R344). -/
def collRanges (d : List Byte) : List (Nat × Nat) :=
  let f := fun o n => fieldLe d o n
  let ctrl := f 0 4
  let op := bits ctrl 3 0
  let es := match bits ctrl 7 4 with | 0 => 4 | 1 | 2 => 2 | _ => 1
  let n := es * f 4 4
  let src := bits (f 8 8) 47 0
  let dst := bits (f 0x10 8) 47 0
  let vlen := bits (f 0x18 8) 47 0
  (if op = 5 || op = 8 || bit ctrl 25 then [] else [(src, if op = 7 then 32 else n)]) ++
  (if op = 5 || bit ctrl 24 then [] else [(dst, if op = 7 then 32 else n)]) ++
  (if vlen = 0 then [] else [(vlen, if op = 5 then 32 * f 4 4 else 4)])

/-- The descriptor of a table. -/
def State.tdesc (s : State) (t : Nat) : TDesc := s.mem.tdesc s.descBase t

/-- Tables whose update state R275 protects: those of the job configuration and of its update list. -/
def State.stateTables (s : State) : List Nat :=
  match s.job.cfg with
  | none => []
  | some c => ((c.tables.map fun t => (TDesc.mk t).id) ++ s.job.upds.map (·.table)).eraseDups

/-- The ranges of a tensor that R275 protects: its masters and group records, its journal record, and its dense gradient buffer while it is ready
and its update has not committed. -/
def State.tensorRanges (s : State) (t : Nat) : List (Nat × Nat) :=
  let d := s.tdesc t
  (s.upd[(0 : Fin 4)].journal + 128 * t, 128) :: s.mem.stateRanges d s.fab.faddr.toNat ++
  ((s.job.ready.filter fun e => e.table = t && e.src ≠ 0 && !s.job.committed.contains t).map fun e =>
    (e.gbase, ((s.mem.shardsOn d s.fab.faddr.toNat).foldl (fun n p => n + d.shardRows p.1) 0) * d.dim * (if e.gfmt = 1 then 2 else 4)))

/-- The worklist areas of the Cellars (R265): 32 bytes per key at the key limit. -/
def State.workRanges (s : State) : List (Nat × Nat) :=
  (List.finRange 4).map fun (n : Fin 4) => (s.upd[n].workBase, 32 * s.press[n].keyLimit)

/-- Tensors whose update state a write touches (R275); a worklist area belongs to all of them. -/
def State.stateHit (s : State) (a n : Nat) : List Nat :=
  let hit := fun (r : Nat × Nat) => overlaps a n r.1 r.2
  if s.workRanges.any hit then s.stateTables else s.stateTables.filter fun t => (s.tensorRanges t).any hit

/-- Tables whose descriptor slot or shard table a write touches (R199). -/
def State.descHit (s : State) (a n : Nat) : List Nat :=
  let b := s.descBase
  let slots := (List.range (ceilDiv n 64 + 1)).map fun i => a / 64 + i
  ((slots.filter fun k => decide (b ≤ 64 * k ∧ 64 * k < b + 0x400000) && overlaps a n (64 * k) 64).map fun k => (64 * k - b) / 64) ++
    s.stateTables.filter fun t =>
      let d := s.tdesc t
      d.mapKind ≠ 0 && overlaps a n d.shardTab (64 * d.nshard)

/-- Numbers of the collectives in flight that read or write a range (R344), without number `own`. -/
def State.collHit (s : State) (own : Option Nat) (a n : Nat) : List Nat :=
  (s.coll.colls.filter fun c => some c.id ≠ own && (collRanges c.desc).any fun r => overlaps a n r.1 r.2).map (·.id)

/-- Names of requesters in the records of R164: another module by its FADDR, a partner die, the host, the TAP, the engine of a collective (the model's numbers). DESIGN CHOICE, safe (log 77). -/
def whoPartner (i : Nat) : Nat := 0x1000000 + i
def whoHost : Nat := 0x1000010
def whoTap : Nat := 0x1000020
def whoColl (n : Nat) : Nat := 0x1000030 + n

/-- The UNMAPPED and CAVE_DOWN records of an access by a requester without a VCID (R164, R178). -/
def State.accessRecord (s : State) (who st a : Nat) : State :=
  if st = stUnmapped then s.event procMP 0 1 [who, 0xffff, a]
  else if st = stCaveDown then s.event procMP 0 3 [who, 0xffff, a, match s.place a with | .cave k => k.val | _ => 0]
  else s

/-- Whether a write by `q` goes on with free bytes: update state and ready dense buffers (R275), ranges of a collective in flight (R344), a claimed
batch written by the host (R421). DEDUCED, safe (log 43). -/
def State.writeFree (s : State) (q : Requester) (a n : Nat) (own : Option Nat := none) : Bool :=
  q.isProgram && ((s.jobLoaded && !(s.stateHit a n).isEmpty) || !(s.collHit own a n).isEmpty ||
    (decide (q = .host) && s.job.claimed.any fun b => overlaps a n b.addr b.len))

/-- What a write by `q` leaves beside its bytes: the tables whose descriptor, shard table or update state it touches are free from then on (R199,
R275), and so are the outputs of the collectives whose ranges it touches (R344). DEDUCED, safe (log 43). -/
def State.spoilAt (s : State) (q : Requester) (a n : Nat) (own : Option Nat := none) : State :=
  if q = .firmware then s
  else
    let ts := if q.isProgram && s.jobLoaded then s.descHit a n ++ s.stateHit a n else []
    let ks := s.collHit own a n
    { s with
      job := { s.job with wild := s.job.wild ++ ts.filter fun t => !s.job.wild.contains t }
      coll := { s.coll with colls := s.coll.colls.map fun k => if ks.contains k.id then { k with spoilt := true } else k } }

/-- Free bytes in place of the ones given, when they are open. DEDUCED, safe (log 42). DEDUCED, safe (log 43). -/
def State.openBytes (s : State) (yes : Bool) (bs : List Byte) : List Byte := if yes then freeBytes s.free bs.length else bs

/-- A write into a core's store by an operation (`own` its number, 0 none) or another unit (R41, R72, R81, R229). -/
def State.writeStoreOf (s : State) (c : CoreId) (own a : Nat) (bs : List Byte) : State :=
  (s.updCore c fun x => x.writeStore s.free own false a bs).drawn freeStep

/-- Writing mapped bytes: memory with its ordering of lines, the host read buffer untouched (R374), or a core store through its
window. -/
def State.writeBytes (s : State) (a : Nat) (bs : List Byte) (alloc : Bool := true) : State :=
  match s.place a with
  | .store c off => s.writeStoreOf (Fin.ofNat 256 c) 0 off bs
  | _ => { s with mem := s.mem.writeWith alloc a bs }

/-- Row-cache accesses of a range that is read (R175, R186, R194). -/
def State.touchLines (s : State) (a n : Nat) (alloc : Bool := true) : State := { s with mem := s.mem.accessRange alloc a n }

/-- A write of reachable bytes by a requester, with the undefined cases of R488. -/
def State.writeOpen (s : State) (q : Requester) (a : Nat) (bs : List Byte) (alloc : Bool := true) (own : Option Nat := none) : State :=
  ((s.spoilAt q a bs.length own).writeBytes a (s.openBytes (s.writeFree q a bs.length own) bs) alloc).drawn bs.length

/-- A checked write by a requester: an unreachable target discards it (R163, R164). -/
def State.writeAs (s : State) (q : Requester) (a : Nat) (bs : List Byte) : State :=
  if s.access q a bs.length ≠ stOk then s else s.writeOpen q a bs

/-- The operation of a core with a number. -/
def Core.opAt (c : Core) (id : Nat) : Option Op := c.ops.find? fun o => o.id = id

/-- A core without an operation. -/
def Core.dropOp (c : Core) (id : Nat) : Core := { c with ops := c.ops.filter fun o => o.id ≠ id }

/-- An operation changed. -/
def Core.mapOp (c : Core) (id : Nat) (f : Op → Op) : Core := { c with ops := c.ops.map fun o => if o.id = id then f o else o }

/-- An operation added at issue (R54, R55). DESIGN CHOICE, safe (log 93). -/
def Core.addOp (c : Core) (post : Option SemId) (reads writes : List (Nat × Nat)) (b : OpBody) : Core :=
  { c with seq := c.seq + 1, ops := c.ops ++ [⟨c.seq, post, c.seg.isOpen, reads, writes, b, false⟩] }

/-- Free bytes over the regions that an operation writes, where an undefined case reaches its results; what a scatter has brought into the combiner
is free too (R81). DEDUCED, safe (log 43). -/
def Core.spoilOp (c : Core) (fr : Nat) (o : Op) : Core :=
  let c := { c with store := o.writes.foldl (fun m w => storePut m w.1 (freeBytes (fr + w.1) w.2)) c.store }
  match o.body with
  | .scatter _ _ => { c with store := storePut c.store c.cmb.base (freeBytes (fr + 2 ^ 23) (c.cmb.size * c.cmb.pitch)) }
  | _ => c

/-- The end of an operation: it leaves the list and its post is applied (R54, R63); its results are free if an undefined case reached them (R81). -/
def State.endOp (s : State) (c : CoreId) (o : Op) : State :=
  let sp := (s.cores[c].opAt o.id).any (·.spoilt)
  let s := if sp then (s.updCore c fun x => x.spoilOp s.free o).drawn freeStep else s
  (s.updCore c fun x => x.dropOp o.id).completionPost c o.post

/-- Telemetry of a segment still held when a work item ends is discarded, the rest sent (R158, R159). -/
def Core.sendTel (c : Core) : Core × List CoreEv :=
  ({ c with num := { c.num with buf := [], held := [] } }, c.num.buf.map .tel)

/-- What of the combiner ends with a work item that ended without `s.halt`: its flush, and operations that have not begun (R227). -/
def Op.isAutoFlush (o : Op) : Bool := match o.body with | .flush f => f.auto | .combiner _ _ => true | _ => false

/-- The core after a work item that ended without `s.halt`, but for its registers: segment closed, combiner entries discarded, eviction packets
that no flush has covered forgotten (R226, R227), operations still in flight go on. DEDUCED, safe (log 35). -/
def Core.endAbrupt (c : Core) : Core :=
  let n := c.cmb.entries.length
  { c with ctl := { c.ctl with run := false, waiting := false, halting := false, stopped := false, item := none }
           seg := { SegSt.zero with id := c.seg.id }
           arr := { c.arr with warm := false }
           cmb := { c.cmb with entries := [], discard := BitVec.ofNat 64 n, evGen := c.cmb.evGen + 1, evPend := 0, evPkts := 0, evRej := 0,
                               evCode := 0, evBad := (0, 0, 0) }
           ops := c.ops.filter fun o => !o.isAutoFlush }

/-- The stand-in of a fenced core: the lowest-numbered core in service on its die that is not a stand-in, else on any die
(R76). -/
def State.standInFor (s : State) (c : CoreId) : Option CoreId :=
  let ok := fun (d : CoreId) => d ≠ c && s.cores[d].ctl.enabled && !s.cores[d].ctl.fenced && s.cores[d].ctl.standIn = none
  ((List.finRange 256).find? fun d => vatOf d = vatOf c && ok d).or ((List.finRange 256).find? ok)

/-- VCIDs whose work falls to a core: its own in the job's map, and the one it stands in for (R74, R76). -/
def State.vcidsOf (s : State) (c : CoreId) : List Nat :=
  (if s.jobLoaded && s.job.vcids.contains c.val then [s.job.vcids.idxOf c.val] else []) ++ s.cores[c].ctl.standIn.toList

/-- The VCID whose mailbox values a core holds: the one it runs as a stand-in, else its own (R76). -/
def State.mailboxOf (s : State) (c : CoreId) : Nat :=
  let x := s.cores[c].ctl
  if x.run && x.standIn = some x.vcid.toNat then x.vcid.toNat else s.job.vcids.idxOf c.val

/-- A stand-in named for each VCID of a fenced core; its work item, if it had one, is moved to the stand-in of that item's VCID (R76, R77). -/
def State.standIns (s : State) (c : CoreId) (vs : List Nat) (item : Option WorkItem) : State :=
  vs.foldl (fun s v =>
    let moved := item.filter fun w => w.vcid = v
    match s.standInFor c with
    | none => if moved.isSome then s.failStep 77 else s
    | some d =>
      { s.updCore d (fun y => { y with ctl := { y.ctl with standIn := some v } }) with
        job := { s.job with moved := s.job.moved ++ moved.toList.map fun w => (d.val, w) } }) s

/-- Fencing a core (R76, R77, R227, R467): `answers` tells whether its semaphore block still answers, `cause` names the rule. The record carries the
combiner entries discarded. DEDUCED, unsafe (log 82). -/
def State.fence (s : State) (c : CoreId) (answers : Bool) (cause : Nat) : State :=
  let x := s.cores[c]
  if x.ctl.fenced || !x.ctl.enabled then s
  else
    let p := qpProc (s.dispatchQp (vatOf c))
    let v := s.mailboxOf c
    let vs := s.vcidsOf c
    let kept := if answers then
        ((List.finRange 64).filter fun (k : Fin 64) => decide (48 ≤ k.val) && x.regs.sem[k] ≠ 0#16).map
          fun k => (v, k.val, x.regs.sem[k].toNat)
      else []
    let item := x.ctl.item
    let (y, ev) := x.endAbrupt.sendTel
    let s := s.withCore c ({ y with ctl := { y.ctl with fenced := true, standIn := none } }, ev)
    let s := { s with ras := { s.ras with fences := s.ras.fences + 1 }, job := { s.job with shadow := s.job.shadow ++ kept } }
    let s := s.event p 12 1 [c.val, if x.ctl.run then x.ctl.vcid.toNat else v, cause, x.cmb.entries.length]
    let s := if answers then s else s.failStep 76
    let restart := item.all fun w => !w.norestart && !x.cmb.sentAny
    let s := if restart then s else s.failStep 77
    s.standIns c vs (if restart then item else none)

/-- Fencing every core of a die (R359). -/
def State.fenceDie (s : State) (v : VatId) (cause : Nat) : State :=
  (List.finRange 256).foldl (fun s c => if vatOf c = v then s.fence c true cause else s) s

/-- A value the last read hands to its sender. DESIGN CHOICE, safe (log 30). -/
def State.answer (s : State) (bs : List Byte) : State := { s with reply := bs }

end Sys2Proof.Machine
end

