-- ==== Sys2Proof/Machine/FabOps.lean ====
section
/-! DEFINITION. Operations of the fabric: packets as bytes (R285 to R288), addresses and routing (R277, R295, R298 to R302), ports, frames and credit
(R280 to R284, R290, R292), multicast (R305), requests and their tags (R183, R287, R289). -/

namespace Sys2Proof.Machine

/-- Message fields of ADDR: offset, LAST, identifier (R288). -/
def msgAddr (off : Nat) (last : Bool) (id : Nat) : Nat := off % 2 ^ 32 + (if last then 2 ^ 32 else 0) + 2 ^ 48 * (id % 65536)

/-- KIND of a collective message (R322). -/
def CollBody.kind : CollBody → Nat
  | .data _ _ _ _ _ => 0 | .join _ _ _ _ => 1 | .shardReq _ _ _ _ _ _ _ _ _ => 2 | .shardReply _ _ _ _ _ _ => 3 | .ack _ => 0

/-- Message identifier and offset of a collective packet (R288), and what tells its message from others (R305). -/
def Packet.msgId (p : Packet) : Nat :=
  match p.msg with
  | .coll comm cseq _ => (64 * cseq + comm) % 65536
  | _ => 0
def Packet.msgOff (p : Packet) : Nat :=
  match p.msg with
  | .coll _ _ (.data _ off _ _ _) => off
  | _ => 0
def Packet.mcKey (p : Packet) : Nat :=
  match p.msg with
  | .coll comm cseq _ => comm + 64 * cseq
  | _ => 0

/-- ADDR of a packet (R287, R288, R322, R476). -/
def Packet.addr (p : Packet) : Nat :=
  match p.part with
  | some x => msgAddr x.off x.last x.id
  | none =>
    match p.msg with
    | .rdReq a _ | .wr a _ _ => a
    | .rdResp off _ => off
    | .post v _ _ => v
    | .gsub m => msgAddr 0 true m.op
    | .gpart m => msgAddr 0 true m.op
    | .coll _ _ (.data _ off total _ b) => msgAddr off (decide (total ≤ off + b.length)) p.msgId
    | .coll _ _ _ => msgAddr 0 true p.msgId
    | .mapsw mseq _ _ => mseq
    | .detach id off _ _ => msgAddr off false id
    | .ckpt (.data off _) => off
    | .ckpt (.hold e) | .ckpt (.state e _) | .ckpt (.go e _) => e
    | .other _ a _ _ => a
    | _ => 0

/-- AUX of a packet (R287, R322, R476). -/
def Msg.aux : Msg → Nat
  | .rdReq _ n => n
  | .wr _ wb _ => if wb then 1 else 0
  | .wrAck n => n
  | .post _ msem n => msem + 256 * n
  | .flushAck code rej => code + 256 * rej
  | .coll comm cseq b => comm + 64 * (cseq % 2 ^ 24) + 2 ^ 30 * b.kind
  | .mapsw _ map rel => map + (if rel then 256 else 0)
  | .detach _ _ dir _ => dir
  | .ckpt (.data _ _) => 0
  | .ckpt (.hold _) => 1
  | .ckpt (.state _ _) => 2
  | .ckpt (.go _ _) => 3
  | .ckptAck st => st
  | .other _ _ a _ => a
  | _ => 0

/-- STATUS of a packet: a fragment carries its own. -/
def Packet.statusByte (p : Packet) : Nat :=
  match p.msg with
  | .coll _ _ (.data _ _ _ st _) => st
  | _ => p.status

/-- A recovery record (R476). -/
def CkptRec.bytes (r : CkptRec) : List Byte :=
  toLe 8 (r.newest.getD (2 ^ 64 - 1)) ++ toLe 4 r.epoch ++ toLe 1 ((if r.hbm then 1 else 0) + (if r.cave then 2 else 0) + (if r.hist then 4 else 0)) ++
    toLe 1 r.exp ++ toLe 1 r.probe ++ toLe 2 r.clean ++ List.replicate 15 0

/-- A promenade record of 64 bytes: root, kind, fields in order. DESIGN CHOICE, safe (log 108). -/
def PromMsg.bytes (root : W64) (m : PromMsg) : List Byte :=
  let v := fun (x : Vector Nat 3) => (x.toList.map fun y => toLe 4 y).flatten
  let b := match m with
    | .walk a d c => [0#8] ++ toLe 1 a ++ toLe 1 d ++ toLe 4 c
    | .walkAck a d => [1#8] ++ toLe 1 a ++ toLe 1 d
    | .finish a d c r => [2#8] ++ toLe 1 a ++ toLe 1 d ++ toLe 4 c ++ toLe 1 (if r then 1 else 0)
    | .set a n base r pos roots rings => [3#8] ++ toLe 1 a ++ toLe 4 n ++ toLe 4 base ++ toLe 1 (if r then 1 else 0) ++ v pos ++ v roots ++ toLe 1 rings
    | .report a n => [4#8] ++ toLe 1 a ++ toLe 4 n
    | .conflict => [5#8]
    | .done nx ny nz wx wy wz => [6#8] ++ toLe 4 nx ++ toLe 4 ny ++ toLe 4 nz ++ toLe 1 wx ++ toLe 1 wy ++ toLe 1 wz
    | .ask => [7#8]
    | .answer pos dims widths roots a d rings =>
      [8#8] ++ v pos ++ v dims ++ (widths.toList.map (BitVec.ofNat 8)) ++ v roots ++ toLe 1 a ++ toLe 1 d ++ toLe 1 rings
  let x := toLe 8 root.toNat ++ b
  x ++ List.replicate (64 - x.length) 0

/-- The payload of a whole message (R208, R232, R322, R476); where the spec lists fields without places, in the listed order. DESIGN CHOICE, safe (log 108). -/
def Msg.payload : Msg → List Byte
  | .rdResp _ d | .wr _ _ d | .other _ _ _ d => d
  | .gsub m =>
    toLe 2 m.table ++ toLe 2 m.version ++ toLe 2 m.op ++ toLe 2 m.chunk ++ toLe 2 m.entries.length ++ List.replicate 22 0 ++
      (m.entries.map fun e => toLe 16 (e.q + 2 ^ 40 * e.bag + (if e.fill then 2 ^ 56 else 0) + 2 ^ 64 * e.weight.toNat)).flatten
  | .gpart m =>
    toLe 2 m.op ++ toLe 2 m.chunk ++ toLe 2 m.parts.length ++ toLe 2 m.code ++ toLe 4 m.errs.length ++ List.replicate 20 0 ++
      (m.parts.map fun p => toLe 16 p.1 ++ (p.2.map fun x => toLe 4 x.toNat).flatten).flatten ++ (m.fills.map fun f => toLe 8 f.1 ++ f.2).flatten
  | .flush p =>
    toLe 2 p.table ++ toLe 2 p.version ++ toLe 4 p.step ++ toLe 3 p.faddr ++ toLe 2 p.vcid ++ toLe 1 p.entries.length ++
      toLe 3 ((if p.wire then 1 else 0) + 2 * p.dim) ++ List.replicate 15 0 ++
      (p.entries.map fun e => toLe 8 e.q ++ (e.data.map fun x => if p.wire then toLe 2 (x.toNat / 65536) else toLe 4 x.toNat).flatten).flatten
  | .coll _ _ (.data _ _ _ _ b) => b
  | .coll _ _ (.join d st cr cs) => toLe 8 d ++ toLe 8 st.toNat ++ toLe 4 cr ++ List.replicate 12 0 ++ (cs.map fun c => toLe 4 c).flatten
  | .coll _ _ (.shardReq t v _ _ q n step lease rel) =>
    toLe 16 (q + 2 ^ 40 * t + 2 ^ 56 * v + 2 ^ 72 * n + 2 ^ 88 * step + (if lease then 2 ^ 104 else 0) + (if rel then 2 ^ 105 else 0))
  | .coll _ _ (.shardReply _ _ _ _ u rs) => toLe 8 u ++ (rs.map (·.2)).flatten
  | .coll _ _ (.ack u) => toLe 8 u
  | .collAck _ _ (.ack u) => toLe 8 u
  | .collAck _ _ _ => List.replicate 8 0
  | .ckpt (.data _ b) => b
  | .ckpt (.state _ r) | .ckpt (.go _ r) => r.bytes
  | .detach _ _ _ child => toLe 4 child
  | .prom root m => m.bytes root
  | _ => []

/-- The payload of a packet: a piece of its message, when it was split (R288). -/
def Packet.payload (p : Packet) : List Byte :=
  match p.part with
  | some x => (p.msg.payload.drop x.off).take x.n
  | none => p.msg.payload

/-- The 32-byte header (R286). -/
def Packet.header (p : Packet) : List Byte :=
  toLe 1 p.msg.typ ++ toLe 1 (p.cls % 4 + (if p.vl then 4 else 0) + 8 * (p.map % 8) + (if p.mc then 64 else 0) + (if p.stripe then 128 else 0)) ++
    toLe 2 p.len ++ toLe 4 ((if p.mc then p.group % 65536 else p.dst % 2 ^ 24) + 2 ^ 24 * (p.rsvd % 256)) ++
    toLe 4 (p.src % 2 ^ 24 + 2 ^ 24 * (p.srcCel % 4) + 2 ^ 26 * (p.rsvd / 256)) ++
    toLe 4 (p.tag % 16384 + 16384 * (p.tagCel % 4) + 65536 * (p.gen % 256) + 2 ^ 24 * p.statusByte) ++
    toLe 8 p.addr ++ toLe 4 p.msg.aux ++ toLe 4 p.hops

/-- The CRC over a packet's header and payload (R285). -/
def Packet.crc (p : Packet) : Nat := crc32c (p.header ++ p.payload)

/-- The CRC its trailer carries: a packet that arrived bad stays bad. DESIGN CHOICE, safe (log 108). -/
def Packet.trailer (p : Packet) : Nat := p.crc ^^^ p.crcErr

/-- A packet as bytes, to a multiple of 32 (R285). -/
def Packet.bytes (p : Packet) : List Byte :=
  if p.msg = .idle then p.header
  else
    let x := p.header ++ p.payload ++ toLe 8 p.trailer
    x ++ List.replicate (32 * p.units - x.length) 0

/-- Coordinates of a FADDR under widths (R295). -/
def FabSt.coords (f : FabSt) (a : Nat) : List Nat :=
  [a / 2 ^ (f.wy + f.wz) % 2 ^ f.wx, a / 2 ^ f.wz % 2 ^ f.wy, a % 2 ^ f.wz]

/-- FADDR of coordinates (R295). -/
def FabSt.addrOf (f : FabSt) (x y z : Nat) : Nat := x * 2 ^ (f.wy + f.wz) + y * 2 ^ f.wz + z

/-- Coordinate of a FADDR on an axis. -/
def FabSt.coord (f : FabSt) (a axis : Nat) : Nat := ((f.coords a)[axis]?).getD 0

/-- Axis order of a map (R302). -/
def orderAxes : Nat → List Nat
  | 1 => [0, 2, 1] | 2 => [1, 0, 2] | 3 => [1, 2, 0] | 4 => [2, 0, 1] | 5 => [2, 1, 0] | _ => [0, 1, 2]

/-- Direction index of an axis and sense: 2a for +, 2a + 1 for − (R302). -/
def dirOf (axis : Nat) (minus : Bool) : Nat := 2 * axis + (if minus then 1 else 0)

/-- Lower port of the pair that faces a direction (R277). -/
def pairLow (d : Nat) : Nat := 4 * (d / 2) + 2 * (d % 2)

/-- Direction a port faces (R277). -/
def portDir (p : PortId) : Nat := 2 * (p.val / 4) + p.val % 4 / 2

/-- Whether a port carries traffic (R284). -/
def Port.isUp (x : Port) : Bool := x.state = 2 || x.state = 3

/-- Whether a port of the module carries traffic. -/
def FabSt.portUp (f : FabSt) (p : Nat) : Bool := ((f.ports[p]?).map Port.isUp).getD false

/-- Whether a direction has a port that carries traffic. -/
def FabSt.dirUp (f : FabSt) (d : Nat) : Bool := f.portUp (pairLow d) || f.portUp (pairLow d + 1)

/-- The map a packet uses: its MAP, map 0 in the checkpoint class (R298, R301). -/
def FabSt.mapOf (f : FabSt) (p : Packet) : RouteMap :=
  let n := if p.cls = 3 then 0 else p.map
  ((f.slots[n]?).getD none).getD { order := 0, axrule := 0, split := false, groups := [] }

/-- The direction a map's axis rule gives from coordinate c to t on an axis (R298). DEDUCED, unsafe (log 71). -/
def FabSt.senseOf (f : FabSt) (m : RouteMap) (axis c t : Nat) : Bool :=
  let n := (f.dims[axis]?).getD 1
  if (f.rings[axis]?).getD false then
    match bits m.axrule (2 * axis + 1) (2 * axis) with
    | 1 => false
    | 2 => true
    | _ => !decide (2 * ((t + n - c) % max 1 n) ≤ n)
  else decide (t < c)

/-- The direction a packet leaves in; none when it has arrived or no direction is available (R298, R300). -/
def FabSt.routeDir (f : FabSt) (m : RouteMap) (dst : Nat) : Option Nat :=
  match (orderAxes m.order).find? fun a => f.coord f.faddr.toNat a ≠ f.coord dst a with
  | none => none
  | some a =>
    let minus := f.senseOf m a (f.coord f.faddr.toNat a) (f.coord dst a)
    let d := dirOf a minus
    if f.dirUp d then some d
    else if (f.rings[a]?).getD false && f.dirUp (dirOf a !minus) then some (dirOf a !minus)
    else none

/-- The port of a pair that carries a packet (R299). DESIGN CHOICE, safe (log 92). -/
def FabSt.pickPort (f : FabSt) (m : RouteMap) (p : Packet) (d : Nat) : Nat :=
  let sel := if m.split then (if p.cls ≤ 1 then 0 else 1)
    else (Config.portHash p.src p.dst p.cls + (if p.stripe then 1 else 0)) % 2
  let a := pairLow d + sel
  if f.portUp a then a else pairLow d + (1 - sel)

/-- Whether leaving in a direction crosses the dateline of a ring (R298). -/
def FabSt.dateline (f : FabSt) (d : Nat) : Bool :=
  let a := d / 2
  let n := (f.dims[a]?).getD 1
  let c := f.coord f.faddr.toNat a
  (f.rings[a]?).getD false && (if d % 2 = 0 then decide (c + 1 = n) else decide (c = 0))

/-- VL of a packet leaving in direction `d` after arriving along axis `arr` (none at its source). -/
def FabSt.vlOut (f : FabSt) (p : Packet) (arr : Option Nat) (d : Nat) : Bool :=
  f.dateline d || (p.vl && arr = some (d / 2))

/-- Buffer units of a class per port (R290). -/
def classUnits : Nat → Nat
  | 2 => 384 * 32 | 3 => 128 * 32 | _ => 256 * 32

/-- Whether a port holds credit for a packet's class and VL: 16 KiB reserved for each VL, the rest shared (R290). -/
def Port.mayTake (x : Port) (p : Packet) : Bool :=
  let q := 2 * p.cls + (if p.vl then 1 else 0)
  let u := (x.used[q]?).getD 0 + p.units
  let o := (x.used[2 * p.cls + (if p.vl then 0 else 1)]?).getD 0
  decide ((u - 512) + (o - 512) ≤ classUnits p.cls - 1024)

/-- Queue of a packet's class and VL. -/
def Packet.queue (p : Packet) : Fin 8 := Fin.ofNat 8 (2 * p.cls + (if p.vl then 1 else 0))

/-- The credit that a link word returns: one queue's (R280). -/
def Port.credit (x : Port) : Nat × Nat × Port :=
  match (List.finRange 8).find? fun q => x.owed[q] ≠ 0 with
  | some q => (q.val, min x.owed[q] 4095, { x with owed := x.owed.set q (x.owed[q] - 4095) })
  | none => (0, 0, x)

/-- The last frame received in order (R280). -/
def Port.lastRx (x : Port) : Nat := (x.rxSeq + 4094) % 4095

/-- A frame of a port with its link word (R280, R281). -/
def Port.frame (x : Port) (seq : Nat) (cs : List Chunk) : Frame × Port :=
  let (q, n, y) := x.credit
  ({ fseq := seq, ack := x.lastRx, nak := x.nakOut, cq := q, cred := n, good := true, corrected := 0, uncorrectable := 0, chunks := cs },
    { y with ackDue := false })

/-- A stored frame sent again, with the port's present ACK (R281). -/
def Port.again (x : Port) (f : Frame) : Frame := { f with ack := x.lastRx, nak := x.nakOut }

/-- The packets of a class that may go next: the oldest of each VL, while credit covers it (R290, R299). -/
def Port.heads (x : Port) (cls : Nat) : List SendEnt :=
  let q := x.sendq.filter fun e => e.pkt.cls = cls
  ([q.find? (fun e => !e.pkt.vl), q.find? (fun e => e.pkt.vl)].filterMap id).filter fun e => x.mayTake e.pkt

/-- The weight of a class (R292, R309). -/
def classWeight (cfg : W64) (cls : Nat) : Nat :=
  let w := bits cfg.toNat (23 + 4 * cls) (20 + 4 * cls)
  if w = 0 then 1 else w

/-- The packet served next: weighted round robin over the classes, a turn worth its weight times the longest packet; an idle class yields its share (R292). DESIGN CHOICE, safe (log 109). -/
def Port.pick (cfg : W64) : Nat → Port → Option (SendEnt × Port)
  | 0, _ => none
  | n + 1, x =>
    let go := fun (x : Port) =>
      let t := x.turn + 1
      { x with turn := t, deficit := x.deficit.set t (x.deficit[t] + 138 * classWeight cfg t.val) }
    match x.heads x.turn.val with
    | [] => Port.pick cfg n (go { x with deficit := x.deficit.set x.turn 0 })
    | e :: _ =>
      if e.pkt.units ≤ x.deficit[x.turn] then
        some (e, { x with sendq := x.sendq.erase e, deficit := x.deficit.set x.turn (x.deficit[x.turn] - e.pkt.units) })
      else Port.pick cfg n (go x)

/-- A packet begun: its buffer is taken at the far end, its bytes count (R290, R310). -/
def Port.begin (x : Port) (p : Packet) : Port :=
  { x with cur := some (p, 0), used := x.used.set p.queue (x.used[p.queue] + p.units), txBytes := x.txBytes + BitVec.ofNat 64 (40 + p.len) }

/-- The packet runs of one frame with `room` units left (R280, R285). -/
def Port.fill (cfg : W64) : Nat → Nat → List Chunk → Port → List Chunk × Port
  | 0, _, cs, x => (cs, x)
  | n + 1, room, cs, x =>
    if room = 0 then (cs, x)
    else
      match x.cur with
      | some (p, off) =>
        let k := min room (p.units - off)
        Port.fill cfg n (room - k) (cs ++ [⟨p, off, k, p.trailer⟩]) { x with cur := if p.units ≤ off + k then none else some (p, off + k) }
      | none =>
        match x.pick cfg 9 with
        | none => (cs, x)
        | some (e, y) => Port.fill cfg n room cs (y.begin e.pkt)

/-- Frames sent while there is something to send, credit for it, and fewer than 400 frames await their acknowledgement (R280, R282, R290). -/
def Port.drain (cfg : W64) : Nat → Port → List Frame → List Frame × Port
  | 0, x, out => (out, x)
  | n + 1, x, out =>
    if 400 ≤ x.stored.length then (out, x)
    else
      match x.fill cfg 82 40 [] with
      | ([], _) => (out, x)
      | (cs, y) =>
        let (f, z) := y.frame y.txSeq cs
        Port.drain cfg n { z with txSeq := (z.txSeq + 1) % 4095, stored := z.stored ++ [f] } (out ++ [f])

/-- Null frames while an acknowledgement or credit is due and nothing else carries it (R281, R282). DESIGN CHOICE, safe (log 109). -/
def Port.nulls : Nat → Port → List Frame → List Frame × Port
  | 0, x, out => (out, x)
  | n + 1, x, out =>
    if x.ackDue || x.owed.toList.any (fun o => o ≠ 0) then
      let (f, y) := x.frame 4095 []
      Port.nulls n y (out ++ [f])
    else (out, x)

/-- Everything a port may send now (R280 to R282, R290). -/
def Port.flush (cfg : W64) (x : Port) : List Frame × Port :=
  if !x.isUp then ([], x)
  else
    let n := x.sendq.foldl (fun a e => a + e.pkt.units) 0
    let (out, x) := x.drain cfg (n + 8) []
    x.nulls 40 out

/-- A port changed, and what it may send sent. -/
def FabSt.setPort (f : FabSt) (i : PortId) (x : Port) : FabSt :=
  let (out, y) := x.flush f.cfg
  { f with ports := f.ports.set i y, wire := f.wire ++ out.map fun g => (i.val, g) }

/-- The stored frames of a port sent again, then what else it may send (R281, R283). -/
def FabSt.replay (f : FabSt) (i : PortId) (x : Port) : FabSt :=
  { f with wire := f.wire ++ x.stored.map fun g => (i.val, x.again g) }.setPort i x

/-- A packet queued on a port. -/
def FabSt.queueOn (f : FabSt) (i : Nat) (e : SendEnt) : FabSt :=
  let i := Fin.ofNat 12 i
  f.setPort i { f.ports[i] with sendq := f.ports[i].sendq ++ [e] }

/-- A packet sent in a direction, after arriving along an axis (R298, R299). -/
def FabSt.sendDir (f : FabSt) (p : Packet) (arr : Option Nat) (d : Nat) : FabSt :=
  let q := { p with vl := f.vlOut p arr d }
  f.queueOn (f.pickPort (f.mapOf p) q d) ⟨q, arr, p.vl⟩

/-- The response to a discarded request (R300). DESIGN CHOICE, safe (log 73). -/
def Msg.unreach : Msg → Option Msg
  | .rdReq _ _ => some (.rdResp 0 [])
  | .wr _ _ _ => some (.wrAck 0)
  | .post _ _ _ => some (.wrAck 0)
  | .gsub m => some (.gpart ⟨m.core, m.op, m.chunk, m.shard, m.home, m.cellar, stUnreach, [], [], []⟩)
  | .flush _ => some (.flushAck stUnreach 0)
  | _ => none

/-- A response to a packet: it goes back to the source with its tag, generation and map (R287, R298). -/
def Packet.respond (p : Packet) (own status : Nat) (m : Msg) : Packet :=
  { p with dst := p.src, src := own, mc := false, group := 0, status := status, hops := 0, vl := false, cls := m.cls, rsvd := 0, crcErr := 0,
           part := none, msg := m }

/-- A packet delivered to this module: a piece of a split message waits until the message is whole (R288). -/
def FabSt.deliver (f : FabSt) (p : Packet) : FabSt :=
  match p.part with
  | none => { f with deliv := f.deliv ++ [p] }
  | some x =>
    let same := fun (q : Packet) => q.src = p.src && q.msg.typ = p.msg.typ && (q.part.map (·.id)) = some x.id
    let have' := p :: f.asm.filter fun q => same q && (q.part.map (·.off)) ≠ some x.off
    let rest := f.asm.filter fun q => !same q
    if p.msg.len ≤ have'.foldl (fun a q => a + q.len) 0 then { f with asm := rest, deliv := f.deliv ++ [{ p with part := none }] }
    else { f with asm := rest ++ have' }

/-- A packet delivered here, or sent where its map leads; none without a direction (R298, R300). -/
def FabSt.toward (f : FabSt) (p : Packet) (arr : Option Nat) : Option FabSt :=
  if p.dst = f.faddr.toNat then some (f.deliver p) else (f.routeDir (f.mapOf p) p.dst).map fun d => f.sendDir p arr d

/-- A packet discarded for want of a direction: counted and logged (R300). -/
def State.noRoute (s : State) (p : Packet) : State :=
  ({ s with fab := { s.fab with noroute := s.fab.noroute + 1 } }).event (s.lpFor p.srcCel) 1 2 [p.msg.typ, p.cls, p.src, p.dst]

/-- Routing a packet out of this module along the map it names; `arr` is the axis it came along. A packet for this module is
delivered, one without a direction discarded, counted, logged and, at a request, answered (R298, R300). -/
def State.route (s : State) (p : Packet) (arr : Option Nat) : State :=
  match s.fab.toward p arr with
  | some f => { s with fab := f }
  | none =>
    let s := s.noRoute p
    match p.msg.unreach with
    | none => s
    | some m =>
      let r := p.respond s.fab.faddr.toNat stUnreach m
      match s.fab.toward r none with
      | some f => { s with fab := f }
      | none => s.noRoute r

/-- Whether a message is split: one of more than 4,352 bytes (R288). -/
def Msg.splits (m : Msg) : Bool := decide (4352 < m.len) && (m.typ = 0x10 || m.typ = 0x11 || m.typ = 0x20)

/-- The packets of a message: it, or its pieces of 4,096 bytes (R288). -/
def Packet.pieces (p : Packet) (id : Nat) : List Packet :=
  if !p.msg.splits then [p]
  else
    let n := ceilDiv p.msg.len 4096
    (List.range n).map fun k => { p with part := some ⟨4096 * k, min 4096 (p.msg.len - 4096 * k), k + 1 = n, id % 65536⟩ }

/-- A message of this module on its way (R288, R298). -/
def State.sendMsg (s : State) (p : Packet) : State :=
  (p.pieces s.fab.msgNext).foldl (fun s q => s.route q none) { s with fab := { s.fab with msgNext := s.fab.msgNext + 1 } }

/-- The neighbour of this module in a direction (R277, R295). -/
def FabSt.neighbour (f : FabSt) (d : Nat) : Nat :=
  let pos := f.coords f.faddr.toNat
  let a := d / 2
  let n := max 1 ((f.dims[a]?).getD 1)
  let x := (pos[a]?).getD 0
  let y := if d % 2 = 0 then (x + 1) % n else (x + n - 1) % n
  let g := fun i => if i = a then y else (pos[i]?).getD 0
  f.addrOf (g 0) (g 1) (g 2)

/-- Whether a packet belongs to the multicast message of another (R305). -/
def Packet.sameMc (p q : Packet) : Bool := q.mc && q.src = p.src && q.mcKey = p.mcKey

/-- The packets of a multicast message that a branch still holds: those of its ports, or those delivered here and not yet taken. -/
def FabSt.branchHas (f : FabSt) (p : Packet) (d : Nat) : List Packet :=
  if d = 6 then f.deliv.filter p.sameMc
  else
    let q := fun (i : Nat) => ((f.ports[i]?).map fun x => (x.sendq.map (·.pkt)).filter p.sameMc).getD []
    q (pairLow d) ++ q (pairLow d + 1)

/-- A branch without the packets of a multicast message that have not begun to leave. -/
def FabSt.dropBranch (f : FabSt) (p : Packet) (d : Nat) : FabSt :=
  if d = 6 then { f with deliv := f.deliv.filter fun q => !p.sameMc q }
  else
    { f with ports := Vector.ofFn fun (i : PortId) =>
        if portDir i = d then { f.ports[i] with sendq := f.ports[i].sendq.filter fun e => !p.sameMc e.pkt } else f.ports[i] }

/-- A branch detached for the rest of a message: DETACH names its child and the offset reached (R305). A local branch's child is this module. DESIGN CHOICE, safe (log 110). -/
def State.detachBranch (s : State) (p : Packet) (d off : Nat) : State :=
  let f := s.fab.dropBranch p d
  let f := { f with detached := f.detached ++ [⟨p.src, p.mcKey, d⟩], mcDetach := f.mcDetach + 1 }
  let child := if d = 6 then f.faddr.toNat else f.neighbour d
  ({ s with fab := f }).route (p.respond f.faddr.toNat stOk (.detach p.msgId off (if d = 6 then 0 else 2 ^ d) child)) none

/-- One branch of a multicast: sent, or detached when its ports fail (R305). -/
def State.branch (s : State) (p : Packet) (arr : Option Nat) (d : Nat) : State :=
  if s.fab.detached.contains ⟨p.src, p.mcKey, d⟩ then s
  else if d = 6 then
    if p.msg.typ = 0x20 && p.crcOk then { s with fab := s.fab.deliver p } else { s with fab := { s.fab with pktBad := s.fab.pktBad + 1 } }
  else if s.fab.dirUp d then { s with fab := s.fab.sendDir p arr d }
  else s.detachBranch p d p.msgOff

/-- The branches that trail the furthest one of a message by more than 64 flits are detached (R305). -/
def State.detachTrailing (s : State) (p : Packet) (ds : List Nat) : State :=
  let live := ds.filter fun d => !s.fab.detached.contains ⟨p.src, p.mcKey, d⟩
  let lag : List (Nat × Nat) := live.map fun d => (d, (s.fab.branchHas p d).foldl (fun a q => a + q.units) 0)
  let best := lag.foldl (fun a x => min a x.2) ((lag.head?.map (·.2)).getD 0)
  lag.foldl (fun (s : State) (x : Nat × Nat) =>
    if x.2 ≤ best + 512 then s
    else s.detachBranch p x.1 ((s.fab.branchHas p x.1).foldl (fun a q => min a q.msgOff) p.msgOff)) s

/-- Replicating a multicast packet (R305): one without an entry has no direction. DESIGN CHOICE, safe (log 73). -/
def State.routeMc (s : State) (p : Packet) (arr : Option Nat) : State :=
  match (s.fab.mapOf p).groups.find? fun g => g.group = p.group with
  | none => s.noRoute p
  | some g =>
    let ds := ((List.range 6).filter fun d => bit g.out d) ++ (if g.isLocal then [6] else [])
    (ds.foldl (fun s d => s.branch p arr d) s).detachTrailing p ds

/-- Whether a map switch holds a new packet back (R303). -/
def FabSt.holds (f : FabSt) (p : Packet) : Bool :=
  f.switch.isSome && (p.cls = 0 || p.cls = 2) && p.msg.typ ≠ 0x28

/-- A new packet of this module: it takes the current map, and waits while a switch stops injection (R298, R303). -/
def State.inject (s : State) (p : Packet) : State :=
  let p := { p with map := if p.cls = 3 then 0 else s.fab.mapCur }
  if s.fab.holds p then { s with fab := { s.fab with held := s.fab.held ++ [p] } }
  else if p.mc then s.routeMc p none else s.sendMsg p

/-- A packet of this module to a module. -/
def State.packet (s : State) (dst cel : Nat) (m : Msg) : Packet :=
  { dst := dst, src := s.fab.faddr.toNat, srcCel := cel, mc := false, group := 0, vl := false, map := s.fab.mapCur, stripe := false,
    tag := 0, tagCel := cel, gen := 0, status := 0, hops := 0, cls := m.cls, rsvd := 0, crcErr := 0, part := none, msg := m }

/-- Bytes a request's long tags cover: those of its response or write payload (R287); the caller gives those of a sub-request's response. -/
def Msg.tagBytes : Msg → Nat
  | .rdReq _ n => n
  | .coll _ _ _ => 4096
  | m => m.len

/-- Long tags of a Cellar in use. -/
def FabSt.tagsUsed (f : FabSt) (cel : Nat) : Nat := f.reqs.foldl (fun a r => if r.cel = cel && !r.done then a + r.n else a) 0

/-- The lowest run of `n` free tags of a Cellar, none when no run is free. -/
def FabSt.freeTags (f : FabSt) (cel n : Nat) : Option Nat :=
  let rs := f.reqs.filter fun r => r.cel = cel && !r.done
  (0 :: rs.map fun r => r.tag + r.n).find? fun t =>
    decide (t + n ≤ 16384) && rs.all fun r => !overlaps t n r.tag r.n

/-- Whether a request writes: it holds core write tags (R183). -/
def NetReq.writes (r : NetReq) : Bool := r.msg.typ = 3 || r.msg.typ = 0x12

/-- Tags of a core's pool that a request holds (R183); one beyond the pool holds all of it. DESIGN CHOICE, safe (log 111). -/
def NetReq.coreTags (r : NetReq) (c : Nat) (write : Bool) : Nat :=
  match r.owner with
  | .core k _ => if k = c && r.writes = write then min (if write then 256 else 512) (ceilDiv r.bytes 128) else 0
  | _ => 0

/-- Tags of a core's pool in use: 512 for reads, 256 for writes (R183). -/
def FabSt.coreUsed (f : FabSt) (c : Nat) (write : Bool) : Nat :=
  (f.reqs.filter (fun r => !r.done) ++ f.locals).foldl (fun a r => a + r.coreTags c write) 0

/-- Whether the core of a request has the tags for it (R183). -/
def FabSt.coreFree (f : FabSt) (r : NetReq) : Bool :=
  match r.owner with
  | .core c _ => decide (f.coreUsed c r.writes + r.coreTags c r.writes ≤ if r.writes then 256 else 512)
  | _ => true

/-- GEN of a tag (R289). -/
def FabSt.gen (f : FabSt) (cel tag : Nat) : Nat := (Cells.get f.gens (cel * 16384 + tag)).toNat

/-- Sending a request that holds its tags: over the fabric, or, for a unit of this module, to that unit (R183, R287). -/
def State.launch (s : State) (r : NetReq) (t : Nat) : State :=
  if r.dst = s.fab.faddr.toNat then
    let s := { s with fab := { s.fab with locals := s.fab.locals ++ [r] } }
    match r.msg with
    | .gsub m => { s with gsubs := s.gsubs ++ [m] }
    | .flush p => { s with grads := s.grads ++ [p] }
    | _ => s
  else
    let r := { r with tag := t, gen := s.fab.gen r.cel t, map := s.fab.mapCur }
    let used := s.fab.tagsUsed r.cel + r.n
    let i := Fin.ofNat 4 r.cel
    let s := { s with
      fab := { s.fab with reqs := s.fab.reqs ++ [r] }
      mem := { s.mem with stat := s.mem.stat.set i { s.mem.stat[i] with ltagNow := max s.mem.stat[i].ltagNow used } } }
    s.inject { s.packet r.dst r.cel r.msg with tag := t, tagCel := r.cel, gen := r.gen, cls := r.cls, stripe := r.stripe }

/-- The first long tag of a request that may go now, 0 for one within the module; none while a pool does not hold enough (R183). -/
def State.mayLaunch (s : State) (r : NetReq) : Option Nat :=
  if !s.fab.coreFree r then none else if r.dst = s.fab.faddr.toNat then some 0 else s.fab.freeTags r.cel r.n

/-- A request to another module, or to a unit of this one that answers later: it takes its tags, or waits for them behind the earlier ones of its owner
(R183, R287). -/
def State.request (s : State) (o : ReqOwner) (dst cel : Nat) (m : Msg) (place : Nat) (bytes : Nat := m.tagBytes) (cls : Nat := m.cls)
    (stripe : Bool := false) : State :=
  let r : NetReq :=
    { tag := 0, cel := cel % 4, n := min 16384 (max 1 (ceilDiv bytes 256)), bytes := bytes, gen := 0, dst := dst, map := 0, owner := o, msg := m,
      cls := cls, stripe := stripe, place := place, got := 0, done := false, status := 0, data := [] }
  match (if s.fab.tagWait.any fun w => w.owner = o then none else s.mayLaunch r) with
  | some t => s.launch r t
  | none => { s with fab := { s.fab with tagWait := s.fab.tagWait ++ [r] } }

/-- The first waiting request that may go: none of its owner stands before it, and its tags are free. -/
def State.nextWaiting (s : State) : Option (NetReq × Nat) :=
  s.fab.tagWait.zipIdx.findSome? fun x =>
    if (s.fab.tagWait.take x.2).any fun w => w.owner = x.1.owner then none else (s.mayLaunch x.1).map fun t => (x.1, t)

/-- Requests waiting for tags that can go now, oldest first. -/
def State.retryTags : Nat → State → State
  | 0, s => s
  | n + 1, s =>
    match s.nextWaiting with
    | none => s
    | some (r, t) => State.retryTags n (({ s with fab := { s.fab with tagWait := s.fab.tagWait.erase r } }).launch r t)

/-- Freeing the tags of a request; `late` raises GEN for each tag (R289). -/
def State.freeReq (s : State) (r : NetReq) (late : Bool) : State :=
  let f := s.fab
  let g := if late then
      (List.range r.n).foldl (fun g i =>
        Cells.set g (r.cel * 16384 + r.tag + i) (Cells.get g (r.cel * 16384 + r.tag + i) + 1)) f.gens
    else f.gens
  ({ s with fab := { f with gens := g, reqs := f.reqs.filter fun x => x.done || !(x.tag = r.tag && x.cel = r.cel) } }).retryTags
    f.tagWait.length

/-- Freeing the core tags of a request within the module that a unit has answered: the first that a test holds of (R183). -/
def State.freeLocal (s : State) (want : NetReq → Bool) : State :=
  match s.fab.locals.find? want with
  | none => s
  | some r => ({ s with fab := { s.fab with locals := s.fab.locals.erase r } }).retryTags s.fab.tagWait.length

/-- The request a response answers: its tag, with the tag's current GEN (R289). -/
def FabSt.reqOf (f : FabSt) (p : Packet) : Option NetReq :=
  f.reqs.find? fun r => r.tag = p.tag && r.cel = p.tagCel && r.gen = p.gen && !r.done

/-- Removing delivered packet `k`. DESIGN CHOICE, safe (log 73). -/
def State.takeDeliv (s : State) (k : Nat) : State := { s with fab := { s.fab with deliv := s.fab.deliv.eraseIdx k } }

/-- Delivered packet `k` when a test on its message holds. -/
def State.delivered (s : State) (k : Nat) : Option Packet := s.fab.deliv[k]?

/-- Counting a bad packet (R287). -/
def State.badPacket (s : State) : State := { s with fab := { s.fab with pktBad := s.fab.pktBad + 1 } }

/-- A late response (R289). -/
def State.lateResp (s : State) : State := { s with fab := { s.fab with lateResp := s.fab.lateResp + 1 } }

/-- A packet that a port no longer up had not begun to send: the pair's other port takes it, a multicast branch without ports is detached, any other packet is
routed anew, and a link-local one is gone (R299, R300, R305). -/
def State.requeue (s : State) (d : Nat) (e : SendEnt) : State :=
  if e.pkt.msg.typ = 0x38 then s
  else if s.fab.dirUp d then { s with fab := s.fab.queueOn (if s.fab.portUp (pairLow d) then pairLow d else pairLow d + 1) e }
  else if e.pkt.mc then
    if s.fab.detached.contains ⟨e.pkt.src, e.pkt.mcKey, d⟩ then s else s.detachBranch e.pkt d e.pkt.msgOff
  else s.route { e.pkt with vl := e.vlIn } e.arr

/-- Changing a port's state: counted when it goes DOWN or FAILED, which discards the stored frames and the packets part-sent and part-received, and logged;
packets it had not begun find another way unless it trains, and its stored frames are replayed once it is up again (R283, R284, R299, R310). -/
def State.portState (s : State) (i : PortId) (st : Nat) : State :=
  let x := s.fab.ports[i]
  if x.state = st then s
  else
    let lost := st = 0 || st = 5
    let stays := st = 1 || st = 2 || st = 3
    let x1 := if lost then
        { x with down := x.down + 1, stored := [], cur := none, rxCur := none, used := Vector.replicate 8 0, owed := Vector.replicate 8 0, txSeq := 0,
                 rxSeq := 0, nakOut := false, naks := 0, ackDue := false }
      else x
    let y := { x1 with state := st, sendq := if stays then x.sendq else [] }
    let s := ({ s with fab := if y.isUp && !x.isUp then s.fab.replay i y else s.fab.setPort i y }).event (s.lpFor (i.val / 3)) 1 1 [i.val, x.state, st]
    if stays then s else x.sendq.foldl (fun s e => s.requeue (portDir i) e) s

/-- A map copied into a slot, or MAPLD BUSY: slot 0, the current map's slot, and one that a switch in progress names are refused
(R301). -/
def FabSt.loadMap (f : FabSt) (slot : Nat) (m : RouteMap) : FabSt :=
  let named := match f.switch with | some w => decide (w.map = slot) | none => false
  if slot = 0 || slot = f.mapCur || named then { f with mapld := 1 }
  else { f with slots := f.slots.set (Fin.ofNat 8 slot) (some m), mapld := 0 }

/-- Map 0: X, Y, Z with SHORT, HASH, no groups (R301). -/
def mapZero : RouteMap := { order := 0, axrule := 0, split := false, groups := [] }

/-- Whether the fabric is alive: the Cellar dies are on and ports may train (R426). -/
def State.fabricOn (s : State) : Bool := s.running

end Sys2Proof.Machine
end

