-- ==== Sys2Proof/Machine/FlitOps.lean ====
section
/-! DEFINITION. Flits of the die links: side words, sending, replay, spreading over modules, and the routes between dies (R13, R15, R16, R347 to R352). -/

namespace Sys2Proof.Machine

/-- The 256 bytes of a flit; unused command slots hold IDLE headers, which are zeros (R350). -/
def Flit.bytes (f : Flit) : List Byte :=
  let bs := if f.body.kind = 1 then (f.body.cmds.map Packet.header).flatten else (f.body.units.map (·.2)).flatten
  (bs ++ List.replicate 256 0).take 256

/-- Bits [95:0] of the side word (R349). -/
def Flit.side (f : Flit) : Nat :=
  let utag := fun (k : Nat) => ((f.body.units[k]?).map fun u => u.1 % 2 ^ 24).getD 0
  f.fseq % 4096 + 2 ^ 12 * (f.ack % 4096) + (if f.nak then 2 ^ 24 else 0) + 2 ^ 25 * (f.cq % 8) + 2 ^ 28 * (f.cred % 256) +
  2 ^ 36 * (f.body.kind % 8) + 2 ^ 40 * utag 0 + 2 ^ 64 * utag 1

/-- The CRC-32C of a flit, and the CRC field it carries (R349). -/
def Flit.crc (f : Flit) : Nat := crc32c (f.bytes ++ toLe 12 f.side)
def Flit.crcField (f : Flit) : Nat := f.crc ^^^ f.crcErr

/-- Whether a flit's CRC holds (R351). -/
def Flit.crcOk (f : Flit) : Bool := f.crcErr = 0

/-- Whether a module carries traffic (R354). -/
def DlMod.isUp (m : DlMod) : Bool := m.state = 2 || m.state = 3

/-- A module's payload rate in units of 1/34 of a half-width module's side-lane rate (R348). -/
def DlMod.share (m : DlMod) : Nat := (match m.state with | 2 => 2 | 3 => 1 | _ => 0) * (if m.inband then 16 else 17)

/-- The queue whose credit a flit spends: that of its first command's class; data spend none (R349, R350). DESIGN CHOICE, safe (log 113). -/
def FlitBody.queue (b : FlitBody) : Option (Fin 5) := b.cmds.head?.map fun p => Fin.ofNat 5 p.cls

/-- The last flit received in order (R349). -/
def DlMod.lastRx (m : DlMod) : Nat := (m.rxSeq + 4095) % 4096

/-- A flit with the side word its module now sends: ACK, NAK and the credit of one queue (R349). -/
def DlMod.flit (m : DlMod) (seq : Nat) (b : FlitBody) : Flit × DlMod :=
  let q := ((List.finRange 5).find? fun q => m.owed[q] ≠ 0).getD 0
  ({ fseq := seq, ack := m.lastRx, nak := m.nakOut, cq := q.val, cred := min m.owed[q] 255, crcErr := 0, body := b },
    { m with ackDue := false, owed := m.owed.set q (m.owed[q] - 255) })

/-- Flits sent while fewer than 128 await their acknowledgement (R351). -/
def DlMod.drain : Nat → DlMod → List Flit → List Flit × DlMod
  | 0, m, out => (out, m)
  | n + 1, m, out =>
    match m.sendq with
    | [] => (out, m)
    | b :: q =>
      if 128 ≤ m.stored.length then (out, m)
      else
        let (f, m) := m.flit m.txSeq b
        let m := match b.queue with | some k => { m with credit := m.credit.set k (m.credit[k] - 1) } | none => m
        DlMod.drain n { m with sendq := q, txSeq := (m.txSeq + 1) % 4096, stored := m.stored ++ [(f.fseq, b)], sent := m.sent + 1 } (out ++ [f])

/-- Idle flits while an acknowledgement or credit is due and nothing else carries it (R351). -/
def DlMod.idles : Nat → DlMod → List Flit → List Flit × DlMod
  | 0, m, out => (out, m)
  | n + 1, m, out =>
    if m.ackDue || m.owed.toList.any (fun o => o ≠ 0) then
      let (f, m) := m.flit m.txSeq ⟨0, [], []⟩
      DlMod.idles n m (out ++ [f])
    else (out, m)

/-- A module changed, and what it may send sent (R351, R354). -/
def DlSt.putMod (d : DlSt) (i : Nat) (m : DlMod) : DlSt :=
  if !m.isUp then d.setMod i m
  else
    let (out, m) := m.drain m.sendq.length []
    let (out, m) := m.idles 20 out
    { d.setMod i m with wire := d.wire ++ out.map fun f => (i, f) }

/-- A module changed, its stored flits replayed (R351, R357). -/
def DlSt.replay (d : DlSt) (i : Nat) (m : DlMod) : DlSt :=
  let again := m.stored.map fun x => (i, (m.flit x.1 x.2).1)
  { d with wire := d.wire ++ again }.putMod i m

/-- Flit bodies sent on a module, in order (R351); it leaves L1 (R354). -/
def DlSt.send (d : DlSt) (i : Nat) (bs : List FlitBody) : DlSt :=
  let m := d.modAt i
  d.putMod i { m with sendq := m.sendq ++ bs, l1 := false }

/-- The modules of a link, and those that carry traffic (R13, R352). -/
def linkIndices (l : Nat) : List Nat := (List.range (linkMods l)).map fun k => 16 * l + k
def DlSt.carriers (d : DlSt) (l : Nat) : List Nat := (linkIndices l).filter fun i => (d.modAt i).isUp

/-- Whether senders hold what they have for a link: no module carries traffic and some trains (R352). -/
def DlSt.holds (d : DlSt) (l : Nat) : Bool := (d.carriers l).isEmpty && (linkIndices l).any fun i => (d.modAt i).retraining && (d.modAt i).state = 1

/-- The module that has carried least for its rate (R13, R352). DESIGN CHOICE, safe (log 112). -/
def DlSt.nextModule (d : DlSt) (l : Nat) : Option Nat :=
  (d.carriers l).foldl (fun (best : Option Nat) i =>
    match best with
    | none => some i
    | some b => if (d.modAt i).sent * (d.modAt b).share < (d.modAt b).sent * (d.modAt i).share then some i else some b) none

/-- The flits of one packet sent on a link, all on one module; kept while its modules retrain, abandoned on a link that is down (R352, R359). -/
def DlSt.sendLink (d : DlSt) (l : Nat) (bs : List FlitBody) : DlSt :=
  match d.nextModule l with
  | some i => d.send i bs
  | none => if d.holds l then { d with held := d.held ++ [(l, bs)] } else d

/-- What a link's senders held, once a module carries traffic again; the spread starts anew (R352). -/
def DlSt.release (d : DlSt) (l : Nat) : DlSt :=
  let d := (linkIndices l).foldl (fun (d : DlSt) i => d.setMod i { d.modAt i with sent := 0 }) d
  let mine := d.held.filter fun h => h.1 = l
  mine.foldl (fun (d : DlSt) h => d.sendLink l h.2) { d with held := d.held.filter fun h => h.1 ≠ l }

/-- UTAG of a command: TAG[23:0] (R350). -/
def Packet.utag (p : Packet) : Nat := p.tag % 16384 + 16384 * (p.tagCel % 4) + 65536 * (p.gen % 256)

/-- Data units of 256 bytes; the last is filled up with zeros that nobody reads (R350). DESIGN CHOICE, safe (log 112). -/
def dataFlits (utag : Nat) (bs : List Byte) : List FlitBody :=
  (List.range (ceilDiv bs.length 256)).map fun k => ⟨3, [], [(utag, ((bs.drop (256 * k)).take 256 ++ List.replicate 256 0).take 256)]⟩

/-- A command's flits: its header, and a write's data after it (R350). -/
def Packet.flits (p : Packet) : List FlitBody :=
  match p.msg with
  | .wr a wb bs => ⟨1, [{ p with msg := .wr a wb [], part := some ⟨0, bs.length, true, 0⟩ }], []⟩ :: dataFlits p.utag bs
  | _ => [⟨1, [p], []⟩]

/-- The Vat die that forwards between a Vat die and a Cellar die that is not adjacent (R15). -/
def forwardVat (v c : Nat) : Option Nat :=
  match v, c with
  | 0, 1 => some 1 | 0, 2 => some 2 | 1, 2 => some 3 | 1, 3 => some 0 | 2, 0 => some 0 | 2, 1 => some 3 | 3, 0 => some 1 | 3, 3 => some 2
  | _, _ => none

/-- The link between two dies, numbered as in `linkDies`. -/
def linkOf (a b : Nat) : Option Nat := (List.range 18).find? fun l => linkDies l = (a, b) || linkDies l = (b, a)

/-- The two flows of a Vat–Vat direction (R15): the Cellar whose replies to `b` it carries, the Cellar that `a`'s requests on it go to. -/
def vatFlows (a b : Nat) : Option Nat × Option Nat :=
  ((List.range 4).find? fun c => forwardVat b c = some a, (List.range 4).find? fun c => forwardVat a c = some b)

/-- Links from a Vat die to a Cellar die (R13, R15). -/
def celRoute (v c : Nat) : List Nat :=
  match forwardVat v c with
  | some w => (linkOf v w).toList ++ (linkOf w (4 + c)).toList
  | none => (linkOf v (4 + c)).toList

/-- The Cellar a core's remote requests leave through, and its traffic with the Hub: its first adjacent Cellar die (R12, R16). -/
def leadCel (c : CoreId) : Nat := match (vatOf c).val with | 0 => 0 | 1 => 0 | 2 => 2 | _ => 1

/-- Links from a core to the Hub: its adjacent Cellar's, never a forwarding Vat die's (R16). -/
def hubRoute (c : CoreId) : List Nat := (linkOf (vatOf c).val (4 + leadCel c)).toList ++ (linkOf (4 + leadCel c) 8).toList

/-- The link on which a request goes on when a link delivers it: for a Cellar, the Hub (4) or a partner die (5, 6) as its target (R15, R16, R364). -/
def onwardLink (l target : Nat) : Option Nat :=
  let (a, b) := linkDies l
  if 16 ≤ l then (if target < 4 then linkOf (4 + target) 8 else none)
  else if l < 8 then (if 4 ≤ target then linkOf b 8 else none)
  else if 12 ≤ l then (if 5 ≤ target then linkOf 8 (4 + target) else none)
  else if (vatFlows a b).2 = some target then linkOf b (4 + target)
  else if (vatFlows b a).2 = some target then linkOf a (4 + target)
  else none

end Sys2Proof.Machine
end

