-- ==== Sys2Proof/Machine/XferOps.lean ====
section
/-! DEFINITION. Operations of `d.xfer` and `d.imem` (R73, R187 to R192, R519). -/

namespace Sys2Proof.Machine

/-- A transfer descriptor (R187). -/
structure XDesc where
  raw : List Byte

def XDesc.fld (d : XDesc) (o n : Nat) : Nat := fieldLe d.raw o n
def XDesc.ctrl (d : XDesc) : Nat := d.fld 0 4
def XDesc.op (d : XDesc) : Nat := bits d.ctrl 3 0
def XDesc.sspace (d : XDesc) : Nat := bits d.ctrl 6 4
def XDesc.dspace (d : XDesc) : Nat := bits d.ctrl 9 7
def XDesc.noalloc (d : XDesc) : Bool := bit d.ctrl 10
def XDesc.wb (d : XDesc) : Bool := bit d.ctrl 11
def XDesc.cls (d : XDesc) : Nat := bits d.ctrl 13 12
def XDesc.statusw (d : XDesc) : Bool := bit d.ctrl 14
def XDesc.len (d : XDesc) : Nat := d.fld 4 4
def XDesc.src (d : XDesc) : Nat := d.fld 8 8
def XDesc.dst (d : XDesc) : Nat := d.fld 0x10 8
def XDesc.srcExt (d : XDesc) : Nat := bits (d.fld 0x18 4) 23 0
def XDesc.dstExt (d : XDesc) : Nat := bits (d.fld 0x1c 4) 23 0
def XDesc.count1 (d : XDesc) : Nat := max 1 (d.fld 0x20 2)
def XDesc.count2 (d : XDesc) : Nat := max 1 (d.fld 0x22 2)
def XDesc.sstride (d : XDesc) (i : Nat) : Int := signed 32 (d.fld (0x24 + 4 * i) 4)
def XDesc.dstride (d : XDesc) (i : Nat) : Int := signed 32 (d.fld (0x2c + 4 * i) 4)
def XDesc.fill (d : XDesc) : Nat := d.fld 0x34 4
def XDesc.statusAddr (d : XDesc) : Nat := d.fld 0x38 4

/-- Whether an operation uses its source, and its destination (R190). -/
def XDesc.usesSrc (d : XDesc) : Bool := d.op = 0 || d.op = 3
def XDesc.usesDst (d : XDesc) : Bool := d.op ≤ 2

/-- The checks of R190. DEDUCED, unsafe (log 38). -/
def XDesc.ok (d : XDesc) : Bool :=
  let al := fun (x : Nat) => x % 16 = 0
  decide (d.op ≤ 3) && decide (d.cls ≠ 3) && bits d.ctrl 31 15 = 0 && al d.len &&
  bits (d.fld 0x18 4) 31 24 = 0 && bits (d.fld 0x1c 4) 31 24 = 0 && d.fld 0x3c 4 = 0 && bits d.statusAddr 31 22 = 0 &&
  (!d.usesSrc || (decide (d.sspace ≤ 4) && al d.src && al (d.fld 0x24 4) && al (d.fld 0x28 4))) &&
  (!d.usesDst || (decide (d.dspace ≤ 4) && al d.dst && al (d.fld 0x2c 4) && al (d.fld 0x30 4))) &&
  (!d.statusw || al d.statusAddr)

/-- Bytes of the transfer in all. -/
def XDesc.total (d : XDesc) : Nat := d.len * d.count1 * d.count2

/-- Address word of byte `l` of the transfer, rows in order, of a side with base and strides (R190); address words wrap at 64 bits. DEDUCED, unsafe (log 38). -/
def XDesc.at (d : XDesc) (base : Nat) (s1 s2 : Int) (l : Nat) : Nat :=
  let r := l / d.len % d.count1
  let q := l / d.len / d.count1
  (((base : Int) + r * s1 + q * s2) % 2 ^ 64).toNat + l % d.len
def XDesc.srcAt (d : XDesc) (l : Nat) : Nat := d.at d.src (d.sstride 0) (d.sstride 1) l
def XDesc.dstAt (d : XDesc) (l : Nat) : Nat := d.at d.dst (d.dstride 0) (d.dstride 1) l

/-- A place a transfer's side names once its space is resolved (R165, R189). -/
inductive Side where
  | mem (a : Nat)
  | store (c : CoreId) (off : Nat)
  | remote (dst : Nat) (addr : Nat)
  | host (a : Nat)
  | bad
  deriving DecidableEq, Repr

/-- The address of a core store by VCID in a request (R287). -/
def vcidAddr (w : Nat) : Nat := 2 ^ 63 + bits w 39 0

/-- Resolving an address word in a space for core `c`. DEDUCED, unsafe (log 38). -/
def State.side (s : State) (c : CoreId) (space w ext : Nat) : Side :=
  match space with
  | 0 => .mem (bits w 47 0)
  | 1 => .store c (bits w 21 0)
  | 2 =>
    if ext = s.fab.faddr.toNat then
      match s.storeOfVcid c (bits w 39 24) with
      | some d => .store d (bits w 21 0)
      | none => .bad
    else .remote ext (vcidAddr w)
  | 3 => if ext = s.fab.faddr.toNat then .mem (bits w 47 0) else .remote ext (bits w 47 0)
  | _ => .host w

/-- Whether host memory answers: a session is attached and the link is up (R370, R390). -/
def State.hostUp (s : State) : Bool := s.hif.attached

/-- Reading 16 bytes of a local side: status and bytes. -/
def State.unitRead (s : State) (x : Side) : Nat × List Byte :=
  match x with
  | .mem a =>
    let st := s.readStatus .program a 16
    (st, if st = stOk then s.readBytes a 16 else List.replicate 16 0)
  | .store d off => (stOk, storeRead s.cores[d].store off 16)
  | .host a => if s.hostUp then (stOk, Cells.read s.mem.host a 16) else (stHost, [])
  | _ => (stUnmapped, [])

/-- The row-cache access of a read unit: its line's, once for each row that reaches the line (R175, R194). -/
def State.unitTouch (s : State) (x : Side) (first alloc : Bool) : State :=
  match x with
  | .mem a => if first || a % 128 = 0 then s.touchLines a 16 alloc else s
  | _ => s

/-- A side further on. -/
def Side.shift (x : Side) (k : Nat) : Side :=
  match x with
  | .mem a => .mem (a + k) | .store c off => .store c ((off + k) % storeBytes) | .remote m a => .remote m (a + k) | .host a => .host (a + k) | .bad => .bad

/-- Cuts of `n` bytes of a side at 128-byte lines, as offset and bytes: a line is written at once (R166, R175). -/
def Side.cuts (x : Side) (n : Nat) : List (Nat × Nat) :=
  match x with
  | .mem a => (linesOf a n).map fun l => (max a (128 * l) - a, min (a + n) (128 * l + 128) - max a (128 * l))
  | _ => (List.range (ceilDiv n 128)).map fun i => (128 * i, min 128 (n - 128 * i))

/-- Writing bytes to a local side, within one line, by operation `own` of core `c`: status and state. -/
def State.sideWrite (s : State) (c : CoreId) (own : Nat) (alloc : Bool) (x : Side) (bs : List Byte) : Nat × State :=
  match x with
  | .mem a =>
    let st := s.accessAt .program a
    (st, if st = stOk then s.writeOpen .program a bs alloc else s)
  | .store d off => (stOk, s.writeStoreOf d (if d = c then own else 0) off bs)
  | .host a =>
    if s.hostUp then
      (stOk, { s with mem := { s.mem with host := Cells.write s.mem.host a bs }, hif := { s.hif with hostWrites := s.hif.hostWrites + 1 } })
    else (stHost, s)
  | _ => (stUnmapped, s)

/-- Progress of a transfer: bytes written, first error and its address, further units that still run after it (R190); `open'` tells
that the bytes written are free, as an overlapping COPY leaves them (R192). DEDUCED, safe (log 42). -/
structure XProg where
  st : State
  done : Nat
  code : Nat
  bad : Nat
  more : Nat
  open' : Bool

/-- An error of a unit: the first one fixes the status and how many further units, in flight already, still finish. -/
def XProg.err (p : XProg) (code addr : Nat) : XProg :=
  if p.code = stOk then
    { p with code := code, bad := addr, more := Config.order p.st.free 0 4097 % 4097, st := p.st.drawn 1 }
  else p

/-- Units of 16 bytes of the transfer, gathered into runs as (offset in the transfer, bytes), newest first: a unit whose read fails leaves its destination as it
is (R190). -/
def XProg.gatherUnit (c : CoreId) (d : XDesc) (a : XProg × List (Nat × List Byte)) (l : Nat) : XProg × List (Nat × List Byte) :=
  let (p, rs) := a
  if p.code ≠ stOk ∧ p.more = 0 then a
  else
    let p := if p.code ≠ stOk then { p with more := p.more - 1 } else p
    let x := p.st.side c d.sspace (d.srcAt l) d.srcExt
    let (st, bs) := if d.op = 1 then (stOk, ((List.replicate 4 (toLe 4 d.fill)).flatten)) else p.st.unitRead x
    let p := if d.op = 1 || st = stUnmapped || st = stCaveDown then p else { p with st := p.st.unitTouch x (l % d.len = 0) (!d.noalloc) }
    if st ≠ stOk then (p.err st (d.srcAt l), rs)
    else
      match rs with
      | (l0, xs) :: rest => if l0 + xs.length = l then (p, (l0, xs ++ bs) :: rest) else (p, (l, bs) :: rs)
      | [] => (p, [(l, bs)])

/-- The units of [l, l + n) as runs. DEDUCED, unsafe (log 26). -/
def XProg.gather (p : XProg) (c : CoreId) (d : XDesc) (l n : Nat) : XProg × List (Nat × List Byte) :=
  let (p, rs) := (List.range (n / 16)).foldl (fun a i => XProg.gatherUnit c d a (l + 16 * i)) (p, [])
  (p, rs.reverse)

/-- Bytes written at offset `l` of the transfer, line by line (R190); each failing line fixes the status. DEDUCED, unsafe (log 26). -/
def XProg.put (p : XProg) (c : CoreId) (own : Nat) (d : XDesc) (l : Nat) (bs : List Byte) : XProg :=
  let x := p.st.side c d.dspace (d.dstAt l) d.dstExt
  (x.cuts bs.length).foldl (fun p k =>
    let ys := (bs.drop k.1).take k.2
    let (st, s) := (p.st.drawn ys.length).sideWrite c own (!d.noalloc) (x.shift k.1) (p.st.openBytes p.open' ys)
    if st = stOk then { p with st := s, done := p.done + ys.length } else ({ p with st := s }).err st (d.dstAt (l + k.1))) p

/-- One destination line's part of a row of a local COPY or FILL. -/
def XProg.chunk (c : CoreId) (own : Nat) (d : XDesc) (p : XProg) (l n : Nat) : XProg :=
  let (p, rs) := p.gather c d l n
  rs.foldl (fun p r => p.put c own d r.1 r.2) p

/-- Offsets and bytes of the parts of a transfer's rows, each within one line of the destination. -/
def State.xferChunks (s : State) (c : CoreId) (d : XDesc) : List (Nat × Nat) :=
  ((List.range (d.count1 * d.count2)).map fun r =>
    ((s.side c d.dspace (d.dstAt (r * d.len)) d.dstExt).cuts d.len).map fun k => (r * d.len + k.1, k.2)).flatten

/-- Pieces of at most 4,096 bytes of each row, as (offset in the transfer, bytes), for remote requests (R287). -/
def XDesc.pieces (d : XDesc) : List (Nat × Nat) :=
  ((List.range (d.count1 * d.count2)).map fun r =>
    (List.range (ceilDiv d.len 4096)).map fun i => (r * d.len + 4096 * i, min 4096 (d.len - 4096 * i))).flatten

/-- Whether a side of a space is remote. -/
def State.isRemote (s : State) (space ext : Nat) : Bool := (space = 2 || space = 3) && decide (ext ≠ s.fab.faddr.toNat)

/-- The fabric class of a transfer's requests (R188, R286). -/
def XDesc.fabClass (d : XDesc) : Nat := match d.cls with | 1 => 2 | 2 => 3 | _ => 0

/-- A request of a transfer for the bytes at an offset; its pieces alternate STRIPE (R188, R299). -/
def State.xferRequest (s : State) (c : CoreId) (own : Nat) (d : XDesc) (dst : Nat) (m : Msg) (l : Nat) : State :=
  s.request (.core c.val own) dst (leadCel c) m l (cls := d.fabClass) (stripe := l / 4096 % 2 = 1)

/-- The remote writes of a transfer with a local source: each piece's readable units are sent, in runs (R183, R190, R287). -/
def State.sendPieces (c : CoreId) (own : Nat) (d : XDesc) (p : XProg) (x : Nat × Nat) : XProg :=
  if p.code ≠ stOk then p
  else
    let (p, rs) := p.gather c d x.1 x.2
    rs.foldl (fun p r =>
      match p.st.side c d.dspace (d.dstAt r.1) d.dstExt with
      | .remote m a => { p with st := p.st.xferRequest c own d m (.wr a d.wb r.2) r.1 }
      | _ => p) p

/-- The remote reads of a transfer. -/
def State.readPieces (s : State) (c : CoreId) (own : Nat) (d : XDesc) (ls : List (Nat × Nat)) : State :=
  ls.foldl (fun s p =>
    match s.side c d.sspace (d.srcAt p.1) d.srcExt with
    | .remote m a => s.xferRequest c own d m (.rdReq a p.2) p.1
    | _ => s) s

/-- Local ranges of a side, row by row, as ranges of memory or of the own store. -/
def State.sideRanges (s : State) (c : CoreId) (d : XDesc) (dst : Bool) : List (Side × Nat) :=
  (List.range (d.count1 * d.count2)).map fun r =>
    if dst then (s.side c d.dspace (d.dstAt (r * d.len)) d.dstExt, d.len)
    else (s.side c d.sspace (d.srcAt (r * d.len)) d.srcExt, d.len)

/-- Ranges of core `c`'s own store among the rows of a side, cut where addresses wrap (R81). -/
def State.ownRanges (s : State) (c : CoreId) (d : XDesc) (dst : Bool) : List (Nat × Nat) :=
  ((s.sideRanges c d dst).map fun x => match x.1 with | .store e off => if e = c then spanCut off x.2 else [] | _ => []).flatten

/-- Whether two resolved rows overlap in one memory (R192). -/
def rowsOverlap (x y : Side × Nat) : Bool :=
  match x.1, y.1 with
  | .mem a, .mem b => overlaps a x.2 b y.2
  | .store c a, .store e b => c = e && (spanCut a x.2).any fun u => (spanCut b y.2).any fun v => overlaps u.1 u.2 v.1 v.2
  | .remote m a, .remote n b => m = n && overlaps a x.2 b y.2
  | .host a, .host b => overlaps a x.2 b y.2
  | _, _ => false

/-- Whether a COPY's source and destination ranges overlap (R192). DEDUCED, safe (log 42). -/
def State.copyOverlaps (s : State) (c : CoreId) (d : XDesc) : Bool :=
  d.op = 0 && (s.sideRanges c d false).any fun x => (s.sideRanges c d true).any (rowsOverlap x)

/-- WBACK of the destination rows (R188): the first line out of reach gives the status and the address. What another module holds has no dirty line in this
module's caches, and no packet asks for a write-back. DEDUCED, unsafe (log 78). -/
def State.wbackRows (s : State) (xs : List (Side × Nat)) : Nat × Nat × State :=
  xs.foldl (fun (r : Nat × Nat × State) x =>
    if r.1 ≠ stOk then r
    else
      match x.1 with
      | .mem a =>
        match (linesOf a x.2).find? fun l => r.2.2.accessAt .program (max a (128 * l)) ≠ stOk with
        | some l => (r.2.2.accessAt .program (max a (128 * l)), max a (128 * l), { r.2.2 with mem := r.2.2.mem.writeBack a (max a (128 * l) - a) })
        | none => (stOk, 0, { r.2.2 with mem := r.2.2.mem.writeBack a x.2 })
      | .bad => (stUnmapped, 0, r.2.2)
      | _ => r) (stOk, 0, s)

/-- WARM of the local source rows: reads without delivery (R188); the first line that does not read gives the status and the address. DEDUCED, unsafe (log 78). -/
def State.warmRows (s : State) (xs : List (Side × Nat)) : Nat × Nat × State :=
  xs.foldl (fun (r : Nat × Nat × State) x =>
    if r.1 ≠ stOk then r
    else
      match x.1 with
      | .mem a => (x.1.cuts x.2).foldl (fun (r : Nat × Nat × State) k =>
          if r.1 ≠ stOk then r
          else
            let st := r.2.2.readStatus .program (a + k.1) k.2
            let s := if st = stUnmapped || st = stCaveDown then r.2.2 else r.2.2.touchLines (a + k.1) k.2
            (st, if st = stOk then 0 else a + k.1, s)) r
      | .bad => (stUnmapped, 0, r.2.2)
      | _ => r) (stOk, 0, s)

/-- The outcome recorded in the operation. -/
def State.setXfer (s : State) (c : CoreId) (own done code bad : Nat) : State :=
  s.updCore c fun x => x.mapOp own fun o =>
    match o.body with
    | .xfer d a dn cd bd =>
      { o with body := .xfer d a (dn + done) (if cd = stOk then code else cd) (if cd = stOk then bad else bd) }
    | _ => o

/-- An error status of a transfer: recorded, and its requests not yet issued are not issued (R190). -/
def State.failXfer (s : State) (c : CoreId) (own done code bad : Nat) : State :=
  let s := s.setXfer c own done code bad
  if code = stOk then s else { s with fab := { s.fab with tagWait := s.fab.tagWait.filter fun r => r.owner ≠ .core c.val own } }

/-- Issue of `d.xfer` by core `c` with its descriptor at `addr` (R187 to R190): the operation is entered and its data move; parts
on other modules leave as requests. -/
def State.startXfer (s : State) (c : CoreId) (addr : Nat) (post : Option SemId) : State :=
  let raw := storeRead s.cores[c].store addr 64
  let d := XDesc.mk raw
  let own := s.cores[c].seq
  let live := d.ok && decide (d.total ≠ 0)
  let rd := if live && d.usesSrc then s.ownRanges c d false else []
  let wr := (if live && d.op ≤ 1 then s.ownRanges c d true else []) ++ (if d.statusw then spanCut d.statusAddr 16 else [])
  let s := s.updCore c fun x => x.addOp post rd wr (.xfer raw addr 0 (if d.ok then stOk else stBadDesc) addr)
  let remoteSrc := d.usesSrc && s.isRemote d.sspace d.srcExt
  if !live then s
  else if d.op = 2 then
    let (st, bad, s) := s.wbackRows (s.sideRanges c d true)
    s.setXfer c own 0 st bad
  else if remoteSrc then s.readPieces c own d d.pieces
  else if d.op = 3 then
    let (st, bad, s) := s.warmRows (s.sideRanges c d false)
    s.setXfer c own 0 st bad
  else if s.isRemote d.dspace d.dstExt then
    let p := d.pieces.foldl (State.sendPieces c own d) ⟨s, 0, stOk, 0, 0, false⟩
    p.st.failXfer c own 0 p.code p.bad
  else
    let p := (s.xferChunks c d).foldl (fun p x => XProg.chunk c own d p x.1 x.2) ⟨s, 0, stOk, 0, 0, s.copyOverlaps c d⟩
    p.st.setXfer c own p.done p.code p.bad

/-- The links that the traffic of core `c` with a resolved row takes: to its home Cellars, to the Hub, or to the ports of its lead Cellar (R15, R16). -/
def State.linksOf (s : State) (c : CoreId) (x : Side × Nat) : List Nat :=
  match x.1 with
  | .mem a =>
    ((linesOf a x.2).map fun l =>
      match s.place (128 * l) with
      | .hbm _ _ | .pinned _ => celRoute (vatOf c).val (s.mem.cfg.home s.fuses.lx (128 * l))
      | .cave _ | .acc _ => hubRoute c
      | _ => []).flatten
  | .host _ => hubRoute c
  | .remote _ _ => (linkOf (vatOf c).val (4 + leadCel c)).toList
  | _ => []

/-- Whether a transfer's traffic is held back because every module of a link on its way retrains at once (R352). -/
def State.xferHeld (s : State) (c : CoreId) (d : XDesc) : Bool :=
  let ls := (List.range 16).filter fun l => s.dl.holds l
  !ls.isEmpty && d.ok && ((if d.usesSrc then s.sideRanges c d false else []) ++ (if d.usesDst then s.sideRanges c d true else [])).any fun x =>
    (s.linksOf c x).any fun l => ls.contains l

/-- Data of a remote read placed at offset `l` of a transfer: to its local destination, or on to another module; WARM delivers nothing (R188, R190). DEDUCED, safe (log 42). -/
def State.placeRead (s : State) (c : CoreId) (o : Op) (l : Nat) (bs : List Byte) : State :=
  match o.body with
  | .xfer raw _ _ _ _ =>
    let d := XDesc.mk raw
    if d.op = 3 then s
    else
      match s.side c d.dspace (d.dstAt l) d.dstExt with
      | .remote m a => (s.drawn bs.length).xferRequest c o.id d m (.wr a d.wb (s.openBytes (s.copyOverlaps c d) bs)) l
      | _ =>
        let p := XProg.put ⟨s, 0, stOk, 0, 0, s.copyOverlaps c d⟩ c o.id d l bs
        p.st.failXfer c o.id p.done p.code p.bad
  | _ => s

/-- Whether an operation of a core still has requests out. -/
def State.waitsNet (s : State) (c : CoreId) (op : Nat) : Bool :=
  (s.fab.reqs ++ s.fab.tagWait).any fun r => r.owner = .core c.val op && !r.done

/-- Completion of a transfer (R182, R190, R191): write-back under WB, status word, log record, post. -/
def State.finishXfer (s : State) (c : CoreId) (o : Op) (raw : List Byte) (addr done code bad : Nat) : State :=
  let d := XDesc.mk raw
  let s := if d.wb && d.ok && decide (d.op ≤ 1) then
      (s.sideRanges c d true).foldl (fun s x =>
        match x.1 with | .mem a => { s with mem := s.mem.writeBack a x.2 } | _ => s) s
    else s
  let s := if code = stOk then s
    else s.event (qpProc (s.dispatchQp (vatOf c))) 0 2 [code, addr, s.cores[c].ctl.vcid.toNat, bad]
  let s := if d.statusw then s.writeStoreOf c o.id (storeAddr d.statusAddr) (toLe 8 code ++ toLe 8 done) else s
  s.endOp c o

/-- Whether `d.imem` would overwrite the bundle at the PC or a body on the loop stack (R73). -/
def Core.imemInUse (c : Core) (first n : Nat) : Bool :=
  let inside := fun a b => overlaps first n a (b + 1 - a)
  inside c.regs.pc c.regs.pc || c.regs.loops.any fun l => inside l.first l.last

/-- Issue of `d.imem`, its descriptor checked (R73, R519). Over bundles in use, what the core executes from then on is free. DEDUCED, safe (log 43). -/
def State.startImem (s : State) (c : CoreId) (addr : Nat) (post : Option SemId) : State :=
  let (src, first, n, _) := imemDesc (storeLe s.cores[c].store addr 16)
  let wild := n ≠ 0 && s.cores[c].imemInUse first n
  s.updCore c fun x => { x.addOp post [] [] (.imem src first n addr) with imem := { x.imem with image := none, wild := x.imem.wild || wild } }

/-- Loading bundles one after the other: each is read with its own status (R519); a failure is a transfer-status record (R191, R516). -/
def State.loadBundles (s : State) (c : CoreId) (src first addr : Nat) (is : List Nat) : State :=
  is.foldl (fun s i =>
    let a := src + 16 * i
    let st := s.readStatus .program a 16
    let s := if st = stUnmapped || st = stCaveDown then s else s.unitTouch (.mem a) (i = 0) true
    if st = stOk then
      s.updCore c fun x =>
        { x with imem := { x.imem with words := Cells.set x.imem.words (first + i) (BitVec.ofNat 128 (leNat (s.readBytes a 16))),
                                       bad := x.imem.bad.filter (· ≠ first + i), len := max x.imem.len (first + i + 1) } }
    else
      (s.updCore c fun x => { x with imem := { x.imem with bad := (first + i) :: x.imem.bad.filter (· ≠ first + i),
                                                           len := max x.imem.len (first + i + 1) } }).event
        (qpProc (s.dispatchQp (vatOf c))) 0 2 [st, addr, s.cores[c].ctl.vcid.toNat, a]) s

end Sys2Proof.Machine
end

