-- ==== Sys2Proof/Machine/EmbedOps.lean ====
section
/-! DEFINITION. Operations of gathering, table descriptors and expert routing (R195 to R219, R522). -/

namespace Sys2Proof.Machine

/-- One step of a sum in an order that the spec leaves open (R4): two of the list become their sum. DESIGN CHOICE, safe (log 92). -/
def pickPair (f : W32 → W32 → W32) (ev pos : Nat) (xs : List W32) : List W32 :=
  let n := xs.length
  let i := Config.order ev (2 * pos) n % max 1 n
  let ys := xs.eraseIdx i
  let j := Config.order ev (2 * pos + 1) (n - 1) % max 1 (n - 1)
  f ((xs[i]?).getD 0#32) ((ys[j]?).getD 0#32) :: ys.eraseIdx j

/-- Reduction of a list in an open order; an empty list gives +0. -/
def freeReduceGo (f : W32 → W32 → W32) (ev pos : Nat) : Nat → List W32 → W32
  | 0, xs => xs.headD 0#32
  | _, [] => 0#32
  | _, [x] => x
  | n + 1, xs => freeReduceGo f ev (pos + 1) n (pickPair f ev (pos + n) xs)
def freeReduce (f : W32 → W32 → W32) (ev : Nat) (xs : List W32) : W32 := freeReduceGo f ev 0 xs.length xs

/-- Element-wise reduction of vectors of a length, each element in an order of its own. -/
def freeSumVec (f : W32 → W32 → W32) (ev n : Nat) (vs : List (List W32)) : List W32 :=
  (List.range n).map fun i => freeReduce f (ev + i) (vs.map fun v => (v[i]?).getD 0#32)

/-- Elements of a working row as FP32 (R133, R200). -/
def decodeRow (fmt n : Nat) (bs : List Byte) : List W32 :=
  match Fmt.ofCode fmt with
  | none => List.replicate n 0#32
  | some f =>
    let es := unpackElems f.bits n bs
    let sc := bs.drop (f.rowBytes n)
    es.zipIdx.map fun p => f.widen p.1 (((sc[p.2 / 32]?).getD 0#8).toNat)

/-- Elements encoded in a format, scale bytes of an MX row behind them (R138, R139, R200). -/
def encodeRow (fmt : Nat) (md : Nat → RMode) (xs : List W32) : List Byte :=
  match Fmt.ofCode fmt with
  | none => []
  | some f =>
    if f.isMx then
      let bl := (List.range (ceilDiv xs.length 32)).map fun b =>
        mxBlock f (fun i => md (32 * b + i)) (((xs.drop (32 * b)).take 32).map f32)
      packElems f.bits ((bl.map fun b => b.2.map (·.1)).flatten) ++ bl.map fun b => BitVec.ofNat 8 b.1
    else packElems f.bits (xs.zipIdx.map fun p => (f.narrow (md p.2) (f32 p.1)).1)

/-- Rounding of a unit outside a core: to nearest even, or stochastic with free random values. -/
def unitMode (round : Bool) (ev i : Nat) : RMode := if round then .stoch ((Config.fresh (ev + i)).setWidth 16) else .rne

/-- Adjacent Cellar dies of a Vat die, lower first (R12). -/
def adjacentCels (v : VatId) : Nat × Nat := match v.val with | 0 => (0, 3) | 1 => (0, 1) | 2 => (2, 3) | _ => (1, 2)

/-- The lead Cellar a LEAD field names (R205). -/
def leadOf (c : CoreId) (lead : Nat) : Nat :=
  if lead < 4 then lead
  else if c.val % 2 = 0 then (adjacentCels (vatOf c)).1 else (adjacentCels (vatOf c)).2

/-- A gather request (R205). -/
structure GReq where
  raw : List Byte

def GReq.fld (d : GReq) (o n : Nat) : Nat := fieldLe d.raw o n
def GReq.ctrl (d : GReq) : Nat := d.fld 0 4
def GReq.table (d : GReq) : Nat := bits d.ctrl 15 0
def GReq.pool (d : GReq) : Nat := bits d.ctrl 17 16
def GReq.isize (d : GReq) : Nat := bits d.ctrl 19 18
def GReq.wtfmt (d : GReq) : Nat := bits d.ctrl 21 20
def GReq.ofmt (d : GReq) : Nat := bits d.ctrl 25 22
def GReq.lead (d : GReq) : Nat := bits d.ctrl 28 26
def GReq.norepl (d : GReq) : Bool := bit d.ctrl 29
def GReq.noalloc (d : GReq) : Bool := bit d.ctrl 30
def GReq.nbag (d : GReq) : Nat := bits (d.fld 4 4) 15 0
def GReq.idx (d : GReq) : Nat := d.fld 8 4
def GReq.offs (d : GReq) : Nat := d.fld 0xc 4
def GReq.wts (d : GReq) : Nat := d.fld 0x10 4
def GReq.out (d : GReq) : Nat := d.fld 0x14 4
def GReq.ostride (d : GReq) : Nat := d.fld 0x18 4
def GReq.resp (d : GReq) : Nat := d.fld 0x1c 4
def GReq.version (d : GReq) : Nat := d.fld 0x20 2

/-- The checks of a gather request (R205, R522). -/
def GReq.ok (d : GReq) : Bool :=
  let al := fun (x : Nat) => x % 16 = 0
  let hi := fun (x : Nat) => bits x 31 22 = 0
  decide (d.pool ≤ 2) && decide (d.isize ≤ 1) && decide (d.wtfmt ≤ 2) && decide (d.ofmt ≤ 4) && decide (d.lead ≤ 4) &&
  !bit d.ctrl 31 && bits (d.fld 4 4) 31 16 = 0 && decide (1 ≤ d.nbag) &&
  hi d.idx && hi d.offs && hi d.wts && hi d.out && hi d.resp && al d.idx && al d.out && al d.ostride && al d.resp &&
  (d.pool = 2 || al d.offs) && (d.wtfmt = 0 || al d.wts) && (d.raw.drop 0x22).all (· = 0#8)

/-- The missing sentinel (R206). -/
def missingIdx : Nat := 0xffffffffff

/-- Index i of a list in the core store (R205, R206). -/
def idxAt (m : Cells 8) (base isize i : Nat) : Nat :=
  if isize = 0 then
    let x := storeLe m (base + 4 * i) 4
    if x = 0xffffffff then missingIdx else x
  else storeLe m (base + 8 * i) 8 % 2 ^ 40

/-- Weight i (R205). -/
def weightAt (m : Cells 8) (base fmt i : Nat) : W32 :=
  match fmt with
  | 1 => BitVec.ofNat 32 (storeLe m (base + 4 * i) 4)
  | 2 => BitVec.ofNat 32 (storeLe m (base + 2 * i) 2 * 65536)
  | _ => f32One

/-- Index ranges of the bags, none for a rejected bag (R206, R212). -/
def GReq.bags (d : GReq) (m : Cells 8) : List (Option (Nat × Nat)) :=
  (List.range d.nbag).map fun b =>
    if d.pool = 2 then some (b, 1)
    else
      let lo := storeLe m (d.offs + 4 * b) 4
      let hi := storeLe m (d.offs + 4 * b + 4) 4
      if hi < lo ∨ 65535 < hi - lo then none else some (lo, hi - lo)

/-- Rank of a gather code; a lower rank wins (R210). -/
def gatherRank : Nat → Nat
  | 1 => 1 | 9 => 2 | 7 => 3 | 4 => 4 | 3 => 5 | 6 => 6 | 8 => 7 | _ => 8

/-- The higher-ranked of two codes. -/
def rankMax (a b : Nat) : Nat := if gatherRank b < gatherRank a then b else a

/-- Progress of a gather's classification. -/
structure GProg where
  st : State
  g : Gather
  subs : List GSub

/-- Adding a vector to a bag. -/
def Gather.addPart (g : Gather) (b : Nat) (v : List W32) : Gather :=
  { g with bags := g.bags.modify b fun x => { x with parts := x.parts ++ [v] } }

/-- Changing a bag's count. -/
def Gather.bagCount (g : Gather) (b : Nat) (f : Nat → Nat) : Gather :=
  { g with bags := g.bags.modify b fun x => { x with count := f x.count } }

/-- A row treated as missing because of an error: counted, its code ranked in, the first failing index kept (R210, R211). -/
def Gather.errRow (g : Gather) (code b ord row : Nat) : Gather :=
  { g.bagCount b (· - 1) with
    code := rankMax g.code code, errRows := g.errRows + 1,
    fail := match g.fail with | some f => if ord < f.1 then some (ord, row) else some f | none => some (ord, row) }

/-- Counting an index in the hot filter: the entry becomes the most recently counted; 4,096 entries (R214). -/
def EmbSt.countHot (e : EmbSt) (table faddr q : Nat) : EmbSt :=
  let old := (e.filter.find? fun h => h.table = table && h.faddr = faddr && h.q = q)
  let rest := e.filter.filter fun h => !(h.table = table && h.faddr = faddr && h.q = q)
  let rest := if old.isNone && decide (4096 ≤ rest.length) then rest.drop 1 else rest
  { e with filter := rest ++ [⟨table, faddr, q, (old.map (·.count)).getD 0 + 1, old.any (·.asked)⟩] }

/-- REPL_WAYS in force (R220). -/
def EmbSt.ways (e : EmbSt) : Nat :=
  let w := bits e.cfg.toNat 2 0
  if w ≤ 4 then w else 0

/-- REPL_THR in force. -/
def EmbSt.thr (e : EmbSt) : Nat := bits e.cfg.toNat 23 8

/-- Whether the filter asks for the fill of a row now: its count has reached the threshold and no FILL has gone out for it (R214). -/
def EmbSt.wantsFill (e : EmbSt) (table faddr q : Nat) : Bool :=
  decide (0 < e.ways) && (e.filter.any fun h => h.table = table && h.faddr = faddr && h.q = q && decide (e.thr ≤ h.count) && !h.asked)

/-- The FILL of a row has gone out. -/
def EmbSt.askFill (e : EmbSt) (table faddr q : Nat) : EmbSt :=
  { e with filter := e.filter.map fun h => if h.table = table && h.faddr = faddr && h.q = q then { h with asked := true } else h }

/-- Adding an entry to the sub-request of its chunk, shard and home. -/
def addEntry (subs : List GSub) (key : GSub) (x : GEntry) : List GSub :=
  if subs.any fun s => s.chunk = key.chunk && s.shard = key.shard && s.home = key.home && s.cellar = key.cellar then
    subs.map fun s =>
      if s.chunk = key.chunk && s.shard = key.shard && s.home = key.home && s.cellar = key.cellar then
        { s with entries := s.entries ++ [x] } else s
  else subs ++ [{ key with entries := [x] }]

/-- A row read by a unit: status, and its bytes; its lines are accessed at their homes (R175, R209, R211, R213). -/
def State.rowRead (s : State) (a n : Nat) (alloc : Bool) : Nat × List Byte × State :=
  let st := s.readStatus .unit a n
  (st, s.mem.read a n, if st = stOk || st = stUncorr then s.touchLines a n alloc else s)

/-- One index of a gather classified by the lead (R213, R214): `b` is its bag, `o` the bag's ordinal in chunk `k`, `ord` the index's place in the list. DEDUCED, unsafe (log 78). -/
def GProg.index (p : GProg) (c : CoreId) (d : GReq) (t : TDesc) (k b o ord : Nat) : GProg :=
  let s := p.st
  let m := s.cores[c].store
  let r := idxAt m d.idx d.isize ord
  let w := weightAt m d.wts d.wtfmt ord
  let li := Fin.ofNat 4 p.g.lead
  let e := s.emb[li]
  if r = missingIdx then
    { p with g := { p.g with missing := p.g.missing + 1 }, st := { s with emb := s.emb.set li { e with missing := e.missing + 1 } } }
  else if t.rows ≤ r then
    let (st, bs, s) := s.rowRead t.dflt t.rowBytes (!d.noalloc)
    let g := { p.g.bagCount b (· + 1) with oor := p.g.oor + 1 }
    { p with g := if st = stOk then g.addPart b ((decodeRow t.wfmt t.dim bs).map (fmul w)) else g.errRow st b ord r,
             st := { s with emb := s.emb.set li { e with oorFwd := e.oorFwd + 1 } } }
  else
    let (sh, q) := t.locate r
    let home := if t.mapKind = 0 then s.fab.faddr.toNat else (s.mem.shard t sh).faddr
    let cel := (t.home q).1
    let repl := t.repl && !d.norepl
    match (if repl then e.replicas.find? fun x => x.table = t.id && x.faddr = home && x.q = q else none) with
    | some x =>
      { p with g := { (p.g.addPart b ((decodeRow t.wfmt t.dim x.row).map (fmul w))).bagCount b (· + 1) with replHit := p.g.replHit + 1 },
               st := { s with emb := s.emb.set li { e with replHit := e.replHit + 1 } } }
    | none =>
      let away := home ≠ s.fab.faddr.toNat || cel ≠ p.g.lead
      let e := if repl && away then e.countHot t.id home q else e
      let fill := repl && away && e.wantsFill t.id home q
      let e := if fill then e.askFill t.id home q else e
      let key : GSub :=
        { table := t.id, version := t.version, shard := sh, home := home, cellar := cel, faddr := s.fab.faddr.toNat,
          lead := p.g.lead, core := c.val, op := p.g.op, chunk := k, noalloc := d.noalloc, entries := [] }
      { st := { s with emb := s.emb.set li e }, g := p.g.bagCount b (· + 1),
        subs := addEntry p.subs key ⟨q, o, fill, w, r, ord⟩ }

/-- The indices of a gather in order, as bag and place in the list (R206, R212). -/
def GReq.indices (d : GReq) (m : Cells 8) : List (Nat × Nat) :=
  ((d.bags m).zipIdx.map fun b => match b.1 with | some (lo, n) => (List.range n).map fun i => (b.2, lo + i) | none => []).flatten

/-- Bytes of a partial response (R208), which the long tags of its sub-request cover (R287). -/
def GSub.respBytes (m : GSub) (t : TDesc) : Nat :=
  32 + (m.entries.map (·.bag)).eraseDups.length * (16 + 4 * t.dim) + (m.entries.filter (·.fill)).length * (8 + t.rowBytes)

/-- Sending a sub-request: across the module or over the fabric (R207). -/
def State.sendSub (s : State) (t : TDesc) (m : GSub) : State :=
  s.request (.core m.core m.op) m.home m.lead (.gsub m) m.chunk (bytes := m.respBytes t)

/-- The gather of a core's operation replaced. -/
def State.setGather (s : State) (g : Gather) : State :=
  { s with gathers := s.gathers.map fun x => if x.core = g.core && x.op = g.op then g else x }

/-- A gather by core and operation. -/
def State.gatherOf (s : State) (core op : Nat) : Option Gather := s.gathers.find? fun g => g.core = core && g.op = op

/-- Chunk `k` of a gather: classified, and its sub-requests sent (R207). -/
def State.gatherChunk (s : State) (g : Gather) (is : List (Nat × Nat)) (k : Nat) : State :=
  let d := GReq.mk g.req
  let t := TDesc.mk g.desc
  let xs := (is.drop (4096 * k)).take 4096
  let bs := (xs.map (·.1)).eraseDups
  let p := xs.foldl (fun (p : GProg) x => p.index (Fin.ofNat 256 g.core) d t k x.1 (bs.idxOf x.1) x.2) ⟨s, g, []⟩
  let s := p.st.setGather { p.g with next := k + 1, maps := p.g.maps ++ [(k, bs)], pend := p.g.pend ++ p.subs }
  p.subs.foldl (fun s m => s.sendSub t m) s

/-- Whether a gather has no further chunk to classify. -/
def Gather.allSent (g : Gather) (m : Cells 8) : Bool := g.noOutput || decide (((GReq.mk g.req).indices m).length ≤ 4096 * g.next)

/-- Further chunks of a gather while fewer than 8 are in flight (R207). -/
def State.advanceGather (core op : Nat) : Nat → State → State
  | 0, s => s
  | n + 1, s =>
    match s.gatherOf core op with
    | none => s
    | some g =>
      let m := s.cores[(Fin.ofNat 256 core : CoreId)].store
      if g.allSent m || decide (8 ≤ (g.pend.map (·.chunk)).eraseDups.length) then s
      else State.advanceGather core op n (s.gatherChunk g ((GReq.mk g.req).indices m) g.next)

/-- A gather that reads nothing (R522). -/
def Gather.refused (g : Gather) (code : Nat) : Gather := { g with code := code, noOutput := true }

/-- Issue of `e.gather` (R205 to R207, R212 to R214). -/
def State.startGather (s : State) (c : CoreId) (addr : Nat) (post : Option SemId) : State :=
  let x := s.cores[c]
  let raw := storeRead x.store addr 64
  let d := GReq.mk raw
  let lead := leadOf c d.lead
  let t := s.tdesc d.table
  let own := x.seq
  let bags := d.bags x.store
  let nidx := bags.foldl (fun a b => a + (b.map (·.2)).getD 0) 0
  let last := bags.foldl (fun a b => max a ((b.map fun y => y.1 + y.2).getD 0)) 0
  let g0 : Gather :=
    { core := c.val, op := own, lead := lead, req := raw, dim := t.dim, table := d.table, round := x.num.round, code := stOk,
      bags := bags.map fun b => ⟨b.isNone, 0, []⟩, baglen := 0, nidx := 0, missing := 0, oor := 0, replHit := 0, errRows := 0,
      desc := t.raw, next := 0, maps := [], pend := [], noOutput := false, fail := none }
  let stop := if !d.ok then some stBadDesc else if t.dim = 0 then some 9
    else if d.version ≠ 0 ∧ d.version ≠ t.version then some stStale else none
  let outB := (((Fmt.ofCode d.ofmt).map fun f => f.rowBytes t.dim).getD 0)
  let wr := if d.ok then spanCut d.resp 32 else []
  match stop with
  | some code => { s.updCore c (fun x => x.addOp post [] wr (.gather raw lead)) with gathers := s.gathers ++ [g0.refused code] }
  | none =>
    let rd := spanCut d.idx (last * (if d.isize = 0 then 4 else 8)) ++ (if d.pool = 2 then [] else spanCut d.offs (4 * (d.nbag + 1))) ++
      (if d.wtfmt = 0 then [] else spanCut d.wts (last * (if d.wtfmt = 1 then 4 else 2)))
    let outs := ((List.range d.nbag).map fun b => spanCut (d.out + b * d.ostride) outB).flatten
    let s := s.updCore c fun x => x.addOp post rd (wr ++ outs) (.gather raw lead)
    let nrej := (bags.filter (·.isNone)).length
    let g1 := { g0 with nidx := nidx, baglen := nrej, code := if nrej = 0 then stOk else 8 }
    State.advanceGather c.val own (nidx / 4096 + 1) { s with gathers := s.gathers ++ [g1] }

/-- A home Cellar's answer to a sub-request (R207 to R209, R211). -/
def State.serveSub (s : State) (m : GSub) : GPart × State :=
  let t := s.tdesc m.table
  let i := Fin.ofNat 4 m.cellar
  let e := s.emb[i]
  let n := m.entries.length
  let part : GPart :=
    { core := m.core, op := m.op, chunk := m.chunk, shard := m.shard, home := m.home, cellar := m.cellar, code := stOk, errs := [], parts := [], fills := [] }
  if t.dim = 0 ∨ m.version ≠ t.version then
    ({ part with code := stStale, errs := List.range n }, { s with emb := s.emb.set i { e with stale := e.stale + BitVec.ofNat 64 n } })
  else
    let sh := s.mem.shard t m.shard
    let (rows, s) := m.entries.foldl (fun (a : List (GEntry × Nat × List Byte) × State) x =>
      let (st, bs, s) := a.2.rowRead (t.rowAddr sh x.q) t.rowBytes (!m.noalloc)
      (a.1 ++ [(x, st, bs)], s)) ([], s)
    let good := rows.filter fun r => r.2.1 = stOk
    let bagsOf := (good.map fun r => r.1.bag).eraseDups
    let parts := bagsOf.map fun b =>
      (b, freeSumVec fadd (s.free + t.dim * b) t.dim
        ((good.filter fun r => r.1.bag = b).map fun r => (decodeRow t.wfmt t.dim r.2.2).map (fmul r.1.weight)))
    let fills := (good.filter fun r => r.1.fill).map fun r => (r.1.q, r.2.2)
    let bad := rows.zipIdx.filter fun r => r.1.2.1 ≠ stOk
    ({ part with code := bad.foldl (fun a r => rankMax a r.1.2.1) stOk, errs := bad.map (·.2), parts := parts, fills := fills },
      ({ s with emb := s.emb.set i { e with rows := e.rows + BitVec.ofNat 64 n, busy := Config.fresh s.free } }).drawn (1 + t.dim * 65536))

/-- Sets of the row cache that the replica lines of a row take (R174, R214): the hash of what names a line. DESIGN CHOICE, safe (log 92). -/
def Replica.sets (r : Replica) : List Nat :=
  (List.range (ceilDiv r.row.length 128)).map fun i => Config.rowCacheSet (r.q + 2 ^ 40 * r.table + 2 ^ 56 * r.faddr + 2 ^ 80 * i) % (7 * 131072)

/-- Storing a replica, at most REPL_WAYS lines to a set: the oldest replicas make room (R214). A row already held is not stored again. DESIGN CHOICE, safe (log 92). -/
def EmbSt.fillReplica (e : EmbSt) (r : Replica) : EmbSt :=
  let room := fun (rs : List Replica) => r.sets.all fun k => decide ((rs.filter fun x => x.sets.contains k).length < e.ways)
  let drop := fun (rs : List Replica) => match rs.find? fun x => x.sets.any fun k => r.sets.contains k with | some x => rs.erase x | none => rs
  let kept := (List.range e.replicas.length).foldl (fun rs _ => if room rs then rs else drop rs) e.replicas
  if e.ways = 0 || (e.replicas.any fun x => x.table = r.table && x.faddr = r.faddr && x.q = r.q) then e
  else { e with replicas := kept ++ [r], replFill := e.replFill + 1 }

/-- The partial response added at the lead (R207, R211, R214); an unanswered sub-request comes as one with code UNREACH. -/
def State.addPart (s : State) (m : GPart) : State :=
  match s.gatherOf m.core m.op with
  | none => s
  | some g =>
    match g.pend.find? fun x => x.chunk = m.chunk && x.shard = m.shard && x.home = m.home && x.cellar = m.cellar with
    | none => s
    | some sub =>
      let bs := ((g.maps.find? fun x => x.1 = m.chunk).map (·.2)).getD []
      let bagAt := fun (o : Nat) => (bs[o]?).getD 0
      let errs := if m.code = stUnreach then List.range sub.entries.length else m.errs
      let g := { g with pend := g.pend.erase sub }
      let g := errs.foldl (fun (g : Gather) i => match sub.entries[i]? with | some x => g.errRow m.code (bagAt x.bag) x.ord x.row | none => g) g
      let g := m.parts.foldl (fun (g : Gather) p => g.addPart (bagAt p.1) p.2) g
      let li := Fin.ofNat 4 g.lead
      let e := m.fills.foldl (fun e f => e.fillReplica ⟨g.table, m.home, f.1, f.2⟩) s.emb[li]
      State.advanceGather m.core m.op (g.nidx / 4096 + 1) (({ s with emb := s.emb.set li e }).setGather g)

/-- The pooled vector of a bag (R207): partials added in an open order, scaled under MEAN. -/
def Gather.pooled (g : Gather) (ev : Nat) (b : GBag) : List W32 :=
  let v := freeSumVec fadd ev g.dim b.parts
  if (GReq.mk g.req).pool = 1 then
    if b.count = 0 then List.replicate g.dim 0#32
    else v.map (fmul (divStage f32One (intToF32 b.count) 0#32))
  else v

/-- The response record of a gather (R210). -/
def Gather.record (g : Gather) (doneBags : Nat) : List Byte :=
  toLe 1 g.code ++ toLe 1 0 ++ toLe 2 (min g.baglen 65535) ++ toLe 4 g.nidx ++ toLe 4 g.missing ++ toLe 4 g.oor ++
    toLe 4 g.replHit ++ toLe 4 g.errRows ++ toLe 4 doneBags ++ toLe 4 0

/-- Several writes into a core's store by one of its operations. -/
def State.storeAll (s : State) (c : CoreId) (own : Nat) (ws : List (Nat × List Byte)) : State :=
  ws.foldl (fun s w => s.writeStoreOf c own w.1 w.2) s

/-- Whether an undefined case has reached a table (R199, R204, R275). -/
def State.isWild (s : State) (t : Nat) : Bool := s.job.wild.contains t

/-- End of a gather: outputs converted and written, record, log, post (R206, R207, R210, R522); those of a table that an undefined case has reached are free
(R199, R204). DEDUCED, unsafe (log 78). -/
def State.finishGather (s : State) (c : CoreId) (o : Op) (g : Gather) : State :=
  let d := GReq.mk g.req
  let outs := if g.noOutput then [] else g.bags.zipIdx.map fun b =>
    let bs := encodeRow d.ofmt (unitMode g.round (s.free + g.dim * (b.2 + 1)))
      (if b.1.rejected then List.replicate g.dim 0#32 else g.pooled (s.free + g.dim * b.2) b.1)
    (d.out + b.2 * d.ostride, if s.isWild g.table then freeBytes (s.free + 4096 * b.2) bs.length else bs)
  let rec' := (d.resp % storeBytes, g.record outs.length)
  let s := s.storeAll c o.id (outs ++ (if d.ok || g.code = stBadDesc then [rec'] else []))
  let s := { s with gathers := s.gathers.filter fun x => !(x.core = g.core && x.op = g.op) }
  let s := s.drawn ((g.dim + 4096) * (g.bags.length + 2))
  let s := if g.code = stOk then s
    else s.event (qpProc (s.dispatchQp (vatOf c))) 4 1 [g.code, g.table, s.cores[c].ctl.vcid.toNat, (g.fail.map (·.2)).getD 0]
  s.endOp c o

/-- Invalidation of every replica of a table on the module (R215). -/
def State.dropReplicas (s : State) (t : Nat) : State :=
  { s with emb := s.emb.map fun e => { e with replicas := e.replicas.filter fun r => r.table ≠ t } }

/-- Invalidation of every replica on the module. -/
def State.dropAllReplicas (s : State) : State := { s with emb := s.emb.map fun e => { e with replicas := [] } }

/-- `e.desc` (R198): image checked and written whole, replicas invalidated, status word, post. -/
def State.runDesc (s : State) (c : CoreId) (addr : Nat) (post : Option SemId) : State :=
  let t := TDesc.mk (storeRead s.cores[c].store addr 64)
  let good := t.ok
  let s := if good then
      ({ s with mem := s.mem.write (s.descBase + 64 * t.id) t.raw }).dropReplicas t.id
    else s
  let s := s.writeStoreOf c 0 (storeAddr (addr + 64)) (toLe 8 (if good then stOk else stBadDesc) ++ toLe 8 (if good then 64 else 0))
  (s.updCore c fun x => { x with seq := x.seq + 1 }).completionPost c post

/-- A routing descriptor (R217). -/
structure RDesc where
  raw : List Byte

def RDesc.fld (d : RDesc) (o n : Nat) : Nat := fieldLe d.raw o n
def RDesc.experts (d : RDesc) : Nat := bits (d.fld 0 4) 7 0 + 1
def RDesc.tfmt (d : RDesc) : Nat := bits (d.fld 0 4) 11 8
def RDesc.k (d : RDesc) : Nat := bits (d.fld 0 4) 15 12
def RDesc.yfmt (d : RDesc) : Nat := bits (d.fld 0 4) 19 16
def RDesc.ntok (d : RDesc) : Nat := bits (d.fld 4 4) 15 0
def RDesc.tdim (d : RDesc) : Nat := bits (d.fld 8 4) 15 0
def RDesc.tstride (d : RDesc) : Nat := d.fld 0xc 4
def RDesc.trows (d : RDesc) : Nat := d.fld 0x10 4
def RDesc.route (d : RDesc) : Nat := d.fld 0x14 4
def RDesc.etab (d : RDesc) : Nat := d.fld 0x18 4
def RDesc.rmap (d : RDesc) : Nat := d.fld 0x1c 4
def RDesc.status (d : RDesc) : Nat := d.fld 0x20 4

/-- The checks of R217. -/
def RDesc.ok (d : RDesc) : Bool :=
  let al := fun (x : Nat) => x % 16 = 0 && bits x 31 22 = 0
  decide (d.tfmt ≤ 5) && decide (d.yfmt ≤ 5) && decide (1 ≤ d.k ∧ d.k ≤ 8) && bits (d.fld 0 4) 31 20 = 0 &&
  bits (d.fld 4 4) 31 16 = 0 && decide (1 ≤ d.ntok) && bits (d.fld 8 4) 31 16 = 0 &&
  decide (16 ≤ d.tdim ∧ d.tdim ≤ 4096) && d.tdim % 16 = 0 && d.tstride % 16 = 0 &&
  al d.trows && al d.route && al d.etab && al d.rmap && al d.status && (d.raw.drop 0x24).all (· = 0#8)

/-- Bytes of an element of a routing format. -/
def routeSize (f : Nat) : Nat := match f with | 0 => 4 | 1 | 2 => 2 | _ => 1

/-- Pitch of an expert buffer's rows in a format (R218). -/
def RDesc.pitch (d : RDesc) (f : Nat) : Nat := roundUp (d.tdim * routeSize f) 16

/-- An entry of the expert table (R217). -/
structure Expert where
  vcid : Nat
  faddr : Nat
  inBuf : Nat
  cap : Nat
  outBuf : Nat
  deriving DecidableEq, Repr

def RDesc.expert (d : RDesc) (m : Cells 8) (e : Nat) : Expert :=
  let x := storeLe m (d.etab + 16 * e) 16
  ⟨bits x 15 0, bits x 39 16, bits x 61 40, bits x 79 64, bits x 101 80⟩

/-- The expert and gate of choice k of token t; none for 0xffff or a number beyond the table. DEDUCED, unsafe (log 78). -/
def RDesc.choice (d : RDesc) (m : Cells 8) (t k : Nat) : Option (Nat × W32) :=
  let a := d.route + 8 * (t * d.k + k)
  let e := storeLe m a 2
  if e < d.experts then some (e, BitVec.ofNat 32 (storeLe m (a + 4) 4)) else none

/-- Where each ROUTE entry goes, in order of token, then choice: expert and row, none when empty or dropped; and the entries
dropped by expert (R218). -/
def RDesc.assign (d : RDesc) (m : Cells 8) : List (Option (Nat × Nat)) × List Nat :=
  let n := d.ntok * d.k
  ((List.range n).foldl (fun (a : List (Option (Nat × Nat)) × List Nat × List Nat) i =>
      match d.choice m (i / d.k) (i % d.k) with
      | none => (none :: a.1, a.2)
      | some (e, _) =>
        let row := (a.2.1.filter (· = e)).length
        if row < (d.expert m e).cap then (some (e, row) :: a.1, e :: a.2.1, a.2.2) else (none :: a.1, a.2.1, e :: a.2.2))
    ([], [], [])) |> fun r => (r.1.reverse, r.2.2)

/-- Writes of a dispatch by expert: rows, then header (R218). -/
def RDesc.writes (d : RDesc) (m : Cells 8) : List (Expert × List (Nat × List Byte)) :=
  let (as, drops) := d.assign m
  (List.range d.experts).map fun e =>
    let x := d.expert m e
    let rows := as.zipIdx.filterMap fun p => match p.1 with
      | some (f, row) => if f = e then
          some (x.inBuf + 16 + row * d.pitch d.tfmt, storeRead m (d.trows + p.2 / d.k * d.tstride) (d.tdim * routeSize d.tfmt)) else none
      | none => none
    (x, rows ++ [(x.inBuf, toLe 4 rows.length ++ toLe 4 ((drops.filter (· = e)).length) ++ toLe 8 0)])

/-- Splitting a write into packets (R287); unlike a transfer's, its last packet need not be a multiple of 16. -/
def splitWrite (a : Nat) (bs : List Byte) : List (Nat × List Byte) :=
  (List.range (ceilDiv bs.length 4096)).map fun i => (a + 4096 * i, (bs.drop (4096 * i)).take 4096)

/-- Writes of a dispatch into the buffers of experts on other modules: rows, or, once `last`, headers (R218). -/
def State.sendExperts (s : State) (c : CoreId) (own : Nat) (d : RDesc) (m : Cells 8) (last : Bool) : State :=
  (d.writes m).foldl (fun s w =>
    if w.1.faddr = s.fab.faddr.toNat then s
    else (if last then w.2.drop (w.2.length - 1) else w.2.take (w.2.length - 1)).foldl (fun s b => (splitWrite b.1 b.2).foldl (fun s p =>
      s.request (.core c.val own) w.1.faddr (leadOf c 4) (.wr (vcidAddr (2 ^ 24 * w.1.vcid + p.1 % storeBytes)) false p.2) (if last then 1 else 0)) s) s) s

/-- The headers of remote expert buffers, once the last row is acknowledged (R218): requests with place 1. -/
def State.dispatchHeaders (s : State) (c : CoreId) (own : Nat) (raw : List Byte) : State :=
  let d := RDesc.mk raw
  let mine := (s.fab.reqs ++ s.fab.tagWait).filter fun r => r.owner = .core c.val own
  if d.ok && mine.all fun r => r.done && r.place = 0 then s.sendExperts c own d s.cores[c].store true else s

/-- Issue of `e.dispatch` (R217, R218): the rows for experts on other modules leave at once. -/
def State.startDispatch (s : State) (c : CoreId) (addr : Nat) (post : Option SemId) : State :=
  let x := s.cores[c]
  let raw := storeRead x.store addr 64
  let d := RDesc.mk raw
  let st := if bits d.status 31 22 = 0 then spanCut d.status 16 else []
  let rd := if d.ok then spanCut d.route (8 * d.ntok * d.k) ++ spanCut d.etab (16 * d.experts) ++
      ((List.range d.ntok).map fun t => spanCut (d.trows + t * d.tstride) (d.tdim * routeSize d.tfmt)).flatten else []
  let wr := st ++ (if d.ok then spanCut d.rmap (4 * d.ntok * d.k) else [])
  let own := x.seq
  let s := s.updCore c fun x => x.addOp post rd wr (.dispatch raw)
  if d.ok then (s.sendExperts c own d x.store false).dispatchHeaders c own raw else s

/-- End of a dispatch: local buffers, RMAP, status word, post (R218). -/
def State.finishDispatch (s : State) (c : CoreId) (o : Op) (raw : List Byte) (net : Nat) : State :=
  let d := RDesc.mk raw
  let m := s.cores[c].store
  let li := Fin.ofNat 4 (leadOf c 4)
  let (as, drops) := if d.ok then d.assign m else ([], [])
  let loc := if d.ok then (d.writes m).filter fun w => w.1.faddr = s.fab.faddr.toNat else []
  let code := if !d.ok then stBadDesc
    else if net ≠ stOk then net
    else if loc.any fun w => (s.storeOfVcid c w.1.vcid).isNone then stUnmapped else stOk
  let bytes := if d.ok then (d.writes m).foldl (fun a w => a + w.2.foldl (fun a b => a + b.2.length) 0) 0 else 0
  let s := loc.foldl (fun (s : State) w =>
    match s.storeOfVcid c w.1.vcid with
    | some e => s.storeAll e (if e = c then o.id else 0) (w.2.map fun b => (b.1 % storeBytes, b.2))
    | none => s) s
  let rmap := (as.map fun a => match a with | some (e, row) => toLe 2 e ++ toLe 2 row | none => toLe 4 0xffffffff).flatten
  let s := s.storeAll c o.id ((if d.ok then [(d.rmap, rmap)] else []) ++ [(storeAddr d.status, toLe 8 code ++ toLe 8 bytes)])
  let e := s.emb[li]
  ({ s with emb := s.emb.set li { e with dispDrop := e.dispDrop + BitVec.ofNat 64 drops.length } }).endOp c o

/-- Rows that `e.collect` reads: token, gate, expert, row (R219). -/
def RDesc.picks (d : RDesc) (m : Cells 8) : List (Nat × W32 × Expert × Nat) :=
  (List.range (d.ntok * d.k)).filterMap fun i =>
    let e := storeLe m (d.rmap + 4 * i) 4
    match d.choice m (i / d.k) (i % d.k) with
    | some (_, g) => if e = 0xffffffff || decide (d.experts ≤ e % 65536) then none
        else some (i / d.k, g, d.expert m (e % 65536), e / 65536)
    | none => none

/-- Issue of `e.collect` (R219): rows on other modules are asked for at once. -/
def State.startCollect (s : State) (c : CoreId) (addr : Nat) (post : Option SemId) : State :=
  let x := s.cores[c]
  let raw := storeRead x.store addr 64
  let d := RDesc.mk raw
  let own := x.seq
  let st := if bits d.status 31 22 = 0 then spanCut d.status 16 else []
  let rd := if d.ok then spanCut d.route (8 * d.ntok * d.k) ++ spanCut d.etab (16 * d.experts) ++ spanCut d.rmap (4 * d.ntok * d.k) else []
  let wr := st ++ (if d.ok then ((List.range d.ntok).map fun t => spanCut (d.trows + t * d.tstride) (d.tdim * routeSize d.tfmt)).flatten else [])
  let s := s.updCore c fun x => x.addOp post rd wr (.collect raw)
  if !d.ok then s
  else
    (d.picks x.store).zipIdx.foldl (fun s p =>
      let e := p.1.2.2.1
      if e.faddr = s.fab.faddr.toNat then s
      else
        let a := e.outBuf + 16 + p.1.2.2.2 * d.pitch d.yfmt
        (List.range (ceilDiv (d.pitch d.yfmt) 4096)).foldl (fun s i =>
          s.request (.core c.val own) e.faddr (leadOf c 4)
            (.rdReq (vcidAddr (2 ^ 24 * e.vcid + (a + 4096 * i) % storeBytes)) (min 4096 (d.pitch d.yfmt - 4096 * i)))
            (p.2 * d.pitch d.yfmt + 4096 * i)) s) s

/-- End of a collect: weighted sums converted and written, status word, post (R219). `got` holds bytes read elsewhere. -/
def State.finishCollect (s : State) (c : CoreId) (o : Op) (raw : List Byte) (net : Nat) (got : Cells 8) : State :=
  let d := RDesc.mk raw
  let m := s.cores[c].store
  let n := d.tdim * routeSize d.yfmt
  let picks := if d.ok then (d.picks m).zipIdx else []
  let rowOf := fun (p : (Nat × W32 × Expert × Nat) × Nat) =>
    let e := p.1.2.2.1
    if e.faddr = s.fab.faddr.toNat then
      match s.storeOfVcid c e.vcid with
      | some x => storeRead s.cores[x].store (e.outBuf + 16 + p.1.2.2.2 * d.pitch d.yfmt) n
      | none => List.replicate n 0#8
    else Cells.read got (p.2 * d.pitch d.yfmt) n
  let code := if !d.ok then stBadDesc else if net ≠ stOk then net
    else if picks.any fun p => p.1.2.2.1.faddr = s.fab.faddr.toNat && (s.storeOfVcid c p.1.2.2.1.vcid).isNone then stUnmapped else stOk
  let outs := if d.ok then (List.range d.ntok).map fun t =>
      let vs := (picks.filter fun p => p.1.1 = t).map fun p => (decodeRow d.yfmt d.tdim (rowOf p)).map (fmul p.1.2.1)
      (d.trows + t * d.tstride,
        encodeRow d.tfmt (unitMode s.cores[c].num.round (s.free + d.tdim * t)) (freeSumVec fadd (s.free + d.tdim * t) d.tdim vs))
    else []
  let s := s.storeAll c o.id (outs ++ [(storeAddr d.status, toLe 8 code ++ toLe 8 (outs.foldl (fun a w => a + w.2.length) 0))])
  (s.drawn (d.tdim * (d.ntok + 1))).endOp c o

end Sys2Proof.Machine
end

