-- ==== Sys2Proof/Machine/GradOps.lean ====
section
/-! DEFINITION. Operations of the combiner and of Press (R221 to R244). -/

namespace Sys2Proof.Machine

/-- A scatter request (R221). -/
structure SReq where
  raw : List Byte

def SReq.fld (d : SReq) (o n : Nat) : Nat := fieldLe d.raw o n
def SReq.ctrl (d : SReq) : Nat := d.fld 0 4
def SReq.table (d : SReq) : Nat := bits d.ctrl 15 0
def SReq.pool (d : SReq) : Nat := bits d.ctrl 17 16
def SReq.isize (d : SReq) : Nat := bits d.ctrl 19 18
def SReq.wtfmt (d : SReq) : Nat := bits d.ctrl 21 20
def SReq.gfmt (d : SReq) : Nat := bits d.ctrl 25 22
def SReq.lead (d : SReq) : Nat := bits d.ctrl 28 26
def SReq.nbag (d : SReq) : Nat := bits (d.fld 4 4) 15 0
def SReq.idx (d : SReq) : Nat := d.fld 8 4
def SReq.offs (d : SReq) : Nat := d.fld 0xc 4
def SReq.wts (d : SReq) : Nat := d.fld 0x10 4
def SReq.grad (d : SReq) : Nat := d.fld 0x14 4
def SReq.gstride (d : SReq) : Nat := d.fld 0x18 4
def SReq.resp (d : SReq) : Nat := d.fld 0x1c 4
def SReq.version (d : SReq) : Nat := d.fld 0x20 2

/-- The checks of a scatter request (R221, R223). -/
def SReq.ok (d : SReq) : Bool :=
  let al := fun (x : Nat) => x % 16 = 0
  let hi := fun (x : Nat) => bits x 31 22 = 0
  decide (d.pool ≤ 2) && decide (d.isize ≤ 1) && decide (d.wtfmt ≤ 2) && decide (d.gfmt ≤ 4) && decide (d.lead ≤ 4) &&
  bits d.ctrl 31 29 = 0 && bits (d.fld 4 4) 31 16 = 0 && decide (1 ≤ d.nbag) &&
  hi d.idx && hi d.offs && hi d.wts && hi d.grad && hi d.resp && al d.idx && al d.grad && al d.gstride && al d.resp &&
  (d.pool = 2 || al d.offs) && (d.wtfmt = 0 || al d.wts) && (d.raw.drop 0x22).all (· = 0#8)

/-- Bags of a scatter, read as a gather's (R206, R222): the offset list of both requests stands in one place. -/
def SReq.bags (d : SReq) (m : Cells 8) : List (Option (Nat × Nat)) := (GReq.mk d.raw).bags m

/-- w × g, or w × g ÷ c rounded once (R222); c = 0 stands for no division. DEDUCED, unsafe (log 81). -/
def contribution (w g : W32) (c : Nat) : W32 :=
  match (f32 w).mul (f32 g) with
  | .fin s m e => if c = 0 then fmul w g else BitVec.ofNat 32 (fp32.narrowFin .rne s m c e).1
  | _ => fmul w g

/-- Counts of a scatter's response record (R223). -/
structure ScatterCnt where
  code : Nat
  baglen : Nat
  nidx : Nat
  missing : Nat
  oor : Nat
  merged : Nat
  fresh : Nat
  evict : Nat

def ScatterCnt.bytes (x : ScatterCnt) : List Byte :=
  toLe 1 x.code ++ toLe 1 0 ++ toLe 2 (min x.baglen 65535) ++ toLe 4 x.nidx ++ toLe 4 x.missing ++ toLe 4 x.oor ++
    toLe 4 x.merged ++ toLe 4 x.fresh ++ toLe 4 x.evict ++ toLe 4 0

/-- Address of the value row of combiner entry `e` (R224). -/
def CmbSt.addr (m : CmbSt) (e : Nat) : Nat := m.base + e * m.pitch

/-- The value row of an entry. -/
def Core.cmbRow (c : Core) (x : CmbEntry) : List W32 :=
  (List.range x.dim).map fun i => BitVec.ofNat 32 (storeLe c.store (c.cmb.addr x.e + 4 * i) 4)

/-- FP32 codes as bytes (R6). -/
def rowBytesOf (xs : List W32) : List Byte := (xs.map fun x => toLe 4 x.toNat).flatten

/-- Writing the value row of an entry. -/
def Core.putCmbRow (c : Core) (e : Nat) (xs : List W32) : Core := { c with store := storePut c.store (c.cmb.addr e) (rowBytesOf xs) }

/-- The set of a key (R224). DEDUCED, unsafe (log 81). -/
def CmbSt.setOf (m : CmbSt) (table row : Nat) : Nat := Config.cmbHash table row % max 1 (m.size / 8)

/-- A contribution entered into the combiner: added to its entry, or written into a free way, or in place of the least recently
touched way, whose entry and row come out (R224, R226). The flag tells that it was merged. -/
def Core.cmbEnter (c : Core) (table row : Nat) (v : List W32) : Core × Bool × Option (CmbEntry × List W32) :=
  let m := c.cmb
  match m.entries.find? fun x => x.table = table && x.row = row with
  | some x =>
    let c := c.putCmbRow x.e (((c.cmbRow x).zip v).map fun p => fadd p.1 p.2)
    ({ c with cmb := { m with entries := m.entries.erase x ++ [x], merged := m.merged + 1 } }, true, none)
  | none =>
    let k := m.setOf table row
    match (List.range 8).find? fun w => !m.entries.any fun x => x.e = 8 * k + w with
    | some w =>
      let c := c.putCmbRow (8 * k + w) v
      ({ c with cmb := { m with entries := m.entries ++ [⟨8 * k + w, table, row, v.length⟩] } }, false, none)
    | none =>
      match m.entries.find? fun x => x.e / 8 = k with
      | none => (c, false, none)
      | some x =>
        let old := c.cmbRow x
        let c := c.putCmbRow x.e v
        ({ c with cmb := { m with entries := m.entries.erase x ++ [⟨x.e, table, row, v.length⟩] } }, false, some (x, old))

/-- Owner of a row: module, home Cellar and local index (R201 to R203, R232). -/
def State.ownerOf (s : State) (t : TDesc) (row : Nat) : Nat × Nat × Nat :=
  let (sh, q) := t.locate row
  ((if t.mapKind = 0 then s.fab.faddr.toNat else (s.mem.shard t sh).faddr), (t.home q).1, q)

/-- Cutting a list of entries of one owner into packets: as many as fit in 4,104 bytes, at least one (R232). -/
def packEntries (size : Nat) : Nat → List GradEntry → List (List GradEntry)
  | 0, _ => []
  | _, [] => []
  | n + 1, xs => xs.take (max 1 (4104 / size)) :: packEntries size n (xs.drop (max 1 (4104 / size)))

/-- The packets of entries read out, by table and owner in the order read (R231, R232). -/
def State.gradPackets (s : State) (c : CoreId) (gen : Nat) (wire : Bool) (xs : List (CmbEntry × List W32)) : List GradPacket :=
  let items := xs.map fun x => (x.1.table, s.ownerOf (s.tdesc x.1.table) x.1.row, x.1.dim, x.2)
  let keys := (items.map fun i => (i.1, i.2.1.1, i.2.1.2.1)).eraseDups
  (keys.map fun k =>
    let es := items.filter fun i => (i.1, i.2.1.1, i.2.1.2.1) = k
    let dim := (es.head?.map (·.2.2.1)).getD 0
    let ents := es.map fun i => GradEntry.mk i.2.1.2.2
      (if wire then i.2.2.2.map fun v => BitVec.ofNat 32 ((bf16.narrow .rne (f32 v)).1 * 65536) else i.2.2.2)
    (packEntries (8 + dim * (if wire then 2 else 4)) ents.length ents).map fun es =>
      { table := k.1, version := (s.tdesc k.1).version, step := s.cores[c].ctl.step.toNat % 2 ^ 32,
        faddr := s.fab.faddr.toNat, vcid := s.cores[c].ctl.vcid.toNat, dim := dim, wire := wire, entries := es,
        owner := k.2.1, cellar := k.2.2, core := c.val, op := gen : GradPacket }).flatten

/-- Sending gradient packets: to a Cellar of this module, or over the fabric through the LEAD Cellar; they hold core write tags for their bytes (R183, R232). From the first one
on the work item is treated as NORESTART (R234). -/
def State.sendGrads (s : State) (c : CoreId) (lead : Nat) (ps : List GradPacket) : State :=
  let n := ps.foldl (fun a p => a + p.entries.length) 0
  let s := s.updCore c fun x =>
    { x with cmb := { x.cmb with sent := x.cmb.sent + BitVec.ofNat 64 n, sentAny := x.cmb.sentAny || !ps.isEmpty } }
  ps.foldl (fun s p => s.request (.core c.val p.op) p.owner lead (.flush p) 0) s

/-- One contribution of a scatter, its eviction sent at once (R226). -/
def State.enterRow (s : State) (c : CoreId) (table row : Nat) (v : List W32) (x : ScatterCnt) : State × ScatterCnt :=
  let (k, merged, out) := s.cores[c].cmbEnter table row v
  let s := s.setCore c k
  let x := if merged then { x with merged := x.merged + 1 } else { x with fresh := x.fresh + 1 }
  match out with
  | none => (s, x)
  | some e =>
    let ps := s.gradPackets c k.cmb.evGen false [e]
    let s := s.updCore c fun k => { k with cmb := { k.cmb with evPend := k.cmb.evPend + ps.length, evPkts := k.cmb.evPkts + ps.length } }
    (s.sendGrads c (leadOf c 4) ps, { x with evict := x.evict + 1 })

/-- The indices of one bag entered (R222); contributions to a table that an undefined case has reached are free (R199). DEDUCED, safe (log 43). -/
def State.scatterBag (c : CoreId) (d : SReq) (t : TDesc) (m : Cells 8) (b lo n : Nat) (a : State × ScatterCnt) : State × ScatterCnt :=
  let is := (List.range n).map fun i => idxAt m d.idx d.isize (lo + i)
  let cnt := if d.pool = 1 then (is.filter (· ≠ missingIdx)).length else 0
  let rowB := ((Fmt.ofCode d.gfmt).map fun f => f.rowBytes t.dim).getD 0
  let g := decodeRow d.gfmt t.dim (storeRead m (d.grad + b * d.gstride) rowB)
  is.zipIdx.foldl (fun a p =>
    let (s, x) := a
    let x := { x with nidx := x.nidx + 1 }
    if p.1 = missingIdx then (s, { x with missing := x.missing + 1 })
    else if t.rows ≤ p.1 then
      let li := Fin.ofNat 4 (leadOf c d.lead)
      ({ s with press := s.press.set li { s.press[li] with oorDrop := s.press[li].oorDrop + 1 } }, { x with oor := x.oor + 1 })
    else
      let v := g.map fun y => contribution (weightAt m d.wts d.wtfmt (lo + p.2)) y cnt
      (s.drawn (if s.isWild d.table then t.dim else 0)).enterRow c d.table p.1 (if s.isWild d.table then freeWords s.free t.dim else v) x) a

/-- Where a scatter's response record goes. -/
def SReq.respAt (d : SReq) : Nat := if d.resp < storeBytes then d.resp else storeAddr d.resp

/-- Ranges of the core store that a scatter reads (R81, R221). -/
def SReq.reads (d : SReq) (t : TDesc) (m : Cells 8) : List (Nat × Nat) :=
  if !d.ok then []
  else
    let last := (d.bags m).foldl (fun a b => max a ((b.map fun y => y.1 + y.2).getD 0)) 0
    let rowB := ((Fmt.ofCode d.gfmt).map fun f => f.rowBytes t.dim).getD 0
    spanCut d.idx (last * (if d.isize = 0 then 4 else 8)) ++ (if d.pool = 2 then [] else spanCut d.offs (4 * (d.nbag + 1))) ++
      (if d.wtfmt = 0 then [] else spanCut d.wts (last * (if d.wtfmt = 1 then 4 else 2))) ++
      ((List.range d.nbag).map fun b => spanCut (d.grad + b * d.gstride) rowB).flatten

/-- A scatter that the combiner takes up: its contributions enter in order; its record waits for completion (R221 to R228). -/
def State.runScatter (s : State) (c : CoreId) (o : Op) (raw : List Byte) : State :=
  let k := s.cores[c]
  let d := SReq.mk raw
  let t := s.tdesc d.table
  let z : ScatterCnt := ⟨stOk, 0, 0, 0, 0, 0, 0, 0⟩
  let (s, x) :=
    if !d.ok then (s, { z with code := stBadDesc })
    else if t.dim = 0 then (s, { z with code := 0x09 })
    else if k.cmb.size = 0 ∨ k.cmb.pitch < 4 * t.dim then (s, { z with code := 0x0b })
    else if d.version ≠ 0 ∧ d.version ≠ t.version then (s, { z with code := stStale })
    else if t.opt = 0 then (s, { z with code := 0x0a })
    else
      let bags := d.bags k.store
      let nrej := (bags.filter (·.isNone)).length
      bags.zipIdx.foldl (fun a b => match b.1 with | some (lo, n) => State.scatterBag c d t k.store b.2 lo n a | none => a)
        (s, { z with baglen := nrej, code := if nrej = 0 then stOk else 0x08 })
  s.updCore c fun k => k.mapOp o.id fun o => { o with body := .scatter d.respAt x.bytes }

/-- Rank of a flush code (R233). -/
def flushRank : Nat → Nat
  | 0x01 => 1 | 0x04 => 2 | 0x07 => 3 | 0x0c => 4 | 0x0d => 5 | _ => 6

/-- A code ranked with another, and the packet it belongs to. -/
def rankIn (a : Nat × (Nat × Nat × Nat)) (code : Nat) (who : Nat × Nat × Nat) : Nat × (Nat × Nat × Nat) :=
  if flushRank code < flushRank a.1 then (code, who) else a

/-- Entries of a table, or of every table, in set and way order (R231). -/
def CmbSt.order (m : CmbSt) (table : Nat) : List CmbEntry :=
  ((List.range m.size).filterMap fun e => m.entries.find? fun x => x.e = e).filter fun x => table = 0xffff || x.table = table

/-- A flush request (R231). -/
structure FReq where
  raw : List Byte

def FReq.ctrl (d : FReq) : Nat := fieldLe d.raw 0 4
def FReq.resp (d : FReq) : Nat := fieldLe d.raw 4 4
def FReq.table (d : FReq) : Nat := bits d.ctrl 15 0
def FReq.wire (d : FReq) : Bool := bit d.ctrl 16
def FReq.lead (d : FReq) : Nat := bits d.ctrl 19 17
def FReq.ok (d : FReq) : Bool :=
  decide (d.lead ≤ 4) && bits d.ctrl 31 20 = 0 && bits d.resp 31 22 = 0 && d.resp % 16 = 0 && (d.raw.drop 8).all (· = 0#8)

/-- The request of the flush at work item end: every table, WIRE FP32, LEAD 4 (R227). -/
def FReq.halt : FReq := ⟨toLe 4 (0xffff + 2 ^ 17 * 4) ++ List.replicate 28 0⟩

/-- A flush that the combiner takes up: entries read out, their packets sent (R226, R227, R231). -/
def State.runFlush (s : State) (c : CoreId) (o : Op) (raw : List Byte) (auto : Bool) : State :=
  let d := FReq.mk raw
  let k := s.cores[c]
  let xs := if d.ok then k.cmb.order d.table else []
  let gen := k.cmb.evGen
  let ps := s.gradPackets c gen d.wire (xs.map fun x => (x, k.cmbRow x))
  let f : FlushOp :=
    { resp := storeAddr d.resp, gen := gen, pend := ps.length + k.cmb.evPend, entries := xs.length, packets := ps.length + k.cmb.evPkts,
      rej := k.cmb.evRej, code := if d.ok then k.cmb.evCode else stBadDesc, table := d.table, bad := if d.ok then k.cmb.evBad else (d.table, 0, 0),
      auto := auto }
  let s := s.updCore c fun k =>
    let m := k.cmb
    { k.mapOp o.id fun o => { o with body := .flush f } with
      cmb := { m with entries := m.entries.filter (fun x => !xs.contains x), evGen := gen + 1, evPend := 0, evPkts := 0, evRej := 0,
                      evCode := 0, evBad := (0, 0, 0), auto := if auto then m.auto + BitVec.ofNat 64 xs.length else m.auto } }
  s.sendGrads c (leadOf c d.lead) ps

/-- The operation of the combiner that may begin: one at a time in issue order, but that a scatter waits for no acknowledgement of an earlier flush (R227). -/
def Core.nextCmb (k : Core) : Option (Op × Nat × List Byte) :=
  let cs := k.ops.filter Op.isCombiner
  match cs.find? fun o => match o.body with | .combiner _ _ => true | _ => false with
  | none => none
  | some o =>
    match o.body with
    | .combiner kind raw =>
      let before := cs.takeWhile fun x => x.id ≠ o.id
      if before.all fun x => kind = 0 && (match x.body with | .flush _ => true | _ => false) then some (o, kind, raw) else none
    | _ => none

/-- Operations of the combiner begun while they may (R227). -/
def State.startCmb (c : CoreId) : Nat → State → State
  | 0, s => s
  | n + 1, s =>
    match s.cores[c].nextCmb with
    | none => s
    | some (o, kind, raw) => State.startCmb c n (if kind = 0 then s.runScatter c o raw else s.runFlush c o raw (kind = 2))

/-- Issue of `e.scatter` (R221, R227). -/
def State.startScatter (s : State) (c : CoreId) (addr : Nat) (post : Option SemId) : State :=
  let k := s.cores[c]
  let raw := storeRead k.store addr 64
  let d := SReq.mk raw
  State.startCmb c 1 (s.updCore c fun k => k.addOp post (d.reads (s.tdesc d.table) k.store) (spanCut d.respAt 32) (.combiner 0 raw))

/-- Issue of `e.flush` (R231, R233). -/
def State.startFlush (s : State) (c : CoreId) (addr : Nat) (post : Option SemId) : State :=
  let raw := storeRead s.cores[c].store addr 32
  State.startCmb c 1 (s.updCore c fun k => k.addOp post [] (spanCut (storeAddr (FReq.mk raw).resp) 32) (.combiner 1 raw))

/-- The flush that `s.halt` starts (R227). -/
def State.startHalt (s : State) (c : CoreId) : State := State.startCmb c 1 (s.updCore c fun k => k.addOp none [] [] (.combiner 2 FReq.halt.raw))

/-- Whether an operation of the combiner ends next: in issue order, but that a scatter does not wait for an earlier flush (R227). -/
def Core.cmbTurn (k : Core) (o : Op) : Bool :=
  ((k.ops.filter Op.isCombiner).takeWhile fun x => x.id ≠ o.id).all fun x =>
    match o.body, x.body with | .scatter _ _, .flush _ => true | _, _ => false

/-- The end of an operation of the combiner; the next ones begin (R227). -/
def State.endCmb (s : State) (c : CoreId) (o : Op) : State := let t := s.endOp c o; State.startCmb c t.cores[c].ops.length t

/-- An acknowledgement, or its time-out, applied to the flush it belongs to (R226, R233). DEDUCED, unsafe (log 81). -/
def State.ackGrad (s : State) (a : GradAck) : State :=
  s.updCore (Fin.ofNat 256 a.core) fun k =>
    let who := (a.table, a.owner, a.cellar)
    if k.ops.any fun o => match o.body with | .flush f => f.gen = a.op | _ => false then
      { k with ops := k.ops.map fun o =>
          match o.body with
          | .flush f =>
            if f.gen = a.op then
              let r := rankIn (f.code, f.bad) a.code who
              { o with body := .flush { f with pend := f.pend - 1, rej := f.rej + a.rejected, code := r.1, bad := r.2 } }
            else o
          | _ => o }
    else if k.cmb.evGen = a.op then
      let r := rankIn (k.cmb.evCode, k.cmb.evBad) a.code who
      { k with cmb := { k.cmb with evPend := k.cmb.evPend - 1, evRej := k.cmb.evRej + a.rejected, evCode := r.1, evBad := r.2 } }
    else k

/-- The acknowledgement of a packet. -/
def GradPacket.ack (p : GradPacket) (code rej : Nat) : GradAck := ⟨p.core, p.op, p.table, p.owner, p.cellar, code, rej⟩

/-- What a flush's code causes: the record of R233, a failed step under UNREACH, STALE and LATE. -/
def State.flushReport (s : State) (c : CoreId) (f : FlushOp) : State :=
  if f.code = stOk then s
  else
    let s := s.event (qpProc (s.dispatchQp (vatOf c))) 5 1 [f.code, f.bad.1, s.cores[c].ctl.vcid.toNat, f.bad.2.1, f.bad.2.2]
    if f.code = stUnreach ∨ f.code = stStale ∨ f.code = 0x0c then s.failStep 233 else s

/-- The flush record (R233). -/
def FlushOp.bytes (f : FlushOp) : List Byte :=
  toLe 4 f.code ++ toLe 4 f.entries ++ toLe 4 f.packets ++ toLe 4 f.rej ++ List.replicate 16 0

/-- End of a flush whose packets are all answered (R227, R233). -/
def State.finishFlush (s : State) (c : CoreId) (o : Op) (f : FlushOp) : State :=
  let s := s.flushReport c f
  (if f.auto then s else s.writeStoreOf c o.id f.resp f.bytes).endCmb c o

/-- Bank of a step. -/
def bankOf (step : Nat) : Fin 2 := Fin.ofNat 2 (step % 2)

/-- Bank `b` of Cellar `n` changed. -/
def State.updBank (s : State) (n : CelId) (b : Fin 2) (f : GBank → GBank) : State :=
  { s with press := s.press.set n { s.press[n] with banks := s.press[n].banks.set b (f s.press[n].banks[b]) } }

/-- A part of a bank, in HBM or in the cave: address of its key index, slots, heap address, heap segments (R235, R239). -/
structure BankPart where
  index : Nat
  slots : Nat
  heap : Nat
  segs : Nat

/-- Key limit: 75 % of the slots (R235). -/
def BankPart.limit (p : BankPart) : Nat := p.slots * 3 / 4

def PressSt.hbmPart (p : PressSt) (b : Fin 2) : BankPart :=
  let slots := p.keyLimit * 4 / 3
  ⟨p.base[b], slots, p.base[b] + 16 * slots, p.heapSegs⟩

/-- The half of the spill area that a bank has (R239, R244). DEDUCED, unsafe (log 81). -/
def PressSt.cavePart (p : PressSt) (b : Fin 2) : BankPart :=
  let half := bits p.spill.toNat 63 48 * gibi / 2
  let base := bits p.spill.toNat 47 0 + half * b.val
  ⟨base, half / 128, base + half / 8, (half - half / 8) / 64⟩

def PressSt.part (p : PressSt) (b : Fin 2) (cave : Bool) : BankPart := if cave then p.cavePart b else p.hbmPart b

/-- The slot linear probing gives a key among those taken (R236). DEDUCED, unsafe (log 81). -/
def probe (taken : List Nat) (slots : Nat) : Nat → Nat → Nat
  | 0, i => i
  | n + 1, i => if taken.contains i then probe taken slots n ((i + 1) % max 1 slots) else i

/-- Segments of a row (R235). -/
def segsOf (dim : Nat) : Nat := dim / 16

/-- A new key of a bank part, none when its limit or its heap does not hold it (R235, R239). -/
def PressSt.newKey (p : PressSt) (b : Fin 2) (cave : Bool) (table q dim step : Nat) : Option GKey :=
  let x := p.part b cave
  let bk := p.banks[b]
  let ks := bk.keys.filter fun k => k.cave = cave
  let used := if cave then bk.usedCave else bk.used
  if x.limit ≤ ks.length ∨ x.segs < used + segsOf dim then none
  else
    some { table := table, q := q, slot := probe (ks.map (·.slot)) x.slots ks.length (Config.pressHash table q % max 1 x.slots),
           seg := used, segs := segsOf dim, cave := cave, step := step }

/-- The 16 bytes of a key slot (R236). -/
def GKey.bytes (k : GKey) : List Byte := toLe 5 k.q ++ toLe 2 k.table ++ toLe 1 1 ++ toLe 4 k.seg ++ toLe 4 k.step

/-- Walking order: the slots of the HBM index, then those of the cave (R236, R258). -/
def GKey.before (a b : GKey) : Bool := if a.cave = b.cave then decide (a.slot ≤ b.slot) else b.cave

/-- Address of a key's row. -/
def PressSt.rowAt (p : PressSt) (b : Fin 2) (k : GKey) : Nat := (p.part b k.cave).heap + 64 * k.seg

/-- Whether the spill area of a Cellar can be used (R239). -/
def State.spillOk (s : State) (n : CelId) : Bool :=
  let x := s.press[n].spill
  bits x.toNat 63 48 ≠ 0 && s.accessAt .unit (bits x.toNat 47 0) = stOk

/-- A key opened and its row written without being read (R236, R237, R239). -/
def State.openKey (s : State) (n : CelId) (b : Fin 2) (k : GKey) (row : List W32) : State :=
  let p := s.press[n]
  let bk := p.banks[b]
  let keys := bk.keys.filter (fun x => x.before k) ++ k :: bk.keys.filter (fun x => !x.before k)
  let p := { p with banks := p.banks.set b { bk with keys := keys, used := if k.cave then bk.used else bk.used + k.segs,
                                                     usedCave := if k.cave then bk.usedCave + k.segs else bk.usedCave,
                                                     spilled := bk.spilled || k.cave },
                    spillKeys := if k.cave then p.spillKeys + 1 else p.spillKeys }
  { s with press := s.press.set n p,
           mem := (s.mem.write ((p.part b k.cave).index + 16 * k.slot) k.bytes).write (p.rowAt b k) (rowBytesOf row) }

/-- One entry of a gradient packet applied; false when it is dropped (R237, R239). -/
def State.pressEntry (s : State) (n : CelId) (b : Fin 2) (table dim step : Nat) (e : GradEntry) : Bool × State :=
  let p := s.press[n]
  let bk := p.banks[b]
  let cnt := fun (s : State) => { s with press := s.press.set n { s.press[n] with adds := s.press[n].adds + BitVec.ofNat 64 (segsOf dim) } }
  match bk.keys.find? fun k => k.table = table && k.q = e.q with
  | some k =>
    let a := p.rowAt b k
    let old := (List.range dim).map fun i => BitVec.ofNat 32 (s.mem.le (a + 4 * i) 4)
    let new := (old.zip e.data).map fun x => fadd x.1 x.2
    let ovfs := (List.range (segsOf dim)).filter fun j =>
      ((old.zip (e.data.zip new)).drop (16 * j)).take 16 |>.any fun x =>
        (f32 x.1).isFinite && (f32 x.2.1).isFinite && !(f32 x.2.2).isFinite
    let s := { s with mem := s.mem.write a (rowBytesOf new) }
    (true, cnt { s with press := s.press.set n { s.press[n] with ovf := s.press[n].ovf + BitVec.ofNat 64 ovfs.length } })
  | none =>
    match (if bk.spilled || bk.full then none else p.newKey b false table e.q dim step) with
    | some k => (true, cnt (s.openKey n b k e.data))
    | none =>
      match (if s.spillOk n && !bk.full then p.newKey b true table e.q dim step else none) with
      | some k => (true, cnt (s.openKey n b k e.data))
      | none =>
        let p := { p with drop := p.drop + 1, banks := p.banks.set b { bk with full := true, logged := true } }
        let s := { s with press := s.press.set n p }
        (false, if bk.logged then s else s.event (qpProc (s.servingQp n.val)) 5 2 [n.val, b.val, step])

/-- Press on a packet: none while it waits where it stands (R241), else its code and rejected entries (R237 to R240). DEDUCED, unsafe (log 81). -/
def State.applyGrad (s : State) (n : CelId) (p : GradPacket) : Option (Nat × Nat) × State :=
  let x := s.press[n]
  let cnt := p.entries.length
  let cur := s.job.step.toNat % 2 ^ 32
  let b := bankOf p.step
  let bk := x.banks[b]
  if (s.tdesc p.table).version ≠ p.version then
    (some (stStale, cnt), { s with press := s.press.set n { x with stale := x.stale + BitVec.ofNat 64 cnt } })
  else if ¬ ((p.step = cur ∧ ¬ (bk.isSealed ∧ bk.step = p.step)) ∨ p.step = (cur + 1) % 2 ^ 32) then
    (some (0x0c, cnt), { s with press := s.press.set n { x with late := x.late + BitVec.ofNat 64 cnt } })
  else if bk.clearing || (bk.isSealed && bk.step ≠ p.step) then
    (none, s)
  else
    let s := s.updBank n b fun k => { k with step := p.step }
    let (rej, s) := p.entries.foldl (fun (a : Nat × State) e =>
      let (ok, s) := a.2.pressEntry n b p.table p.dim p.step e
      (if ok then a.1 else a.1 + 1, s)) (0, s)
    let s := { s with press := s.press.set n { s.press[n] with busy := Config.fresh s.free } }
    (some (if rej = 0 then stOk else 0x0d, rej), s.drawn 1)

/-- Answering a packet: to a core of this module, or over the fabric to its source (R233). -/
def State.answerGrad (s : State) (p : GradPacket) (via : Option Packet) (code rej : Nat) : State :=
  match via with
  | some q => s.sendMsg (q.respond s.fab.faddr.toNat stOk (.flushAck code rej))
  | none => { s with gacks := s.gacks ++ [p.ack code rej] }

/-- Release or retry of a bank: its clear begins (R234, R241). -/
def State.clearBank (s : State) (b : Fin 2) : State :=
  { s with press := s.press.map fun p => { p with banks := p.banks.set b { p.banks[b] with clearing := true } } }

/-- Sealing the bank of a step on every Cellar (R240). -/
def State.sealBanks (s : State) (step : Nat) : State :=
  let b := bankOf step
  { s with press := s.press.map fun p => { p with banks := p.banks.set b { p.banks[b] with isSealed := true, step := step % 2 ^ 32 } } }

end Sys2Proof.Machine
end

