-- ==== Sys2Proof/Machine/CollOps.lean ====
section
/-! DEFINITION. Operations of the collective engines (R311 to R345). -/

namespace Sys2Proof.Machine

/-- A collective descriptor (R318). -/
structure CDesc where
  raw : List Byte

def CDesc.fld (d : CDesc) (o n : Nat) : Nat := fieldLe d.raw o n
def CDesc.ctrl (d : CDesc) : Nat := d.fld 0 4
def CDesc.op (d : CDesc) : Nat := bits d.ctrl 3 0
def CDesc.ifmt (d : CDesc) : Nat := bits d.ctrl 7 4
def CDesc.ofmt (d : CDesc) : Nat := bits d.ctrl 11 8
def CDesc.rfmt (d : CDesc) : Bool := bit d.ctrl 12
def CDesc.redop (d : CDesc) : Nat := bits d.ctrl 14 13
def CDesc.comm (d : CDesc) : Nat := bits d.ctrl 20 15
def CDesc.lease (d : CDesc) : Bool := bit d.ctrl 21
def CDesc.check (d : CDesc) : Bool := bit d.ctrl 22
def CDesc.release (d : CDesc) : Bool := bit d.ctrl 23
def CDesc.dvcid (d : CDesc) : Bool := bit d.ctrl 24
def CDesc.svcid (d : CDesc) : Bool := bit d.ctrl 25
def CDesc.wb (d : CDesc) : Bool := bit d.ctrl 26
def CDesc.count (d : CDesc) : Nat := d.fld 4 4
def CDesc.src (d : CDesc) : Nat := bits (d.fld 8 8) 47 0
def CDesc.dst (d : CDesc) : Nat := bits (d.fld 0x10 8) 47 0
def CDesc.vlen (d : CDesc) : Nat := bits (d.fld 0x18 8) 47 0
def CDesc.ctag (d : CDesc) : Nat := d.fld 0x20 4
def CDesc.table (d : CDesc) : Nat := d.fld 0x24 2
def CDesc.mcgrp (d : CDesc) : Nat := d.fld 0x26 2
def CDesc.root (d : CDesc) : Nat := bits (d.fld 0x28 4) 23 0
def CDesc.status (d : CDesc) : Nat := bits (d.fld 0x2c 4) 21 0
def CDesc.expect (d : CDesc) : Nat := d.fld 0x30 8

/-- Element size of a format (R319). -/
def CDesc.es (d : CDesc) : Nat := routeSize d.ifmt

/-- Whether the operation reduces (R324). -/
def CDesc.reduces (d : CDesc) : Bool := d.op ≤ 1

/-- The checks of a descriptor that need nothing else (R318, R320, R324). DEDUCED, unsafe (log 80). -/
def CDesc.ok (d : CDesc) : Bool :=
  decide (d.op ≤ 8) && decide (d.ifmt ≤ 5) && decide (d.ofmt ≤ 4) && decide (d.redop ≠ 3) && bits d.ctrl 31 27 = 0 &&
  (!d.reduces || decide (d.ifmt ≤ 4)) && bits (d.fld 0x18 8) 63 48 = 0 && bits (d.fld 0x28 4) 31 24 = 0 &&
  bits (d.fld 0x2c 4) 31 22 = 0 && d.fld 0x38 8 = 0

/-- What a join carries of the operation (R320, R321). -/
def CDesc.digest (d : CDesc) : Nat :=
  d.op + 2 ^ 4 * d.ifmt + 2 ^ 8 * bitAt d.rfmt 0 + 2 ^ 9 * d.redop + 2 ^ 11 * d.count

/-- Insertion into an ascending list. -/
def insertNat (x : Nat) : List Nat → List Nat
  | [] => [x]
  | y :: ys => if x ≤ y then x :: y :: ys else y :: insertNat x ys

/-- Members of a communicator by rank, none when its entry is invalid (R315, R316). -/
def State.members (s : State) (comm : Nat) : Option (List Nat) :=
  match s.job.cfg with
  | none => none
  | some cfg =>
    let e := s.mem.read (s.coll.commBase + 64 * comm) 64
    let f := fun o n => fieldLe e o n
    let own := s.fab.faddr.toNat
    let n := bits (f 4 4) 23 0
    let axmask := f 1 1
    let ms := if f 0 1 = 0 then
        (cfg.members.filter fun m => (List.range 3).all fun a => bit axmask a || decide (s.fab.coord m a = s.fab.coord own a)).foldr insertNat []
      else (List.range n).map fun i => s.mem.le (bits (f 0x10 8) 47 0 + 4 * i) 4 % 2 ^ 24
    let good := decide (f 0 1 ≤ 1) && decide (f 2 1 ≤ 3) && decide (axmask < 8) && f 3 1 = 0 && bits (f 4 4) 31 24 = 0 && f 0xc 4 = 0 &&
      (e.drop 0x18).all (· = 0#8) && decide (ms.length = n) && decide (1 ≤ n) && ms[bits (f 8 4) 23 0]? = some own
    if good then some ms else none

/-- VLEN[k], at most C; C when there is no table, 0 where the table does not read (R164, R325). -/
def State.validLen (s : State) (d : CDesc) (k : Nat) : Nat :=
  if d.vlen = 0 then d.count
  else if s.readStatus .unit (d.vlen + 4 * k) 4 ≠ stOk then 0
  else min d.count (s.mem.le (d.vlen + 4 * k) 4)

/-- Rank of a collective code (R320); UNMAPPED ranks with the read errors (R164). DEDUCED, unsafe (log 79). -/
def collRank : Nat → Nat
  | 0x01 => 1 | 0x0e => 2 | 0x10 => 3 | 0x0f => 4 | 0x04 => 5 | 0x07 => 6 | 0x03 => 7 | 0x06 => 8 | 0x02 => 9 | 0x11 => 10 | _ => 11

/-- The higher-ranked of two codes. -/
def collWorse (a b : Nat) : Nat := if collRank b < collRank a then b else a

/-- Codes that stop a collective at once (R320). -/
def collStops (code : Nat) : Bool := decide (collRank code ≤ 5)

/-- A collective with a code ranked in. -/
def Coll.fail (c : Coll) (code : Nat) : Coll := { c with code := collWorse c.code code }

/-- Neighbouring runs of one status joined: each is offset, length, status. -/
def joinRuns (xs : List (Nat × Nat × Nat)) : List (Nat × Nat × Nat) :=
  xs.foldr (fun x rs => match rs with
    | y :: ys => if x.2.2 = y.2.2 then (x.1, x.2.1 + y.2.1, x.2.2) :: ys else x :: rs
    | [] => [x]) []

/-- A range read by a unit, as runs of one status (R164, R166). -/
def State.readRuns (s : State) (q : Requester) (a n : Nat) : List (Nat × Nat × Nat) :=
  joinRuns ((linesOf a n).map fun l =>
    let lo := max a (128 * l)
    let k := min (a + n) (128 * l + 128) - lo
    (lo - a, k, s.readStatus q lo k))

/-- The core store a descriptor's address word names. -/
def State.collStore (s : State) (w : Nat) : Option CoreId := s.storeFor (bits w 39 24)

/-- Source bytes of a collective as runs of one status (R163, R318). -/
def State.collRuns (s : State) (d : CDesc) (o n : Nat) : List (Nat × Nat × Nat) :=
  if d.svcid then [(0, n, if (s.collStore d.src).isSome then stOk else stUnmapped)] else s.readRuns .unit (d.src + o) n

/-- Source bytes of a collective whose status is OK. -/
def State.collBytes (s : State) (d : CDesc) (o n : Nat) : List Byte :=
  if d.svcid then
    match s.collStore d.src with
    | some c => storeRead s.cores[c].store (bits d.src 21 0 + o) n
    | none => List.replicate n 0
  else s.mem.read (d.src + o) n

/-- A collective of the module replaced. -/
def State.setColl (s : State) (c : Coll) : State :=
  { s with coll := { s.coll with colls := s.coll.colls.map fun x => if x.id = c.id then c else x } }

/-- A collective by number. -/
def State.collById (s : State) (id : Nat) : Option Coll := s.coll.colls.find? fun c => c.id = id

/-- A collective of the module changed. -/
def State.updColl (s : State) (id : Nat) (f : Coll → Coll) : State := ((s.collById id).map fun c => s.setColl (f c)).getD s

/-- The journal record of a tensor (R261): STATE, STEP, CELDONE. -/
def State.journalAt (s : State) (t : Nat) : Nat := s.upd[(0 : Fin 4)].journal + 128 * t
def State.journalState (s : State) (t : Nat) : Nat := s.mem.le (s.journalAt t + 2) 1
def State.journalStep (s : State) (t : Nat) : Nat := s.mem.le (s.journalAt t + 4) 4

/-- Whether a tensor's update of the running step has begun already, in a failed attempt (R263). -/
def State.updateKept (s : State) (t : Nat) : Bool := decide (1 ≤ s.journalState t) && decide (s.journalStep t = s.job.step.toNat % 2 ^ 32)

/-- Whether the gradient that a collective brings is discarded: its tensor's update of this step stands (R263). -/
def State.discards (s : State) (d : CDesc) : Bool :=
  (s.job.state = 2 && decide (1 ≤ s.job.phase)) && s.job.upds.any fun u => u.src = 1 && u.ready = d.ctag && s.updateKept u.table

/-- A failed access of a collective: its code, and one record for the operation (R164, R178, R320). -/
def State.noteColl (s : State) (id st a : Nat) : State :=
  match s.collById id with
  | none => s
  | some c =>
    if st = stOk then s
    else
      let rec' := st = stUnmapped || st = stCaveDown
      let s := s.setColl { c.fail st with logged := c.logged || rec' }
      if rec' && !c.logged then s.accessRecord (whoColl (a / 4096 % 4)) st a else s

/-- A source read by a collective: its lines are accessed, its failure noted (R164, R175, R194). -/
def State.tookSource (s : State) (d : CDesc) (id st a n : Nat) : State :=
  let s := if d.svcid || st = stUnmapped || st = stCaveDown then s else s.touchLines a n
  s.noteColl id st a

/-- Writing bytes of local memory by a collective, line by line: a line out of reach is discarded (R163, R164, R178); other collectives that the write
disturbs, and tables where a program issued the collective, are free from then on (R199, R275, R344). -/
def State.engineWrite (s : State) (c : Coll) (a : Nat) (bs : List Byte) : State :=
  let q : Requester := match c.issuer with | .core _ _ => .program | .qp _ => .unit
  (linesOf a bs.length).foldl (fun s l =>
    let lo := max a (128 * l)
    let k := min (a + bs.length) (128 * l + 128) - lo
    let st := s.accessAt .unit lo
    if st = stOk then (s.writeOpen q lo ((bs.drop (lo - a)).take k) true (some c.id)).updColl c.id fun c => { c with done := c.done + k }
    else s.noteColl c.id st lo) s

/-- The operation of core `k` that a collective is, 0 for another's. -/
def Coll.opOf (c : Coll) (k : CoreId) : Nat := match c.issuer with | .core i op => if i = k.val then op else 0 | .qp _ => 0

/-- Writing destination bytes of a collective at an offset (R318). -/
def State.collWrite (s : State) (c : Coll) (o : Nat) (bs : List Byte) : State :=
  let d := CDesc.mk c.desc
  if s.discards d then s
  else if d.dvcid then
    match s.collStore d.dst with
    | some k => (s.writeStoreOf k (c.opOf k) (bits d.dst 21 0 + o) bs).updColl c.id fun c => { c with done := c.done + bs.length }
    | none => s.noteColl c.id stUnmapped (d.dst + o)
  else s.engineWrite c (d.dst + o) bs

/-- FP32 code rounded to BF16, as FP32 (R324). -/
def bf16Of (v : FVal) : W32 := BitVec.ofNat 32 ((bf16.narrow .rne v).1 * 65536)

/-- Input elements as they travel: FP32, or BF16 rounded (R324). -/
def CDesc.toWire (d : CDesc) (bs : List Byte) : List Byte :=
  let xs := decodeRow d.ifmt (bs.length / d.es) bs
  if d.rfmt then (xs.map fun x => toLe 2 ((bf16Of (f32 x)).toNat / 65536)).flatten else rowBytesOf xs

/-- Bytes of an element on the wire of a reduction. -/
def CDesc.ws (d : CDesc) : Nat := if d.rfmt then 2 else 4

/-- Wire elements as FP32. -/
def CDesc.ofWire (d : CDesc) (bs : List Byte) : List W32 := decodeRow (if d.rfmt then 1 else 0) (bs.length / d.ws) bs

/-- MAX and MIN: exact, NaN propagates (R324). -/
def redMax (a b : W32) : W32 :=
  if (f32 a).isNan then a else if (f32 b).isNan then b else if (f32 a).lt (f32 b) then b else a
def redMin (a b : W32) : W32 :=
  if (f32 a).isNan then a else if (f32 b).isNan then b else if (f32 b).lt (f32 a) then b else a

/-- The combination of two partial values (R324). -/
def CDesc.combine (d : CDesc) (a b : W32) : W32 :=
  match d.redop with
  | 1 => redMax a b
  | 2 => redMin a b
  | _ => if d.rfmt then bf16Of ((f32 a).add (f32 b)) else fadd a b

/-- A stripe: 4 KiB of a chunk; stripe n of a chunk starts with CELn (R317). -/
def stripes (n : Nat) : List (Nat × Nat) := (List.range (max 1 (ceilDiv n 4096))).map fun i => (4096 * i, min 4096 (n - 4096 * i))

/-- A fragment to send: segment, offset, bytes of its stream, status, data, and its source address and bytes there. -/
structure CFrag where
  seg : Nat
  off : Nat
  total : Nat
  status : Nat
  bytes : List Byte
  src : Nat
  srcN : Nat

/-- Input fragments of `n` bytes at source offset `o`: runs of one status within each stripe. -/
def State.inputFrags (s : State) (d : CDesc) (o n : Nat) : List CFrag :=
  if n = 0 then [⟨0, 0, 0, stOk, [], d.src, 0⟩]
  else
    ((stripes n).map fun p => (s.collRuns d (o + p.1) p.2).map fun r =>
      ⟨0, p.1 + r.1, n, r.2.2, if r.2.2 = stOk then s.collBytes d (o + p.1 + r.1) r.2.1 else List.replicate r.2.1 0, d.src + o + p.1 + r.1, r.2.1⟩).flatten

/-- Input fragments of a reduction, on the wire: stripes of 1,024 elements, so that none exceeds 4,096 bytes, in runs of elements of one status. DEDUCED, unsafe (log 80). -/
def State.wireFrags (s : State) (d : CDesc) (o n : Nat) : List CFrag :=
  if n = 0 then [⟨0, 0, 0, stOk, [], d.src, 0⟩]
  else
    ((List.range (ceilDiv n 1024)).map fun i =>
      let m := min 1024 (n - 1024 * i)
      let o := o + 1024 * i * d.es
      let rs := s.collRuns d o (m * d.es)
      let st := fun (e : Nat) => rs.foldl (fun a r => if overlaps r.1 r.2.1 (e * d.es) d.es then collWorse a r.2.2 else a) stOk
      (joinRuns ((List.range m).map fun e => (e, 1, st e))).map fun r =>
        ⟨0, (1024 * i + r.1) * d.ws, n * d.ws, r.2.2,
          if r.2.2 = stOk then d.toWire (s.collBytes d (o + r.1 * d.es) (r.2.1 * d.es)) else List.replicate (r.2.1 * d.ws) 0, d.src + o + r.1 * d.es, r.2.1 * d.es⟩).flatten

/-- Fragments of this rank's reduced chunk (R319). -/
def Coll.reducedFrags (c : Coll) : List CFrag :=
  let n := c.reduced.length
  if n = 0 then [⟨1, 0, 0, stOk, [], 0, 0⟩]
  else
    (c.reducedSt.map fun r => (stripes r.2.1).map fun p =>
      ⟨1, r.1 + p.1, n, r.2.2, if r.2.2 = stOk then (c.reduced.drop (r.1 + p.1)).take p.2 else List.replicate p.2 0, 0, 0⟩).flatten

/-- The fragments that a member has for the peer of a rank and module, in order, as far as they are known (R319, R325, R327,
R339). -/
def State.fragsFor (s : State) (c : Coll) (k faddr : Nat) : List CFrag :=
  let d := CDesc.mk c.desc
  let chunk := d.count * d.es
  match d.op with
  | 0 => s.wireFrags d (k * chunk) (s.validLen d k) ++ (if c.phase2 then c.reducedFrags else [])
  | 1 => s.wireFrags d (k * chunk) (s.validLen d k)
  | 2 => s.inputFrags d 0 (s.validLen d c.rank * d.es)
  | 3 | 4 => s.inputFrags d (k * chunk) (s.validLen d k * d.es)
  | 5 => ⟨2, 0, 32, stOk, List.replicate 32 0, 0, 0⟩ ::
      (if c.phase2 then
        let mine := c.staged.filter fun m => m.1 = faddr
        let all := mine.foldl (fun a m => a + m.2.2.length) 0
        if mine.isEmpty then [⟨3, 0, 0, stOk, [], 0, 0⟩]
        else (mine.map fun m => (stripes m.2.2.length).map fun p => ⟨3, m.2.1 + p.1, all, stOk, (m.2.2.drop p.1).take p.2, 0, 0⟩).flatten
      else [])
  | 6 => if c.rank = d.root then s.inputFrags d 0 chunk else []
  | 7 => s.inputFrags d 0 32
  | _ => []

/-- Credit that a fragment costs, in 32-byte units. -/
def CFrag.units (f : CFrag) : Nat := ceilDiv f.bytes.length 32 + 1

/-- Bytes sent counted at the engine of the stripe (R345). DEDUCED, unsafe (log 79). -/
def State.countSent (s : State) (f : CFrag) : State :=
  let i := Fin.ofNat 4 (f.off / 4096)
  { s with collCel := s.collCel.set i { s.collCel[i] with bytes := s.collCel[i].bytes + BitVec.ofNat 64 f.bytes.length } }

/-- Credit sent and not yet acknowledged (R303, R306). -/
def State.unackedAdd (s : State) (c : Coll) (faddr units : Nat) : State :=
  { s with coll := { s.coll with unacked := s.coll.unacked ++ [(c.comm, c.cseq, faddr, units)] } }

/-- Credit that a peer returned. -/
def State.unackedSub (s : State) (comm cseq faddr units : Nat) : State :=
  let mine := fun (u : Nat × Nat × Nat × Nat) => u.1 = comm && u.2.1 = cseq && u.2.2.1 = faddr
  let n := s.coll.unacked.foldl (fun a u => if mine u then a + u.2.2.2 else a) 0 - units
  { s with coll := { s.coll with unacked := s.coll.unacked.filter (fun u => !mine u) ++ (if n = 0 then [] else [(comm, cseq, faddr, n)]) } }

/-- The source of a fragment read, and its bytes counted; those of a collective that an undefined case has reached are free (R323, R344, R345). -/
def State.readFrag (s : State) (c : Coll) (f : CFrag) : State × List Byte :=
  let s := if f.srcN = 0 then s else s.tookSource (CDesc.mk c.desc) c.id f.status f.src f.srcN
  ((s.countSent f).drawn f.bytes.length, s.openBytes c.spoilt f.bytes)

/-- A fragment's packet. -/
def State.fragPacket (s : State) (c : Coll) (dst : Nat) (f : CFrag) (bs : List Byte) : Packet :=
  { s.packet dst (f.off / 4096 % 4) (.coll c.comm c.cseq (.data f.seg f.off f.total f.status bs)) with stripe := f.off / 4096 % 2 = 1 }

/-- Sending the further fragments of a peer that its credit covers (R321, R322). -/
def State.sendFrags (c : Coll) (p : CollPeer) : State → List CFrag → State × CollPeer
  | s, [] => (s, p)
  | s, f :: fs =>
    if p.joined && decide (f.units ≤ p.credit) then
      let (s, bs) := s.readFrag c f
      State.sendFrags c { p with credit := p.credit - f.units, sent := p.sent + 1 }
        ((s.inject (s.fragPacket c p.faddr f bs)).unackedAdd c p.faddr f.units) fs
    else (s, p)

/-- Sending a multicast once every member's credit covers it (R305, R319, R321). DEDUCED, unsafe (log 80). -/
def State.sendMulticast (s : State) (c : Coll) : State :=
  let d := CDesc.mk c.desc
  let fs := s.fragsFor c 0 0
  if c.rank ≠ d.root ∨ c.peers.any (fun p => !p.joined || p.sent ≠ 0) then s
  else
    let s := fs.foldl (fun s f =>
      let (s, bs) := s.readFrag c f
      let s := c.peers.foldl (fun s p => s.unackedAdd c p.faddr f.units) s
      s.inject { s.fragPacket c 0 f bs with mc := true, group := d.mcgrp }) s
    s.updColl c.id fun c => { c with peers := c.peers.map fun p => { p with sent := fs.length } }

/-- Sending everything a collective may send now. -/
def State.pushColl (s : State) (id : Nat) : State :=
  match s.collById id with
  | none => s
  | some c =>
    if !c.active || collStops c.code then s
    else if (CDesc.mk c.desc).op = 6 then s.sendMulticast c
    else
      let (s, ps) := c.peers.foldl (fun (a : State × List CollPeer) p =>
        let (s, p) := State.sendFrags c p a.1 ((a.1.fragsFor c p.rank p.faddr).drop p.sent)
        (s, a.2 ++ [p])) (s, [])
      s.updColl id fun c => { c with peers := ps }

/-- Bytes of a rank's stream that have arrived, and their number in all once known. -/
def Coll.got (c : Coll) (rank seg : Nat) : Nat := c.recv.foldl (fun a r => if r.rank = rank && r.seg = seg then a + r.n else a) 0
def Coll.streamDone (c : Coll) (rank seg : Nat) : Bool :=
  match c.recv.find? fun r => r.rank = rank && r.seg = seg with
  | none => false
  | some r => decide (r.total ≤ c.got rank seg)
def Coll.allDone (c : Coll) (seg : Nat) : Bool := c.peers.all fun p => c.streamDone p.rank seg

/-- Worst status of the fragments received over a part of the streams. -/
def Coll.recvBad (c : Coll) (seg lo n : Nat) : Nat :=
  c.recv.foldl (fun a r => if r.seg = seg && overlaps r.off r.n lo n then collWorse a r.status else a) stOk

/-- A stream's bytes of a rank, in place. -/
def Coll.stream (c : Coll) (rank seg n : Nat) : List Byte :=
  let m : Memory := c.recv.foldl (fun m r => if r.rank = rank && r.seg = seg then Cells.write m r.off r.bytes else m) []
  Cells.read m 0 n

/-- Output elements of a reduction written: converted to OFMT, overflows counted; elements whose inputs were bad stay
unwritten (R320, R324, R325). -/
def State.putReduced (s : State) (c : Coll) (o : Nat) (xs : List W32) (finite : Nat → Bool) (bad : Nat → Bool) : State :=
  let d := CDesc.mk c.desc
  let os := match Fmt.ofCode d.ofmt with | some f => f.rowBytes 1 | none => 1
  let ovf := match Fmt.ofCode d.ofmt with
    | some f => (xs.zipIdx.filter fun x => (f.narrow .rne (f32 x.1)).2 = ConvClass.ovf || (!(f32 x.1).isFinite && finite x.2)).length
    | none => 0
  let i := Fin.ofNat 4 (o / 4096)
  let s := { s with collCel := s.collCel.set i { s.collCel[i] with ovf := s.collCel[i].ovf + BitVec.ofNat 64 ovf } }
  xs.zipIdx.foldl (fun s x =>
    if bad x.2 then s
    else
      match s.collById c.id with
      | none => s
      | some c => s.collWrite c (o + x.2 * os) (encodeRow d.ofmt (fun _ => .rne) [x.1])) s

/-- The reduction of this rank's chunk once every input has arrived (R324): written, and under ALLREDUCE sent on with the status of its elements. -/
def State.reduceChunk (s : State) (c : Coll) : State :=
  let d := CDesc.mk c.desc
  let n := s.validLen d c.rank
  let own := s.wireFrags d (c.rank * d.count * d.es) n
  let ownBytes := (own.map (·.bytes)).flatten
  let ins := d.ofWire (ownBytes.take (n * d.ws)) :: c.peers.map fun p => d.ofWire (c.stream p.rank 0 (n * d.ws))
  let xs := freeSumVec d.combine s.free n ins
  let st := fun (i : Nat) =>
    own.foldl (fun a f => if overlaps f.off f.bytes.length (i * d.ws) d.ws then collWorse a f.status else a) (c.recvBad 0 (i * d.ws) d.ws)
  let finite := fun (i : Nat) => ins.all fun v => (f32 ((v[i]?).getD 0#32)).isFinite
  let wire := if d.op = 0 then (if d.rfmt then (xs.map fun x => toLe 2 (x.toNat / 65536)).flatten else rowBytesOf xs) else []
  let runs := if d.op = 0 then joinRuns ((List.range n).map fun i => (i * d.ws, d.ws, st i)) else []
  let os := match Fmt.ofCode d.ofmt with | some f => f.rowBytes 1 | none => 1
  let s := own.foldl (fun s f => if f.srcN = 0 then s else s.tookSource d c.id f.status f.src f.srcN) (s.drawn (n + 1))
  let s := s.updColl c.id fun c => { c with phase2 := true, reduced := wire, reducedSt := runs }
  s.putReduced c (if d.op = 0 then c.rank * d.count * os else 0) xs finite fun i => st i ≠ stOk

/-- Copying this module's own part of a data movement (R319). -/
def State.ownPart (s : State) (c : Coll) : State :=
  let d := CDesc.mk c.desc
  let chunk := d.count * d.es
  let copy := fun (s : State) (so dO n : Nat) =>
    (s.inputFrags d so n).foldl (fun s f =>
      let s := if f.srcN = 0 then s else s.tookSource d c.id f.status f.src f.srcN
      if f.status = stOk then s.collWrite c (dO + f.off) f.bytes else s) s
  match d.op with
  | 2 => copy s 0 (c.rank * chunk) (s.validLen d c.rank * d.es)
  | 3 => copy s (c.rank * chunk) (c.rank * chunk) (s.validLen d c.rank * d.es)
  | 4 =>
    let s := copy s (c.rank * chunk) (c.rank * chunk) (s.validLen d c.rank * d.es)
    s.engineWrite c (d.vlen + 4 * (c.ranks + c.rank)) (toLe 4 (s.validLen d c.rank))
  | 6 => if c.rank = d.root then copy s 0 0 chunk else s
  | _ => s

/-- The combined barrier record: GOVF and FAIL by OR, counts by saturating sum; false when a STEP differs (R327). -/
def combineBarrier (rs : List (List Byte)) : Bool × List Byte :=
  let f := fun (r : List Byte) o n => fieldLe r o n
  let steps := rs.map fun r => f r 0 4
  let flags := rs.foldl (fun a r => a ||| (f r 4 4 % 4)) 0
  let sum := fun o => rs.foldl (fun a r => satAdd 64 a (f r o 8)) 0
  (steps.all fun x => x = steps.headD 0, toLe 4 (steps.headD 0) ++ toLe 4 flags ++ toLe 8 (sum 8) ++ toLe 8 (sum 16) ++ toLe 8 0)

/-- Move entries of a PERMUTE: source, destination, target, bytes (R339); one that does not read moves nothing. -/
def State.moves (s : State) (d : CDesc) : List (Nat × Nat × Nat × Nat) :=
  (List.range d.count).map fun i =>
    let e := if s.readStatus .unit (d.vlen + 32 * i) 32 = stOk then s.mem.read (d.vlen + 32 * i) 32 else []
    (bits (fieldLe e 0 8) 47 0, bits (fieldLe e 8 8) 47 0, bits (fieldLe e 0x10 4) 23 0, bits (fieldLe e 0x18 8) 39 0)

/-- Whether the sources of a PERMUTE fit the staging area and its entries are legal (R339). -/
def State.movesOk (s : State) (d : CDesc) : Bool :=
  let ms := s.moves d
  decide (ms.foldl (fun a m => a + m.2.2.2) 0 ≤ s.coll.permGib * gibi) && ms.all fun m => m.2.2.2 % 16 = 0

/-- Progress of a collective after something arrived: the reduction of this rank's chunk, the moves after the staging barrier, a
barrier's record. -/
def State.advanceColl (s : State) (id : Nat) : State :=
  match s.collById id with
  | none => s
  | some c =>
    let d := CDesc.mk c.desc
    let ready := c.active && !collStops c.code && !c.phase2
    let s :=
      if ready && d.reduces && c.allDone 0 then s.reduceChunk c
      else if ready && d.op = 5 && c.allDone 2 then
        let own := c.staged.filter fun m => m.1 = s.fab.faddr.toNat
        own.foldl (fun s m => s.engineWrite c m.2.1 m.2.2) (s.updColl id fun c => { c with phase2 := true })
      else if ready && d.op = 7 && c.allDone 0 then
        let own := s.inputFrags d 0 32
        let (eq, r) := combineBarrier ((own.map (·.bytes)).flatten :: c.peers.map fun p => c.stream p.rank 0 32)
        let s := own.foldl (fun s f => s.tookSource d id f.status f.src f.srcN) (s.updColl id fun c => { c with phase2 := true })
        if own.any (fun f => f.status ≠ stOk) || c.recvBad 0 0 32 ≠ stOk then s
        else if eq then s.collWrite c 0 r else s.updColl id fun c => c.fail 0x0e
      else s
    s.pushColl id

/-- The stamp a QP puts on a message (R415). -/
def State.qpStamp (s : State) (n : Nat) : W64 × State :=
  let p := qpProc (s.servingQp n)
  let st := s.fw.procs[p].stamp + 1
  (st, s.updProc p fun x => { x with stamp := st })

/-- Credit that a join grants: free within the stream buffer (R321, R342). DEDUCED, unsafe (log 79). -/
def joinCredit (ev : Nat) : Nat := 129 + Config.order ev 0 786303 % 786303

/-- A join taken in: credit, parameters, counts written for ALLTOALLV (R320, R321). -/
def State.takeJoin (s : State) (id : Nat) (j : CollJoin) : State :=
  match s.collById id with
  | none => s
  | some c =>
    let d := CDesc.mk c.desc
    let c := { c with peers := c.peers.map fun p => if p.faddr = j.src then { p with joined := true, credit := p.credit + j.credit } else p }
    let c := if j.digest ≠ d.digest then c.fail 0x0e else c
    let s := s.setColl c
    match (if d.op = 4 then c.peers.find? fun p => p.faddr = j.src else none) with
    | some p => s.engineWrite c (d.vlen + 4 * (c.ranks + p.rank)) (toLe 4 ((j.counts[c.rank]?).getD 0))
    | none => s

/-- Homes of the rows of a SGATHER: module, shard, Cellar with lowest local index and span (R329). DEDUCED, unsafe (log 80). -/
def State.shardHomes (s : State) (d : CDesc) (t : TDesc) : List (Nat × Nat × Nat × Nat × Nat) :=
  let rows := ((List.range d.count).map fun i => d.fld 8 8 % 2 ^ 40 + i).filter fun r => r < t.rows
  let keys := rows.map fun r =>
    let (sh, q) := t.locate r
    ((if t.mapKind = 0 then s.fab.faddr.toNat else (s.mem.shard t sh).faddr), sh, (t.home q).1, q)
  ((keys.map fun k => (k.1, k.2.1, k.2.2.1)).eraseDups).map fun h =>
    let qs := (keys.filter fun k => (k.1, k.2.1, k.2.2.1) = h).map (·.2.2.2)
    let lo := qs.foldl min (qs.headD 0)
    let hi := qs.foldl max 0
    (h.1, h.2.1, h.2.2, lo, hi + 1 - lo)

/-- A collective becoming active (R317, R321): joins go out, sources of a PERMUTE are staged, shard requests sent, its own data
moved. DEDUCED, unsafe (log 79). -/
def State.activate (s : State) (id : Nat) : State :=
  match s.collById id with
  | none => s
  | some c =>
    let d := CDesc.mk c.desc
    let c := { c with active := true }
    let s := s.setColl c
    if d.op = 8 then
      let t := s.tdesc d.table
      let step := match c.issuer with | .core k _ => s.cores[Fin.ofNat 256 k].ctl.step.toNat | .qp _ => s.job.step.toNat
      let hs := s.shardHomes d t
      let s := s.setColl { c with shards := hs.map fun h => ⟨h.1, h.2.2.1, h.2.1⟩ }
      hs.foldl (fun s h =>
        let m := Msg.coll c.comm c.cseq (.shardReq d.table t.version h.2.1 h.2.2.1 h.2.2.2.1 h.2.2.2.2 (step % 65536) d.lease d.release)
        if h.1 = s.fab.faddr.toNat then { s with shardReqs := s.shardReqs ++ [{ s.packet h.1 h.2.2.1 m with tag := id }] }
        else s.request (.firmware id) h.1 h.2.2.1 m 0 (bytes := 8 + h.2.2.2.2 * t.rowBytes)) s
    else
      let lists := if d.op = 5 then (d.vlen, 32 * d.count) else if d.vlen ≠ 0 ∧ d.op ≤ 4 then (d.vlen, 4 * c.ranks) else (0, 0)
      let s := (s.readRuns .unit lists.1 lists.2).foldl (fun s r => s.noteColl id r.2.2 (lists.1 + r.1)) s
      let s := if d.op = 5 then
          (s.moves d).foldl (fun s m =>
            (s.readRuns .unit m.1 m.2.2.2).foldl (fun s r =>
              let s := s.tookSource ⟨[]⟩ id r.2.2 (m.1 + r.1) r.2.1
              if r.2.2 = stOk then
                s.updColl id fun c => { c with staged := c.staged ++ [(m.2.2.1, m.2.1 + r.1, s.mem.read (m.1 + r.1) r.2.1)] }
              else s) s) s
        else s.ownPart c
      let counts := if d.op = 4 then (List.range c.ranks).map fun k => s.validLen d k else []
      let s := c.peers.foldl (fun s p =>
        let (st, s) := s.qpStamp 0
        (s.inject (s.packet p.faddr 0 (.coll c.comm c.cseq (.join d.digest st (joinCredit s.free) counts)))).drawn 1) s
      let (mine, rest) := s.coll.joins.partition fun j => j.comm = c.comm && j.cseq = c.cseq
      let s := { s with coll := { s.coll with joins := rest } }
      (mine.foldl (fun s j => s.takeJoin id j) s).advanceColl id

/-- Active streams are at most 16; the next waiting collectives become active in issue order (R317). -/
def State.activateNext : Nat → State → State
  | 0, s => s
  | n + 1, s =>
    if 16 ≤ (s.coll.colls.filter (·.active)).length then s
    else
      match s.coll.colls.find? fun c => !c.active && c.code ≠ stBadDesc with
      | none => s
      | some c => State.activateNext n (s.activate c.id)

/-- Issue of a collective by a core's operation or a queue processor (R317 to R321). DEDUCED, unsafe (log 79). -/
def State.issueColl (s : State) (who : CollIssuer) (raw : List Byte) : State :=
  let d := CDesc.mk raw
  let prog := match who with | .core _ _ => true | .qp _ => false
  let ms := s.members d.comm
  let good := d.ok && !(prog && decide (d.comm = 0)) && ms.isSome && (d.op ≠ 5 || s.movesOk d) &&
    (d.op ≠ 6 || decide (d.root < (ms.getD []).length)) && (d.op ≠ 8 || (s.tdesc d.table).dim ≠ 0)
  let l := ms.getD []
  let own := s.fab.faddr.toNat
  let cs := if good then ((Cells.get s.coll.cseq d.comm).toNat + 1) % 2 ^ 32 else 0
  let c : Coll :=
    { id := s.coll.nextId, issuer := who, desc := raw, comm := d.comm, cseq := cs, active := false, rank := l.idxOf own, ranks := l.length,
      peers := if d.op = 8 then [] else (l.zipIdx.filter fun m => m.1 ≠ own).map fun m => ⟨m.2, m.1, false, 0, 0⟩,
      recv := [], phase2 := false, reduced := [], reducedSt := [], staged := [], shards := [], uvers := [], code := if good then stOk else stBadDesc,
      done := 0, spilled := false, spoilt := false, logged := false }
  let s := { s with coll := { s.coll with colls := s.coll.colls ++ [c], nextId := s.coll.nextId + 1,
                                          cseq := if good then Cells.set s.coll.cseq d.comm (BitVec.ofNat 32 cs) else s.coll.cseq } }
  if good then s.activateNext 16 else s

/-- Bytes of a collective's input at SRC, and of its output at DST, in all (R319). -/
def CDesc.inBytes (d : CDesc) (ranks : Nat) : Nat :=
  match d.op with
  | 0 | 1 | 3 | 4 => ranks * d.count * d.es
  | 2 | 6 => d.count * d.es
  | 7 => 32
  | _ => 0
def CDesc.outBytes (d : CDesc) (ranks pitch : Nat) : Nat :=
  let os := match Fmt.ofCode d.ofmt with | some f => f.rowBytes 1 | none => 1
  match d.op with
  | 0 => ranks * d.count * os
  | 1 => d.count * os
  | 2 | 3 | 4 => ranks * d.count * d.es
  | 6 => d.count * d.es
  | 7 => 32
  | 8 => d.count * pitch
  | _ => 0

/-- Issue of `d.coll` (R54, R81, R317). DEDUCED, unsafe (log 80). -/
def State.startColl (s : State) (c : CoreId) (addr : Nat) (post : Option SemId) : State :=
  let raw := storeRead s.cores[c].store addr 64
  let d := CDesc.mk raw
  let own := s.cores[c].seq
  let id := s.coll.nextId
  let n := ((s.members d.comm).map List.length).getD 0
  let mine := fun (yes : Bool) (w k : Nat) => if yes && s.collStore w = some c then spanCut (bits w 21 0) k else []
  let s := s.updCore c fun x => x.addOp post (mine d.svcid d.src (d.inBytes n))
    (spanCut d.status 32 ++ mine d.dvcid d.dst (d.outBytes n (s.tdesc d.table).wpitch)) (.coll id)
  s.issueColl (.core c.val own) raw

/-- Whether a collective has nothing left to wait for (R306, R323). -/
def State.collFinished (s : State) (c : Coll) : Bool :=
  let d := CDesc.mk c.desc
  collStops c.code || (c.active &&
    (c.peers.all fun p => p.joined && decide ((s.fragsFor c p.rank p.faddr).length ≤ p.sent)) &&
    match d.op with
    | 0 => c.phase2 && c.allDone 1
    | 1 => c.phase2
    | 5 => c.phase2 && c.allDone 3
    | 6 => if c.rank = d.root then !s.coll.unacked.any fun u => u.1 = c.comm && u.2.1 = c.cseq else c.streamDone d.root 0
    | 7 => c.phase2
    | 8 => c.shards.isEmpty
    | _ => c.allDone 0)

/-- The status record (R320). -/
def Coll.record (c : Coll) : List Byte :=
  let basis := c.uvers.foldl (fun a u => a + u.2) 0
  toLe 4 c.code ++ toLe 4 c.cseq ++ toLe 8 c.done ++ toLe 8 (if (CDesc.mk c.desc).op = 8 then basis else 0) ++ toLe 8 0

/-- Update entries in order of TABLE_ID (R260). -/
def byTable (es : List UpdEntry) : List UpdEntry :=
  es.foldr (fun x l => l.filter (fun y => decide (y.table < x.table)) ++ x :: l.filter (fun y => decide (x.table ≤ y.table))) []

/-- SRC 1 tensors whose reduction this was join the ready list, unless the update of a failed attempt stands (R259, R263). -/
def State.tagReady (s : State) (ctag : Nat) : State :=
  let us := s.job.upds.filter fun u => u.src = 1 && u.ready = ctag && !s.job.ready.any (·.table = u.table) && !s.updateKept u.table
  if s.job.state = 2 && 1 ≤ s.job.phase then { s with job := { s.job with ready := s.job.ready ++ byTable us } } else s

/-- Free bytes over a collective's outputs on this module: DST and the destinations of moves brought here (R344). DEDUCED, safe (log 43). -/
def State.spoilOutputs (s : State) (c : Coll) : State :=
  let d := CDesc.mk c.desc
  let moved := (c.recv.filter fun r => r.seg = 3).map (fun r => (r.off, r.n)) ++
    ((c.staged.filter fun m => m.1 = s.fab.faddr.toNat).map fun m => (m.2.1, m.2.2.length))
  if d.op = 5 then moved.foldl (fun s m => s.engineWrite c m.1 (freeBytes (s.free + m.1) m.2)) s
  else s.collWrite c 0 (freeBytes s.free (d.outBytes c.ranks (s.tdesc d.table).wpitch))

/-- End of a collective (R259, R317, R320, R323, R332, R345): counters, basis check, records, write-back under WB, status, post. After the backward-close barrier
one on communicator 0 that stopped is issued again (R263). The output of one that stopped with rank 2 to 5 is free (R320). DEDUCED, unsafe (log 79). -/
def State.finishColl (s : State) (c : Coll) : State :=
  let d := CDesc.mk c.desc
  let basis := c.uvers.foldl (fun a u => a + u.2) 0
  let miss := d.op = 8 && d.check && !collStops c.code && basis ≠ d.expect
  let c := if miss then c.fail 0x11 else c
  let r := collRank c.code
  let s := if (c.spoilt && r ≠ 1) || (decide (2 ≤ r) && decide (r ≤ 5)) then (s.spoilOutputs c).drawn freeStep else s
  let cels := s.collCel.map fun e => { e with done := e.done + 1, fail := if r ≤ 8 then e.fail + 1 else e.fail, basis := if miss then e.basis + 1 else e.basis }
  let s := { s with
    coll := { s.coll with
      colls := s.coll.colls.filter fun x => x.id ≠ c.id
      unacked := if collStops c.code then s.coll.unacked.filter fun u => !(u.1 = c.comm && u.2.1 = c.cseq) else s.coll.unacked }
    collCel := cels }
  let p := qpProc (s.servingQp 0)
  let s := if miss then s.event p 7 3 [d.table, s.job.step.toNat, basis, d.expect] else s
  let s := if c.code = stOk then s else s.event p 7 1 [c.code, c.comm, c.cseq, d.ctag]
  let s := if 2 ≤ r ∧ r ≤ 5 then s.failStep 320 else s
  let s := if d.wb && !collStops c.code then { s with mem := (collRanges c.desc).foldl (fun m x => m.writeBack x.1 x.2) s.mem } else s
  let s := if collStops c.code then s else s.tagReady d.ctag
  let s := s.activateNext 16
  match c.issuer with
  | .qp n => if 2 ≤ r ∧ r ≤ 5 ∧ c.comm = 0 ∧ s.job.state = 2 ∧ 4 ≤ s.job.phase then s.issueColl (.qp n) c.desc else s
  | .core k op =>
    let k := Fin.ofNat 256 k
    match s.cores[k].opAt op with
    | none => s
    | some o => (s.writeStoreOf k o.id d.status c.record).endOp k o

/-- The collective of a packet at this module. -/
def State.collOf (s : State) (comm cseq : Nat) : Option Coll := s.coll.colls.find? fun c => c.comm = comm && c.cseq = cseq && c.active

/-- A fragment taken in: combined or written (R319, R324, R339), and its credit returned (R322); one that has come already, from the tree and from a
catch-up, is nothing (R306). -/
def State.takeData (s : State) (c : Coll) (p : Packet) (seg off total status : Nat) (bs : List Byte) : State :=
  let d := CDesc.mk c.desc
  match c.peers.find? fun x => x.faddr = p.src with
  | none => if p.src = s.fab.faddr.toNat then s else s.badPacket
  | some x =>
    let k := x.rank
    if c.recv.any fun r => r.rank = k && r.seg = seg && r.off = off && r.n = bs.length then s
    else
      let keep := d.reduces && seg = 0 || d.op = 7
      let r : CollRecv := ⟨k, seg, off, total, bs.length, status, if keep then bs else []⟩
      let c := { (if status = stOk then c else c.fail status) with recv := c.recv ++ [r] }
      let s := s.setColl c
      let chunk := d.count * d.es
      let s :=
        if status ≠ stOk ∨ keep then s
        else
          match d.op with
          | 0 =>
            let os := match Fmt.ofCode d.ofmt with | some f => f.rowBytes 1 | none => 1
            s.putReduced c (k * d.count * os + off / d.ws * os) (d.ofWire bs) (fun _ => false) (fun _ => false)
          | 2 | 3 | 4 => s.collWrite c (k * chunk + off) bs
          | 5 => if seg = 3 then s.engineWrite c off bs else s
          | 6 => s.collWrite c off bs
          | _ => s
      (s.sendMsg (p.respond s.fab.faddr.toNat stOk (.collAck c.comm c.cseq (.ack (ceilDiv bs.length 32 + 1))))).advanceColl c.id

/-- Whether a home Cellar holds shard requests of a tensor: its update is in progress there (R329). -/
def State.updating (s : State) (t : Nat) : Bool := s.journalState t = 1 || s.journalState t = 2

/-- UVER of a tensor: STEP of its last committed update, 0 if its journal record shows none (R261, R329). DEDUCED, unsafe (log 80). -/
def State.uver (s : State) (t : Nat) : Nat := if s.journalState t = 3 then s.journalStep t else 0

/-- Taking a lease on a Cellar (R330). -/
def CollCel.takeLease (e : CollCel) (t step : Nat) : CollCel :=
  if e.leases.any fun l => l.table = t && l.step = step then
    { e with leases := e.leases.map (fun l => if l.table = t && l.step = step then { l with count := l.count + 1 } else l), grant := e.grant + 1 }
  else if e.leases.length < 1024 then { e with leases := e.leases ++ [⟨t, step, 1⟩], grant := e.grant + 1 }
  else { e with full := e.full + 1 }

/-- Releasing a lease (R331). -/
def CollCel.dropLease (e : CollCel) (t step : Nat) : CollCel :=
  { e with leases := (e.leases.map fun l => if l.table = t && l.step = step then { l with count := l.count - 1 } else l).filter fun l => l.count ≠ 0 }

/-- A home Cellar serving a shard request; none while the tensor's update is in progress (R329 to R331). `who` names the requester in a record of R164; rows of a
table that an undefined case has reached are free (R199). -/
def State.serveShard (s : State) (who table version shard cel first n step : Nat) (lease release : Bool) : Option CollBody × State :=
  let t := s.tdesc table
  let i := Fin.ofNat 4 cel
  if s.updating table then (none, s)
  else if t.dim = 0 ∨ t.version ≠ version then (some (.shardReply table shard cel stStale 0 []), s)
  else
    let s := if lease && !s.coll.reshard then { s with collCel := s.collCel.set i (s.collCel[i].takeLease table step) } else s
    let sh := s.mem.shard t shard
    let qs := ((List.range n).map (first + ·)).filter fun q => (t.home q).1 = cel
    let (code, rows, s) := qs.foldl (fun (a : Nat × List (Nat × List Byte) × State) q =>
      let (code, rows, s) := a
      let (st, bs, s) := s.rowRead (t.rowAddr sh q) t.rowBytes true
      let s := if (st = stUnmapped || st = stCaveDown) && code = stOk then s.accessRecord who st (t.rowAddr sh q) else s
      if st = stOk then (code, rows ++ [(q, s.openBytes (s.isWild table) bs)], s.drawn bs.length) else (collWorse code st, rows, s)) (stOk, [], s)
    let s := if release then { s with collCel := s.collCel.set i (s.collCel[i].dropLease table step) } else s
    (some (.shardReply table shard cel code (s.uver table) rows), s)

/-- A shard reply at the requester: rows written at pitch WPITCH in row order (R319, R329). -/
def State.takeShard (s : State) (id home table shard cel status uver : Nat) (rows : List (Nat × List Byte)) : State :=
  match s.collById id with
  | none => s
  | some c =>
    let d := CDesc.mk c.desc
    let t := s.tdesc table
    let key := (home, shard)
    let c := { (if status = stOk then c else c.fail status) with
      shards := c.shards.filter fun w => !(w.faddr = home && w.cellar = cel && w.shard = shard)
      uvers := if status = stStale || status = stUnreach || c.uvers.any (fun u => u.1 = key) then c.uvers else c.uvers ++ [(key, uver)] }
    rows.foldl (fun s r =>
      let row := t.rowOf shard r.1
      let r0 := d.fld 8 8 % 2 ^ 40
      match s.collById id with
      | some c => if r0 ≤ row ∧ row < r0 + d.count then s.collWrite c ((row - r0) * t.wpitch) r.2 else s
      | none => s) (s.setColl c)

end Sys2Proof.Machine
end

