-- ==== Sys2Proof/Machine/Net.lean ====
section
/-! DEFINITION. Requests of other modules served here, and responses and time-outs given to their requesters (R183, R287 to
R289). -/

namespace Sys2Proof.Machine

/-- Where a request's address word leads at this module (R76, R287). -/
def State.reqSide (s : State) (a : Nat) : Side :=
  if a < 2 ^ 63 then .mem (bits a 47 0)
  else match s.storeFor (bits a 39 24) with | some c => .store c (bits a 21 0) | none => .bad

/-- A remote read as parts of one status, offset, status, bytes; zeros stand for what does not read, and one record names the requester (R163, R164, R175,
R190, R287). -/
def State.serveRead (s : State) (who a n : Nat) : List (Nat × Nat × List Byte) × State :=
  match s.reqSide a with
  | .mem a =>
    let rs := s.readRuns .remote a n
    let parts := rs.map fun r => (r.1, r.2.2, if r.2.2 = stOk then s.readBytes (a + r.1) r.2.1 else List.replicate r.2.1 0)
    let s := rs.foldl (fun s r => if r.2.2 = stOk || r.2.2 = stUncorr then s.touchLines (a + r.1) r.2.1 else s) s
    (parts, match rs.find? fun r => r.2.2 = stUnmapped || r.2.2 = stCaveDown with
      | some r => s.accessRecord who r.2.2 (a + r.1)
      | none => s)
  | .store c off => ([(0, stOk, storeRead s.cores[c].store off n)], s)
  | _ => ([(0, stUnmapped, List.replicate n 0)], s.accessRecord who stUnmapped (bits a 47 0))

/-- A remote write applied line by line up to the first line out of reach: status, bytes written; WB before the answer (R163, R164, R182, R287). DEDUCED, unsafe (log 78). -/
def State.serveWrite (s : State) (who a : Nat) (wb : Bool) (bs : List Byte) : Nat × Nat × State :=
  match s.reqSide a with
  | .mem a =>
    let (st, n, s) := (Side.cuts (.mem a) bs.length).foldl (fun (r : Nat × Nat × State) k =>
      if r.1 ≠ stOk then r
      else
        let st := r.2.2.accessAt .remote (a + k.1)
        if st = stOk then (stOk, r.2.1 + k.2, r.2.2.writeOpen .remote (a + k.1) ((bs.drop k.1).take k.2))
        else (st, r.2.1, r.2.2.accessRecord who st (a + k.1))) (stOk, 0, s)
    (st, n, if wb then { s with mem := s.mem.writeBack a n } else s)
  | .store c off => (stOk, bs.length, s.writeStoreOf c 0 off bs)
  | _ => (stUnmapped, 0, s.accessRecord who stUnmapped (bits a 47 0))

/-- A change of a request that waits for its response. -/
def State.updReq (s : State) (r : NetReq) (f : NetReq → NetReq) : State :=
  { s with fab := { s.fab with reqs := s.fab.reqs.map fun x => if !x.done && x.tag = r.tag && x.cel = r.cel then f x else x } }

/-- A part of a read's response: placed at once for a transfer, kept for a collect (R190, R219, R287). -/
def State.readPart (s : State) (r : NetReq) (status off : Nat) (bs : List Byte) : State :=
  let s := s.updReq r fun x =>
    { x with got := x.got + bs.length, status := if x.status = stOk then status else x.status,
             data := if status = stOk then x.data ++ [(x.place + off, bs)] else x.data }
  match r.owner with
  | .core c op =>
    let c := Fin.ofNat 256 c
    match s.cores[c].opAt op with
    | some o =>
      match o.body with
      | .xfer raw _ _ _ _ =>
        if status = stOk then s.placeRead c o (r.place + off) bs else s.failXfer c op 0 status ((XDesc.mk raw).srcAt (r.place + off))
      | _ => s
    | none => s
  | _ => s

/-- What a core's request brings back once it is complete: to a transfer, an expert routing, a gather or a flush. -/
def State.toCore (s : State) (r : NetReq) (c : CoreId) (op status : Nat) (resp : Option Msg) : State :=
  let kept := { s with fab := { s.fab with reqs := s.fab.reqs ++ [{ r with done := true, status := if r.status = stOk then status else r.status }] } }
  match r.msg, s.cores[c].opAt op with
  | .gsub m, _ =>
    match resp with
    | some (.gpart p) => s.addPart p
    | _ => s.addPart ⟨m.core, m.op, m.chunk, m.shard, m.home, m.cellar, stUnreach, [], [], []⟩
  | .flush p, _ =>
    match resp with
    | some (.flushAck code rej) => s.ackGrad (p.ack code rej)
    | _ => s.ackGrad (p.ack stUnreach 0)
  | .rdReq _ n, some o =>
    match o.body with
    | .xfer raw _ _ _ _ => if r.got < n then s.failXfer c op 0 status ((XDesc.mk raw).srcAt (r.place + r.got)) else s
    | .collect _ => kept
    | _ => s
  | .wr _ _ bs, some o =>
    match o.body with
    | .xfer raw _ _ _ _ =>
      let n := match resp with | some (.wrAck n) => min n bs.length | _ => 0
      if status = stOk then s.setXfer c op bs.length stOk 0 else s.failXfer c op n status ((XDesc.mk raw).dstAt (r.place + n))
    | .dispatch raw => kept.dispatchHeaders c op raw
    | _ => s
  | _, _ => s

/-- A request answered in full with a status, or timed out: its tags are free and its requester has the result (R183, R289). -/
def State.completeReq (s : State) (r : NetReq) (status : Nat) (resp : Option Msg) (late : Bool) : State :=
  let s := s.freeReq r late
  match r.owner with
  | .core c op => s.toCore r (Fin.ofNat 256 c) op status resp
  | .firmware id =>
    match r.msg, resp with
    | .coll _ _ (.shardReq table _ shard cel _ _ _ _ _), some (.coll _ _ (.shardReply _ _ _ st u rows)) =>
      s.takeShard id r.dst table shard cel st u rows
    | .coll _ _ (.shardReq table _ shard cel _ _ _ _ _), _ => s.takeShard id r.dst table shard cel stUnreach 0 []
    | _, _ => s
  | .queue _ _ => s

/-- A response given to its request: a read is complete with its last byte (R183, R287). -/
def State.respondTo (s : State) (r : NetReq) (p : Packet) : State :=
  match p.msg, r.msg with
  | .rdResp off bs, .rdReq _ n =>
    if bs.isEmpty && n ≠ 0 then s.completeReq r p.status none false
    else
      let s := s.readPart r p.status off (bs.take (n - off))
      match s.fab.reqOf p with
      | some x => if n ≤ x.got then s.completeReq x x.status none false else s
      | none => s
  | m, _ => s.completeReq r p.status (some m) false

/-- Delivered packet `k` of a kind taken out and handled; another packet or none changes nothing, a bad one is counted (R287). DESIGN CHOICE, safe (log 73). -/
def State.onDelivered (s : State) (k : Nat) (want : Msg → Bool) (f : State → Packet → Res) : Res :=
  match s.fab.deliv[k]? with
  | none => .next s
  | some p =>
    if !want p.msg then .next s
    else if !p.crcOk then .next (s.takeDeliv k).badPacket
    else f (s.takeDeliv k) p

/-- A response packet given to its request; a late one is counted (R289). -/
def State.onResponse (s : State) (k : Nat) (want : Msg → Bool) : Res :=
  s.onDelivered k want fun s p =>
    match s.fab.reqOf p with
    | none => .next s.lateResp
    | some r => .next (s.respondTo r p)

/-- Net status of an operation's finished requests, worst first, and the bytes read. -/
def State.netResult (s : State) (c : CoreId) (op : Nat) : Nat × Cells 8 :=
  let rs := s.fab.reqs.filter fun r => r.owner = .core c.val op && r.done
  (((rs.find? fun r => r.status ≠ stOk).map (·.status)).getD stOk,
    rs.foldl (fun m r => r.data.foldl (fun m d => Cells.write m d.1 d.2) m) [])

/-- Dropping the finished requests of an operation. -/
def State.dropReqs (s : State) (c : CoreId) (op : Nat) : State :=
  { s with fab := { s.fab with reqs := s.fab.reqs.filter fun r => !(r.owner = .core c.val op && r.done) } }

end Sys2Proof.Machine
end

