-- ==== Sys2Proof/Machine/Issue.lean ====
section
/-! DEFINITION. Issue of a bundle on a core of the module: what the slots of R43 to R73 leave to it. -/

namespace Sys2Proof.Machine

/-- Whether the sequencer of a core may fetch (R45, R79, R104, R424, R497); during a protect sequence only to the outcome of its
open segment (R440). DEDUCED, unsafe (log 34). -/
def State.mayFetch (s : State) (c : CoreId) : Bool :=
  let x := s.cores[c]
  s.coreOn c && x.ctl.run && !x.ctl.fault && !x.ctl.halting && !x.ctl.stopped && !x.ctl.tapHalt && !x.seg.accClear &&
  ((s.pwr.protect.isNone && !s.job.parkLost) || x.seg.isOpen)

/-- A fault of R79 at bundle `pc`: the sequencer stops, the queue processor logs it with the combiner entries that its work item discards (R227) and the
step fails (R470); SEG_LIMIT in a backward layer is a gradient overflow (R145, R149). DEDUCED, unsafe (log 20). DEDUCED, unsafe (log 96). -/
def State.coreFault (s : State) (c : CoreId) (code pc : Nat) : State :=
  let s := s.updCore c fun x =>
    { x with ctl := { x.ctl with fault := true, faultCode := code, waiting := false, halting := false } }
  let x := s.cores[c]
  let s := s.logRec (qpProc (s.dispatchQp (vatOf c))) 0x0006 [code, pc, x.seg.id.toNat, x.ctl.vcid.toNat, x.cmb.entries.length]
  let s := if code = fSegLimit ∧ s.layerPhase (x.seg.id.toNat / 16) = 1 then { s with job := { s.job with govf := true } } else s
  s.failStep 79

/-- A move/sync operation that the module starts (R54). -/
def State.startAsync (s : State) (c : CoreId) (k : DKind) (addr : Nat) (post : Option SemId) : State :=
  match k with
  | .xfer => s.startXfer c addr post
  | .imem => s.startImem c addr post
  | .coll => s.startColl c addr post
  | .gather => s.startGather c addr post
  | .desc => s.runDesc c addr post
  | .scatter => s.startScatter c addr post
  | .flush => s.startFlush c addr post
  | .dispatch => s.startDispatch c addr post
  | .collect => s.startCollect c addr post

/-- The decision of `y.commit` at bundle `pc` (R70, R145, R470); a protect sequence halts the core after it (R440). An array operation or a chain of the
same bundle is not among those waited for. DEDUCED, unsafe (log 96). DEDUCED, unsafe (log 105). -/
def State.decideCommit (s : State) (c : CoreId) (pc : Nat) : State :=
  let x := s.cores[c]
  let s' :=
    if !x.num.segovf then s.withCore c x.commitSeg
    else if x.seg.replays < 3 then s.withCore c x.rewindSeg
    else (s.coreFault c fSegLimit pc).updCore c fun x => { x with regs := { x.regs with pc := pc } }
  if s.pwr.protect.isSome || s.job.parkLost then s'.updCore c fun x => { x with ctl := { x.ctl with stopped := true } } else s'

/-- What a bundle's move/sync slot leaves to the module. -/
def State.serveReq (s : State) (c : CoreId) (pc : Nat) (req : DReq) : State :=
  match req with
  | .none => s
  | .async k addr post => s.startAsync c k addr post
  | .postr v sem n => s.updCore c fun x => x.addOp none [] [] (.postr (v % 65536) sem n)
  | .commit => s.decideCommit c pc

/-- A bundle tried on a core: stall, fault, or effects (R45 to R73). DESIGN CHOICE, safe (log 31). -/
def State.issue (s : State) (c : CoreId) (b : Bundle) : Res :=
  if !s.mayFetch c then unchanged s
  else
    let x := s.cores[c]
    match x.tryIssue (s.env c) b with
    | .stall y => .next (s.setCore c y)
    | .fault code => .next (s.coreFault c code x.regs.pc)
    | .issued y evs req halt =>
      let s := ((s.withCore c (y, evs)).drawn freeStep).serveReq c x.regs.pc req
      .next (if halt then s.startHalt c else s)

/-- A bundle with one slot. DESIGN CHOICE, safe (log 32). -/
def State.issueS (s : State) (c : CoreId) (g : Guard) (op : SOp) : Res :=
  s.issue c { Bundle.nops with sg := g, s := (some op).filter SOp.legal }
def State.issueM (s : State) (c : CoreId) (g : Guard) (op : MOp) : Res :=
  s.issue c { Bundle.nops with mg := g, m := (some op).filter MOp.legal }
def State.issueV (s : State) (c : CoreId) (g : Guard) (op : VOp) : Res :=
  s.issue c { Bundle.nops with vg := g, v := (some op).filter VOp.legal }
def State.issueD (s : State) (c : CoreId) (g : Guard) (op : DOp) : Res :=
  s.issue c { Bundle.nops with dg := g, d := some op }

/-- Whether a `d.imem` in flight covers bundle `pc` (R73). -/
def Core.imemPending (c : Core) (pc : Nat) : Bool :=
  c.ops.any fun o => match o.body with | .imem _ first n _ => decide (first ≤ pc ∧ pc < first + n) | _ => false

/-- Fetch of the bundle at the PC (R45, R49, R73, R79, R519). Once a `d.imem` has met bundles in use, what the core executes is free until its work item
ends (R73). DEDUCED, safe (log 43). -/
def State.fetch (s : State) (c : CoreId) : Res :=
  if !s.mayFetch c then unchanged s
  else
    let x := s.cores[c]
    let pc := x.regs.pc
    if x.imem.wild || x.imemPending pc then
      ((s.updCore c fun x => { x with imem := { x.imem with wild := true } }).drawn 16).issue c (decodeBundle (BitVec.ofNat 128 (leNat (freeBytes s.free 16))))
    else if x.imem.len ≤ pc then .next (s.coreFault c fPcRange pc)
    else if x.imem.bad.contains pc then .next (s.coreFault c fImemBad pc)
    else s.issue c (decodeBundle (Cells.get x.imem.words pc))

end Sys2Proof.Machine
end

