-- ==== Sys2Proof/Machine/UpdOps.lean ====
section
/-! DEFINITION. The update unit of a Cellar: rules, sweeps, recovery and scrub (R245 to R275). -/

namespace Sys2Proof.Machine

/-- Hyperparameters of a tensor (R250). -/
structure Hyp where
  raw : List Byte

def Hyp.f (h : Hyp) (o : Nat) : W32 := BitVec.ofNat 32 (fieldLe h.raw o 4)
def Hyp.lr (h : Hyp) : W32 := h.f 0
def Hyp.wd (h : Hyp) : W32 := h.f 4
def Hyp.b1 (h : Hyp) : W32 := h.f 8
def Hyp.b2 (h : Hyp) : W32 := h.f 0xc
def Hyp.eps (h : Hyp) : W32 := h.f 0x10
def Hyp.clip (h : Hyp) : W32 := h.f 0x14
def Hyp.t0 (h : Hyp) : Nat := fieldLe h.raw 0x18 4
def Hyp.nesterov (h : Hyp) : Bool := bit (fieldLe h.raw 0x1c 4) 0
def Hyp.biascorr (h : Hyp) : Bool := bit (fieldLe h.raw 0x1c 4) 1
def Hyp.trust (h : Hyp) : Bool := bit (fieldLe h.raw 0x1c 4) 2
def Hyp.phiMax (h : Hyp) : W32 := h.f 0x20

/-- The copy of a tensor's hyperparameters in its journal record (R250, R261). -/
def State.hyp (s : State) (t : Nat) : Hyp := ⟨s.mem.read (s.journalAt t + 0x40) 64⟩

/-- Division and square root of the catalogue (R122, R251). -/
def fdivS (x y : W32) : W32 := (stageEval 0x00d x y 0 0).1
def fsqrtS (x : W32) : W32 := (stageEval 0x025 x 0 0 0).1

/-- g of R251: the gradient without the scale 2^e, limited to CLIP. -/
def Hyp.grad (h : Hyp) (e : Nat) (x : W32) : W32 :=
  let g := ldexp x (intToF32 (-(e : Int)))
  if fpos h.clip then fclamp g h.clip 0 else g

/-- A coefficient times a master taken exactly, rounded once. DEDUCED, unsafe (log 83). -/
def mulMaster (a : W32) (w : FVal) : W32 := toF32 ((f32 a).mul w)

/-- Bias-correction count (R251). -/
def Hyp.count (h : Hyp) (step : Nat) : Nat := max (step + 1 - h.t0) 1

/-- d = g + λw. -/
def Hyp.decayed (h : Hyp) (g : List W32) (w : List FVal) : List W32 := (g.zip w).map fun x => fadd x.1 (mulMaster h.wd x.2)

/-- A reduction whose open order depends on its inputs alone, so equal inputs give equal results (R4, R274). DESIGN CHOICE, safe (log 116). -/
def inputReduce (f : W32 → W32 → W32) (xs : List W32) : W32 := freeReduce f (xs.foldl (fun a x => a * 2 ^ 32 + x.toNat) 1) xs

/-- The new state words of a row (R249, R252). DEDUCED, unsafe (log 83). -/
def nextState (opt : Nat) (h : Hyp) (g : List W32) (w : List FVal) (st : List W32) : List W32 :=
  let n := g.length
  let d := h.decayed g w
  let ema := fun (b : W32) (old x : List W32) => (old.zip x).map fun p => fadd (fmul b p.1) (fmul (fsub f32One b) p.2)
  match opt with
  | 2 => (st.zip d).map fun x => fadd (fmul h.b1 x.1) x.2
  | 3 => (st.zip d).map fun x => fadd x.1 (fmul x.2 x.2)
  | 4 =>
    let sum := inputReduce fadd (d.map fun x => fmul x x)
    [fadd (st.headD 0) (fdivS sum (intToF32 n)), 0, 0, 0]
  | 5 => ema h.b1 (st.take n) d ++ ema h.b2 (st.drop n) (d.map fun x => fmul x x)
  | 6 | 7 => ema h.b1 (st.take n) g ++ ema h.b2 (st.drop n) (g.map fun x => fmul x x)
  | _ => []

/-- m̂ and v̂ of codes 5 to 7. -/
def moments (h : Hyp) (t : Nat) (n : Nat) (st : List W32) : List W32 × List W32 :=
  let m := st.take n
  let v := st.drop n
  if h.biascorr then
    (m.map fun x => fdivS x (fsub f32One (powStage h.b1 t)), v.map fun x => fdivS x (fsub f32One (powStage h.b2 t)))
  else (m, v)

/-- r of code 7, the bracket of code 6: m̂ ÷ (√v̂ + ε) + λw. DEDUCED, unsafe (log 83). -/
def lambDir (h : Hyp) (t : Nat) (w : List FVal) (st : List W32) : List W32 :=
  let (m, v) := moments h t w.length st
  ((m.zip v).zip w).map fun x => fadd (fdivS x.1.1 (fadd (fsqrtS x.1.2) h.eps)) (mulMaster h.wd x.2)

/-- Trust ratio of two sums of squares (R253). DEDUCED, unsafe (log 83). -/
def trustRatio (h : Hyp) (w2 r2 : W32) : W32 :=
  let a := fsqrtS w2
  let b := fsqrtS r2
  let p := if (f32 a).isZero || (f32 b).isZero then f32One else fdivS a b
  if fpos h.phiMax then fmin p h.phiMax else p

/-- Sum of squares in an open order. -/
def sumSq (xs : List FVal) : W32 := inputReduce fadd (xs.map fun x => toF32 (x.mul x))

/-- Δ of a row (R252), written −η × x; `phi` is the ratio of a TRUST scope wider than the row. DEDUCED, unsafe (log 83). -/
def increment (opt : Nat) (h : Hyp) (t : Nat) (g : List W32) (w : List FVal) (st : List W32) (phi : Option W32) : List W32 :=
  let eta := h.lr ^^^ 0x80000000#32
  let d := h.decayed g w
  match opt with
  | 1 => d.map (fmul eta)
  | 2 => if h.nesterov then (d.zip st).map fun x => fmul eta (fadd x.1 (fmul h.b1 x.2)) else st.map (fmul eta)
  | 3 => (d.zip st).map fun x => fdivS (fmul eta x.1) (fadd (fsqrtS x.2) h.eps)
  | 4 => d.map fun x => fdivS (fmul eta x) (fadd (fsqrtS (st.headD 0)) h.eps)
  | 5 =>
    let (m, v) := moments h t w.length st
    (m.zip v).map fun x => fdivS (fmul eta x.1) (fadd (fsqrtS x.2) h.eps)
  | 6 => (lambDir h t w st).map (fmul eta)
  | 7 =>
    let r := lambDir h t w st
    let p := phi.getD (trustRatio h (sumSq w) (sumSq (r.map f32)))
    r.map (fmul (fmul eta p))
  | _ => []

/-- Masters of a record (R135, R247). -/
def decodeMasters (dim : Nat) (bs : List Byte) : List FVal :=
  (List.range dim).map fun i => xf40.decode (fieldLe bs (4 * i) 4 * 256 + fieldLe bs (4 * dim + i) 1)

/-- A master record from codes. -/
def encodeMasters (codes : List Nat) : List Byte :=
  (codes.map fun c => toLe 4 (c / 256)).flatten ++ codes.map fun c => BitVec.ofNat 8 c

/-- The working row of masters (R136, R138, R200). -/
def workingRow (wfmt : Nat) (ws : List FVal) : List Byte :=
  match Fmt.ofCode wfmt with
  | none => []
  | some f =>
    if f.isMx then
      let bl := (List.range (ceilDiv ws.length 32)).map fun b => mxBlock f (fun _ => .rne) ((ws.drop (32 * b)).take 32)
      packElems f.bits ((bl.map fun b => b.2.map (·.1)).flatten) ++ bl.map fun b => BitVec.ofNat 8 b.1
    else packElems f.bits (ws.map fun w => (f.narrow .rne w).1)

/-- Base of a group of a shard on a Cellar (R246). -/
def UpdGroup.base (g : UpdGroup) (n : Nat) (sh : Shard) : Nat := if g.cave then sh.cbase else (sh.hbase[n]?).getD 0

/-- Bytes that reach the backing store at once (R256). -/
def State.putThrough (s : State) (a : Nat) (bs : List Byte) : State :=
  { s with mem := (s.mem.write a bs).writeBack a bs.length }

/-- Bytes that an update unit writes for a tensor: lines out of its reach are left (R163), and what an undefined case has reached is free (R199, R204, R275). DEDUCED, safe (log 43). -/
def State.unitPut (s : State) (t a : Nat) (bs : List Byte) : State :=
  if s.access .unit a bs.length ≠ stOk then s
  else if s.job.wild.contains t then (s.putThrough a (freeBytes s.free bs.length)).drawn bs.length
  else s.putThrough a bs

/-- A group header's field. -/
def State.header (s : State) (a o n : Nat) : Nat := s.mem.le (a + o) n

/-- A tensor as its update sees it: descriptor, hyperparameters, gradient format, SCALE_EXP, step, Cellar. -/
structure UpdCtx where
  d : TDesc
  h : Hyp
  src : Nat
  gfmt : Nat
  scale : Nat
  step : Nat
  n : CelId

/-- The context of a run. -/
def State.updCtx (s : State) (n : CelId) (r : UpdRun) : UpdCtx :=
  { d := s.tdesc r.entry.table, h := s.hyp r.entry.table, src := r.entry.src, gfmt := r.entry.gfmt, scale := r.scale, step := r.step, n := n }

/-- Bytes of a gradient row. -/
def UpdCtx.gradBytes (c : UpdCtx) : Nat := c.d.dim * (if c.src = 1 && c.gfmt = 1 then 2 else 4)

/-- Reading for the unit; none when the memory does not deliver (R254). DEDUCED, unsafe (log 84). -/
def State.unitBytes (s : State) (a n : Nat) : Option (List Byte) := if s.readStatus .unit a n = stOk then some (s.mem.read a n) else none

/-- g of a row (R251). -/
def State.rowGrad (s : State) (c : UpdCtx) (r : UpdRow) : Option (List W32) :=
  (s.unitBytes r.grad c.gradBytes).map fun bs => (decodeRow (if c.src = 1 then c.gfmt else 0) c.d.dim bs).map (c.h.grad c.scale)

/-- Masters and state words of a row of a group. -/
def State.rowMaster (s : State) (c : UpdCtx) (base : Nat) (r : UpdRow) : Option (List FVal) :=
  (s.unitBytes (c.d.masterAddr base r.j) (5 * c.d.dim)).map (decodeMasters c.d.dim)
def stateAt (c : UpdCtx) (base : Nat) (r : UpdRow) : Nat := c.d.groupAddr base (r.j / 64) + 64 + r.j % 64 * c.d.spitch
def State.rowState (s : State) (c : UpdCtx) (base : Nat) (r : UpdRow) : Option (List W32) :=
  (s.unitBytes (stateAt c base r) c.d.spitch).map fun bs => decodeRow 0 (c.d.spitch / 4) bs

/-- A row skipped (R254): counted, its bit noted, the first of the tensor and step logged. Cause 0 non-finite, 1 uncorrectable. DEDUCED, unsafe (log 84). -/
def State.skipRow (s : State) (c : UpdCtx) (g : UpdGroup) (r : UpdRow) (cause : Nat) : State :=
  let u := s.upd[c.n]
  let u := if cause = 0 then { u with nonfin := u.nonfin + 1 } else { u with uncorr := u.uncorr + 1 }
  let s := { s with upd := s.upd.set c.n u }
  let key := (c.d.id, c.step)
  if s.job.skipLog.contains key then s
  else
    ({ s with job := { s.job with skipLog := s.job.skipLog ++ [key] } }).event (qpProc (s.servingQp c.n.val)) 6 1
      [c.d.id, c.step, c.d.rowOf g.shard r.q, cause]

/-- What a sweep of a row gives: skipped with a cause, or the bytes to write with the words of its norms. -/
inductive RowOut where
  | skip (cause : Nat)
  | put (ws : List (Nat × List Byte)) (w r : List FVal)

/-- Sweep 1 of a row (R252, R254, R255). -/
def State.sweep1Row (s : State) (c : UpdCtx) (base : Nat) (r : UpdRow) : RowOut :=
  match s.rowGrad c r, s.rowState c base r, s.rowMaster c base r with
  | some g, some st, some w =>
    if g.any fun x => !(f32 x).isFinite then .skip 0
    else
      let st' := nextState c.d.opt c.h g w st
      if st'.any fun x => !(f32 x).isFinite then .skip 0
      else
        .put [(stateAt c base r, rowBytesOf st')] w
          (if c.d.opt = 7 then (lambDir c.h (c.h.count c.step) w st').map f32 else [])
  | _, _, _ => .skip 1

/-- Sweep 2 of a row (R251, R254, R255). -/
def State.sweep2Row (s : State) (c : UpdCtx) (sh : Shard) (base : Nat) (phi : Option W32) (r : UpdRow) : RowOut :=
  match s.rowGrad c r, (if c.d.opt = 1 then some [] else s.rowState c base r), s.rowMaster c base r with
  | some g, some st, some w =>
    if g.any fun x => !(f32 x).isFinite then .skip 0
    else
      let dl := increment c.d.opt c.h (c.h.count c.step) g w st phi
      let codes := (w.zip dl).map fun x => (xf40.narrow .rne (x.1.add (f32 x.2))).1
      let ws := codes.map fun k => xf40.decode k
      if ws.any fun x => !x.isFinite then .skip 0
      else .put [(c.d.masterAddr base r.j, encodeMasters codes), (c.d.rowAddr sh r.q, workingRow c.d.wfmt ws)] [] []
  | _, _, _ => .skip 1

/-- Shard of a group. -/
def State.groupShard (s : State) (c : UpdCtx) (g : UpdGroup) : Shard := s.mem.shard c.d g.shard

/-- Address of a group's header. -/
def State.headerAt (s : State) (c : UpdCtx) (g : UpdGroup) : Nat := c.d.groupAddr (g.base c.n.val (s.groupShard c g)) g.k

/-- Key of a group in the dirty bitmaps (R474). -/
def UpdCtx.key (c : UpdCtx) (g : UpdGroup) : GroupKey := ⟨c.d.id, g.shard, if g.cave then 0 else c.n.val, g.cave, g.k⟩

/-- A group marked in the collecting bitmap (R256, R474). -/
def State.markDirty (s : State) (k : GroupKey) : State :=
  if s.job.dirty.contains k then s else { s with job := { s.job with dirty := s.job.dirty ++ [k] } }

/-- NONFIN of a group as a sweep finds it: the bits of this step's other rows stand, those of an earlier step and of the rows to be swept do not (R248). -/
def State.skipMask (s : State) (hd step at' : Nat) (g : UpdGroup) : Nat :=
  let old := if s.header hd at' 4 = step % 2 ^ 32 then s.header hd 16 8 else 0
  g.rows.foldl (fun m r => if bit m (r.j % 64) then m - 2 ^ (r.j % 64) else m) old

/-- Sweep 1 of a group: new state, then MTAG and MSTEP (R255); the w² and r² of R253 are handed back. DEDUCED, unsafe (log 84). -/
def State.sweep1 (s : State) (c : UpdCtx) (g : UpdGroup) : State × List FVal × List FVal :=
  let base := g.base c.n.val (s.groupShard c g)
  let hd := c.d.groupAddr base g.k
  let go := g.rows.foldl (fun (a : State × Nat × List FVal × List FVal) r =>
    let (s, mask, ws, rs) := a
    if c.d.opt = 1 then a
    else
      match s.sweep1Row c base r with
      | .skip k => (s.skipRow c g r k, mask ||| 2 ^ (r.j % 64), ws, rs)
      | .put xs w x => (xs.foldl (fun s p => s.unitPut c.d.id p.1 p.2) s, mask, ws ++ w, rs ++ x)) (s, s.skipMask hd c.step 8 g, [], [])
  let (s, mask, ws, rs) := go
  let s := (s.unitPut c.d.id (hd + 16) (toLe 8 (if c.d.opt = 1 then s.header hd 16 8 else mask))).unitPut c.d.id hd (toLe 4 (s.header hd 0 4 + 1))
  (s.unitPut c.d.id (hd + 8) (toLe 4 c.step), ws, rs)

/-- Sweep 2 of a group: masters and working rows, then WTAG and WSTEP; DRIFT is cleared, and a row written sets the group's dirty bit (R255, R256,
R269). DEDUCED, unsafe (log 84). -/
def State.sweep2 (s : State) (c : UpdCtx) (g : UpdGroup) (phi : Option W32) : State :=
  let sh := s.groupShard c g
  let base := g.base c.n.val sh
  let hd := c.d.groupAddr base g.k
  let mask := if c.d.opt = 1 then s.skipMask hd c.step 12 g else s.header hd 16 8
  let go := g.rows.foldl (fun (a : State × Nat) r =>
    let (s, mask) := a
    if bit mask (r.j % 64) then a
    else
      match s.sweep2Row c sh base phi r with
      | .skip k => (s.skipRow c g r k, mask ||| 2 ^ (r.j % 64))
      | .put xs _ _ =>
        let s := (xs.foldl (fun s p => s.unitPut c.d.id p.1 p.2) s).markDirty (c.key g)
        let u := s.upd[c.n]
        ({ s with upd := s.upd.set c.n { u with elems := u.elems + BitVec.ofNat 64 c.d.dim } }, mask)) (s, mask)
  let (s, mask) := go
  let s := (s.unitPut c.d.id (hd + 16) (toLe 8 mask)).unitPut c.d.id (hd + 24) (toLe 1 (s.header hd 24 1 % 2))
  (s.unitPut c.d.id (hd + 4) (toLe 4 (s.header hd 4 4 + 1))).unitPut c.d.id (hd + 12) (toLe 4 c.step)

/-- Groups in increasing order of base and number, rows of each in order of their slots. -/
def groupsOf (rows : List (Nat × Bool × Nat × UpdRow)) : List UpdGroup :=
  let keys := (rows.map fun r => (r.1, r.2.1, r.2.2.2.j / 64)).eraseDups
  let le := fun (a b : Nat × Bool × Nat) => decide (a.1 < b.1) || (a.1 = b.1 && decide (a.2.2 ≤ b.2.2))
  let ins := fun (x : Nat × Bool × Nat) (l : List (Nat × Bool × Nat)) => l.filter (fun y => !le x y) ++ x :: l.filter (fun y => le x y)
  (keys.foldr ins []).map fun k =>
    let mine := rows.filter fun r => r.1 = k.1 && r.2.1 = k.2.1 && r.2.2.2.j / 64 = k.2.2
    { shard := (mine.head?.map (·.2.2.1)).getD 0, cave := k.2.1, k := k.2.2,
      rows := (mine.map (·.2.2.2)).foldr (fun x l => l.filter (fun y => decide (y.j < x.j)) ++ x :: l.filter (fun y => decide (x.j < y.j))) [] }

/-- A row placed: base, whether cold, shard, slot (R203, R246). -/
def State.placeRow (s : State) (d : TDesc) (shard q grad : Nat) : Nat × Bool × Nat × UpdRow :=
  let b := d.baseOf (s.mem.shard d shard) q
  (b.1, decide (d.hotRows ≤ q), shard, ⟨b.2, q, grad⟩)

/-- The rows of a dense tensor that Cellar `n` holds; the gradient of the row with local index q lies at place q of the dense
buffer (R245, R246). DEDUCED, unsafe (log 84). -/
def State.denseRows (s : State) (d : TDesc) (n : Nat) (gbase pitch : Nat) : List (Nat × Bool × Nat × UpdRow) :=
  ((s.mem.shardsOn d s.fab.faddr.toNat).map fun p =>
    ((List.range (d.shardRows p.1)).filter fun q => (d.home q).1 = n).map fun q => s.placeRow d p.1 q (gbase + q * pitch)).flatten

/-- The rows of a table with a live key in the bank of a step (R265). A key names no shard: it is the first one here. DEDUCED, unsafe (log 84). -/
def State.keyRows (s : State) (d : TDesc) (n : CelId) (step : Nat) : List (Nat × Bool × Nat × UpdRow) :=
  let p := s.press[n]
  let b := bankOf step
  let shard := ((s.mem.shardsOn d s.fab.faddr.toNat).head?.map (·.1)).getD 0
  (p.banks[b].keys.filter fun k => k.table = d.id).map fun k => s.placeRow d shard k.q (p.rowAt b k)

/-- The groups that the update of an entry touches on a Cellar, by the retained gradient (R265, R267). -/
def State.entryGroups (s : State) (n : CelId) (e : UpdEntry) (step : Nat) : List UpdGroup :=
  let d := s.tdesc e.table
  groupsOf (if e.src = 1 then s.denseRows d n.val e.gbase (d.dim * (if e.gfmt = 1 then 2 else 4)) else s.keyRows d n step)

/-- A worklist entry: q, TABLE_ID, whether the row lies in the spill table, SEG (R265). DESIGN CHOICE, unsafe (log 114). -/
def workBytes (k : GKey) : List Byte := toLe 5 k.q ++ toLe 2 k.table ++ toLe 1 (bitAt k.cave 0) ++ toLe 4 k.seg ++ toLe 4 0

/-- The live keys of a sealed bank as the worklist orders them: by table, shard base and group (R265). -/
def State.sortedKeys (s : State) (n : CelId) (step : Nat) : List GKey :=
  let p := s.press[n]
  let ks := p.banks[bankOf step].keys
  let ts := (ks.map (·.table)).foldr (fun t l => if l.contains t then l else insertNat t l) []
  (ts.map fun t =>
    let d := s.tdesc t
    let shard := ((s.mem.shardsOn d s.fab.faddr.toNat).head?.map (·.1)).getD 0
    let mine := ks.filter fun k => k.table = t
    let at' := fun (k : GKey) => s.placeRow d shard k.q 0
    let le := fun (a b : GKey) =>
      let (x, y) := (at' a, at' b)
      decide (x.1 < y.1) || (x.1 = y.1 && decide (x.2.2.2.j ≤ y.2.2.2.j))
    mine.foldr (fun x l => l.filter (fun y => !le x y) ++ x :: l.filter (fun y => le x y)) []).flatten

/-- The groups of a table in the worklist, in its order (R265). -/
def State.listGroups (s : State) (n : CelId) (t step : Nat) : List UpdGroup :=
  let d := s.tdesc t
  let p := s.press[n]
  let u := s.upd[n]
  let shard := ((s.mem.shardsOn d s.fab.faddr.toNat).head?.map (·.1)).getD 0
  groupsOf ((List.range u.work).filterMap fun i =>
    let e := s.mem.read (u.workBase + 16 * i) 16
    if fieldLe e 5 2 ≠ t then none
    else some (s.placeRow d shard (fieldLe e 0 5) ((p.part (bankOf step) (fieldLe e 7 1 ≠ 0)).heap + 64 * fieldLe e 8 4)))

/-- The groups that a run of an entry sweeps, in order. -/
def State.runGroups (s : State) (n : CelId) (e : UpdEntry) (step : Nat) : List UpdGroup :=
  if e.src = 1 then s.entryGroups n e step else s.listGroups n e.table step

/-- Fields of a journal record (R261). -/
def State.putJournal (s : State) (t o : Nat) (bs : List Byte) : State := s.putThrough (s.journalAt t + o) bs

/-- The record at the start of a tensor's update, with the copy of HPARAM (R250, R261). -/
def State.openJournal (s : State) (e : UpdEntry) (step scale : Nat) : State :=
  let d := s.tdesc e.table
  s.putJournal e.table 0 (toLe 2 e.table ++ toLe 1 1 ++ toLe 1 e.src ++ toLe 4 step ++ toLe 1 scale ++ toLe 7 0 ++ toLe 4 0 ++ toLe 4 0 ++
    toLe 8 e.gbase ++ List.replicate 32 0 ++ s.mem.read d.hparam 64)

/-- Tensors the update list has retained on the ready list and not committed. -/
def State.openTensor (s : State) (t : Nat) : Bool := s.job.ready.any (fun e => e.table = t) && !s.job.committed.contains t

/-- Whether a restart has left a tensor's update unfinished: it is not on the ready list of a running step, which would finish it (R267). -/
def State.interrupted (s : State) : Bool := s.job.upds.any fun u => s.updating u.table && !s.job.ready.any (·.table = u.table)

/-- Whether a tensor's shard on a Cellar carries a lease (R260, R330). -/
def State.leased (s : State) (n : CelId) (t : Nat) : Bool := s.collCel[n].leases.any fun l => l.table = t

/-- The next ready tensor of a Cellar: highest PRIO, then earliest readiness (R260). -/
def State.nextTensor (s : State) (n : CelId) : Option UpdEntry :=
  let u := s.upd[n]
  let ok := fun (e : UpdEntry) =>
    !s.job.doneCel.contains (e.table, n.val) && !s.leased n e.table && (e.src = 1 || u.workReady) &&
    !(s.updating e.table && decide (s.journalStep e.table ≠ s.job.step.toNat % 2 ^ 32))
  (s.job.ready.filter ok).foldl (fun (a : Option UpdEntry) e =>
    match a with
    | none => some e
    | some x => if x.prio < e.prio then some e else some x) none

/-- The commit of the step's update on the module (R262): banks are released, dense buffers are free, and the step-end barrier may follow (R241, R328). -/
def State.commitStep (s : State) : State :=
  if s.job.phase = 4 && s.job.ready.all fun e => s.job.committed.contains e.table then
    let s := s.clearBank (bankOf s.job.step.toNat)
    { s with job := { s.job with phase := 5, ready := [] }, upd := s.upd.map fun u => { u with workReady := false, work := 0 } }
  else s

/-- A Cellar has finished a tensor: CELDONE, and with the fourth bit STATE 3 (R261, R262). -/
def State.finishTensor (s : State) (n : CelId) (t : Nat) : State :=
  let done := s.header (s.journalAt t) 9 1 % 16 ||| 2 ^ n.val
  let s := s.putJournal t 9 (toLe 1 done)
  let s := { s with upd := s.upd.set n { s.upd[n] with run := none },
                    job := { s.job with doneCel := s.job.doneCel ++ [(t, n.val)] } }
  if done = 15 then
    let s := s.putJournal t 2 (toLe 1 3)
    ({ s with job := { s.job with committed := s.job.committed ++ [t] } }).commitStep
  else s

/-- Whether a run's trust scope is the module (R253). -/
def State.wideTrust (s : State) (t : Nat) : Bool := (s.tdesc t).opt = 7 && (s.hyp t).trust

/-- The norms of a module-wide scope, once every Cellar has ended sweep 1 (R253, R255). -/
def State.formNorms (s : State) (t : Nat) : State :=
  let runs := s.upd.toList.filterMap fun u => (u.run.filter fun r => r.entry.table = t && r.done1 = r.groups.length)
  if runs.length = 4 then
    let w2 := inputReduce fadd (runs.map (·.w2))
    let r2 := inputReduce fadd (runs.map (·.r2))
    (s.putJournal t 0x10 (toLe 4 w2.toNat ++ toLe 4 r2.toNat)).putJournal t 2 (toLe 1 2)
  else s

/-- The ratio of a module-wide scope, once its norms are final. -/
def State.widePhi (s : State) (t : Nat) : Option W32 :=
  if s.wideTrust t then
    let j := s.journalAt t
    some (trustRatio (s.hyp t) (BitVec.ofNat 32 (s.header j 0x10 4)) (BitVec.ofNat 32 (s.header j 0x14 4)))
  else none

/-- What recovery makes of a group's tags (R267, R268). -/
inductive TagCase where
  | sweep2 | done | both | suspect
  deriving DecidableEq, Repr

def State.tagCase (s : State) (hd step : Nat) : TagCase :=
  let m := s.header hd 0 4
  let w := s.header hd 4 4
  if m = (w + 1) % 2 ^ 32 && s.header hd 8 4 = step % 2 ^ 32 then .sweep2
  else if m = w && s.header hd 12 4 = step % 2 ^ 32 then .done
  else if m = w then .both
  else .suspect

/-- A group marked SUSPECT, to be restored from a checkpoint (R268). -/
def State.suspectGroup (s : State) (c : UpdCtx) (g : UpdGroup) : State :=
  let hd := s.headerAt c g
  let s := s.unitPut c.d.id (hd + 24) (toLe 1 (s.header hd 24 1 ||| 1))
  let u := s.upd[c.n]
  ({ s with upd := s.upd.set c.n { u with suspect := u.suspect + 1 },
            job := { s.job with suspects := s.job.suspects ++ [c.key g] } }).event (qpProc (s.servingQp c.n.val)) 6 3 [c.d.id, g.k, c.step]

/-- Recovery of a group (R267): sweeps that its tags still need. `second` tells that sweep 2 may run. -/
def State.recoverGroup (s : State) (c : UpdCtx) (phi : Option W32) (second : Bool) (g : UpdGroup) : State :=
  let hd := s.headerAt c g
  let count := fun (s : State) => { s with upd := s.upd.set c.n { s.upd[c.n] with recover := s.upd[c.n].recover + 1 } }
  match s.tagCase hd c.step with
  | .done => s
  | .suspect => if second then s.suspectGroup c g else s
  | .sweep2 => if second then count (s.sweep2 c g phi) else s
  | .both =>
    let s := (s.sweep1 c g).1
    if second then count (s.sweep2 c g phi) else s

/-- The entry that a journal record stands for (R258, R261). -/
def State.journalEntry (s : State) (t : Nat) : UpdEntry :=
  let us := s.job.upds
  let e := (us.find? fun e => e.table = t).getD ⟨t, 0, 0, 0, 0, 0, 0⟩
  { e with src := s.header (s.journalAt t) 3 1, gbase := s.header (s.journalAt t) 0x18 6 }

/-- The context of a recovery from a journal record. -/
def State.recoverCtx (s : State) (n : CelId) (e : UpdEntry) : UpdCtx :=
  { d := s.tdesc e.table, h := s.hyp e.table, src := e.src, gfmt := e.gfmt, scale := s.header (s.journalAt e.table) 8 1,
    step := s.journalStep e.table, n := n }

/-- Norms of a module-wide scope in recovery, over all groups from their new state and old master (R267). -/
def State.recoverNorms (s : State) (e : UpdEntry) : State :=
  let all := (List.finRange 4).map fun n =>
    let c := s.recoverCtx n e
    ((s.entryGroups n e c.step).map fun g =>
      let base := g.base n.val (s.groupShard c g)
      let mask := s.header (c.d.groupAddr base g.k) 16 8
      (g.rows.filter fun r => !bit mask (r.j % 64)).filterMap fun r =>
        match s.rowState c base r, s.rowMaster c base r with
        | some st, some w => some (w, (lambDir c.h (c.h.count c.step) w st).map f32)
        | _, _ => none).flatten
  let rows := all.flatten
  let w2 := sumSq ((rows.map (·.1)).flatten)
  let r2 := sumSq ((rows.map (·.2)).flatten)
  (s.putJournal e.table 0x10 (toLe 4 w2.toNat ++ toLe 4 r2.toNat)).putJournal e.table 2 (toLe 1 2)

/-- Whether every group of a tensor on every Cellar has sweep 1 behind it. -/
def State.allSwept1 (s : State) (e : UpdEntry) : Bool :=
  (List.finRange 4).all fun n =>
    let c := s.recoverCtx n e
    (s.entryGroups n e c.step).all fun g => s.tagCase (s.headerAt c g) c.step ≠ .both

/-- Recovery of one tensor on one Cellar (R267). DEDUCED, unsafe (log 85). -/
def State.recoverTensor (s : State) (n : CelId) (t : Nat) : State :=
  if !s.updating t || bit (s.header (s.journalAt t) 9 1) n.val then s
  else
    let e := s.journalEntry t
    let c := s.recoverCtx n e
    let gs := s.entryGroups n e c.step
    let first := s.wideTrust t && s.journalState t = 1
    let s := if first then gs.foldl (fun s g => s.recoverGroup c none false g) s else s
    let s := if first && s.allSwept1 e then s.recoverNorms e else s
    if s.wideTrust t && s.journalState t = 1 then s
    else
      let phi := s.widePhi t
      (gs.foldl (fun s g => s.recoverGroup c phi true g) s).finishTensor n t

/-- The groups of a tensor on a Cellar in scrubbing order (R269). -/
def State.scrubGroups (s : State) (n : CelId) (t : Nat) : List UpdGroup := groupsOf (s.denseRows (s.tdesc t) n.val 0 0)

/-- Tensors that the scrub visits. -/
def State.scrubTables (s : State) : List Nat :=
  match s.job.cfg with
  | none => []
  | some c => (c.tables.map fun d => (TDesc.mk d).id).filter fun t => (s.tdesc t).opt ≠ 0 && (s.tdesc t).dim ≠ 0

/-- Elements of a working row that differ from the conversion of its master. -/
def mismatches (wfmt dim : Nat) (a b : List Byte) : Nat :=
  match Fmt.ofCode wfmt with
  | none => 0
  | some f =>
    let x := unpackElems f.bits dim a
    let y := unpackElems f.bits dim b
    let sc := fun (l : List Byte) (i : Nat) => if f.isMx then (l.drop (f.rowBytes dim))[i / 32]? else none
    ((List.range dim).filter fun i => x[i]? ≠ y[i]? || sc a i ≠ sc b i).length

/-- The scrub of one row: mismatched elements, the row rewritten whole if there are any (R269). DEDUCED, unsafe (log 85). -/
def State.scrubRow (s : State) (c : UpdCtx) (sh : Shard) (base : Nat) (r : UpdRow) : Nat × State :=
  match s.rowMaster c base r with
  | none => (0, s)
  | some w =>
    let a := c.d.rowAddr sh r.q
    let want := workingRow c.d.wfmt w
    let k := mismatches c.d.wfmt c.d.dim (s.mem.read a c.d.rowBytes) want
    (k, if k = 0 then s else s.unitPut c.d.id a want)

/-- The scrub of one group (R269). -/
def State.scrubGroup (s : State) (n : CelId) (t : Nat) (g : UpdGroup) : Nat × State :=
  let c : UpdCtx := ⟨s.tdesc t, s.hyp t, 0, 0, 0, 0, n⟩
  let sh := s.groupShard c g
  let base := g.base n.val sh
  let hd := c.d.groupAddr base g.k
  let (k, s) := g.rows.foldl (fun (a : Nat × State) r =>
    let (m, s) := a.2.scrubRow c sh base r
    (a.1 + m, s)) (0, s)
  let u := s.upd[n]
  let s := { s with upd := s.upd.set n { u with scrubs := u.scrubs + 1, drift := u.drift + BitVec.ofNat 64 k } }
  if k = 0 then (0, s)
  else
    let s := s.unitPut t (hd + 24) (toLe 1 (s.header hd 24 1 ||| 2))
    (k, (s.unitPut t (hd + 26) (toLe 2 (satAdd 16 (s.header hd 26 2) k))).markDirty (c.key g))

end Sys2Proof.Machine
end

