-- ==== Sys2Proof/Machine/MemOps.lean ====
section
/-! DEFINITION. Operations of the memory configuration and of memory errors (R167, R168, R173, R176, R466 to R469, R521). -/

namespace Sys2Proof.Machine

/-- The committed region of each GiB of the HBM range: its number and entry; none unmapped. -/
def gibRegions (t : Vector W64 16) : List (Option (W64 × Nat)) :=
  (List.range 2048).map fun g => t.toList.zipIdx.find? fun r => rgHolds r.1 (g * gibi)

/-- The ranges whose region or domain a commit changes, GiB by GiB (R168). -/
def changedGib (old new : Vector W64 16) (free : Nat) : List (Nat × Nat × Nat) :=
  (((gibRegions old).zip (gibRegions new)).zipIdx.filter fun x => x.1.1 ≠ x.1.2 && x.1.2.isSome).map fun x => (x.2 * gibi, gibi, free)

/-- Ways that become pinned: the lines in them are written back if dirty, and the pinned range is set to zero (R176). -/
def MemSt.repin (m : MemSt) (old new : W64) : MemSt :=
  (List.range 4).foldl (fun m n =>
    let k := bits old.toNat (4 * n + 3) (4 * n)
    let j := bits new.toNat (4 * n + 3) (4 * n)
    if k < j then
      let gone := (m.lines.filter fun x => decide (16 - j ≤ x.way) && (m.homeOf x.line).val = n).map (·.line)
      let m := gone.foldl MemSt.cleanLine m
      ({ m with lines := m.lines.filter fun x => !gone.contains x.line } : MemSt).zeroRange (pinBase + n * gibi + k * (112 * 0x100000)) ((j - k) * (112 * 0x100000))
    else m) m

/-- A commit of the memory configuration (R168, R193, R521); `job` tells that the job load makes it. DEDUCED, safe (log 86). -/
def State.commitMem (s : State) (job : Bool) : State :=
  let c := s.mem.cfg
  let st := commitStatus c.shadow c.pinShadow c.cap (s.jobLoaded && !job)
  if st ≠ 0 then { s with mem := { s.mem with cfg := { c with status := BitVec.ofNat 64 st } } }
  else
    let m := s.mem.repin c.pin c.pinShadow
    let un := changedGib c.table c.shadow s.free
    let cuts := un.foldl (fun us u => cutUndef us u.1 u.2.1) m.undef
    ({ s with mem := { m with undef := cuts ++ un, cfg := { c with table := c.shadow, pin := c.pinShadow, caveMask := c.caveShadow, status := 0 } } }).drawn 1

/-- The group of a tensor that holds an address: rows, masters or group record (R246). -/
def State.groupAt (s : State) (a : Nat) : Option GroupKey :=
  let tabs := ((s.job.cfg.map (·.tables)).getD []).map fun d => s.tdesc (TDesc.mk d).id
  let at' := fun (d : TDesc) (base slots : Nat) =>
    let inside := fun (lo pitch : Nat) => if lo ≤ a && a < lo + slots * pitch && 0 < pitch then some ((a - lo) / pitch) else none
    match inside base d.wpitch with
    | some j => some (j / 64)
    | none =>
      if d.opt = 0 then none
      else
        match inside (base + d.moff) (5 * d.dim) with
        | some j => some (j / 64)
        | none =>
          let lo := base + d.soff
          if lo ≤ a && a < lo + ceilDiv slots 64 * d.gpitch then some ((a - lo) / max 1 d.gpitch) else none
  (tabs.map fun d =>
    ((s.mem.shardsOn d s.fab.faddr.toNat).map fun p =>
      ((List.range 4).filterMap fun n =>
        if d.homesel = 0 || d.homesel = n + 1 then
          (at' d ((p.2.hbase[n]?).getD 0) (d.hotSlots p.1)).map fun k => (⟨d.id, p.1, n, false, k⟩ : GroupKey)
        else none) ++
      ((at' d p.2.cbase (d.coldSlots p.1)).map fun k => (⟨d.id, p.1, 0, true, k⟩ : GroupKey)).toList).flatten).flatten.head?

/-- A pseudo-channel marked for retirement (R469). Cause 0 UNCORR, 1 corrected rate. DEDUCED, safe (log 86). -/
def State.markChannel (s : State) (pc cause : Nat) : State :=
  if s.ras.pcMark.getLsbD pc then s
  else
    let s := { s with ras := { s.ras with pcMark := s.ras.pcMark ||| BitVec.ofNat 1024 (2 ^ pc) } }
    ((s.event procMP 0 0x10 [pc, cause]).mgmtEvent (Config.order s.free 0 65536) pc).drawn 1

/-- What an uncorrectable read causes by the kind of structure that holds it (R468). -/
def State.uncorrEffect (s : State) (kind a : Nat) : State :=
  match kind with
  | 0 => { s with fw := { s.fw with hbmBad := s.fw.hbmBad ++ [a] } }
  | 1 => ({ s with job := { s.job with uncorrRuntime := true } }).failStep 468
  | 3 => s.failStep 468
  | 5 =>
    match s.groupAt a with
    | some k => { s with job := { s.job with suspects := s.job.suspects ++ [k] } }
    | none => s
  | _ => s

/-- Region kind whose rule a cave address takes: parameters where a tensor's cold part lies, gradient table in a spill area, else
general (R468, R473). -/
def State.caveKind (s : State) (a : Nat) : Nat :=
  if (s.groupAt a).isSome then 5
  else if (List.finRange 4).any fun n =>
    let x := s.press[n].spill.toNat
    decide (bits x 47 0 ≤ a) && decide (a < bits x 47 0 + bits x 63 48 * gibi) then 2
  else 6

/-- A core fault that does not itself fail the step: STORE_ECC (R79, R466). DEDUCED, safe (log 43). -/
def State.eccFault (s : State) (c : CoreId) : State :=
  let s := s.updCore c fun x =>
    { x with ctl := { x.ctl with fault := true, faultCode := fStoreEcc, waiting := false, halting := false } }
  let x := s.cores[c]
  s.logRec (qpProc (s.dispatchQp (vatOf c))) 0x0006 [fStoreEcc, x.regs.pc, x.seg.id.toNat, x.ctl.vcid.toNat, x.cmb.entries.length]

end Sys2Proof.Machine
end

