-- ==== Sys2Proof/Machine/CkptOps.lean ====
section
/-! DEFINITION. Where firmware keeps its tables, the loss scale and telemetry of a step, and checkpoints (R147 to R160, R471 to
R485). -/

namespace Sys2Proof.Machine

/-- Base of the first runtime region (R193). DESIGN CHOICE, unsafe (log 76). -/
def MemCfg.runtimeBase (c : MemCfg) : Nat :=
  ((c.table.toList.find? fun r => rgValid r && rgKind r = 1).map fun r => rgBase r * gibi).getD (16 * gibi)

/-- Firmware's places in the runtime region (the model's): the log ring at its start, telemetry buffers, communicator table,
journal records, descriptor area, move lists, barrier operands, staging area, worklists. DESIGN CHOICE, unsafe (log 76). -/
def rtTel (i : Nat) : Nat := 0x8000000 + 0x400000 * i
def rtComm : Nat := 0x9000000
def rtBarrier : Nat := 0x9100000
def rtJournal : Nat := 0xa000000
def rtDesc : Nat := 0xb000000
def rtMoves : Nat := 0x10000000
def rtPerm : Nat := 0x100000000
def rtWork (n : Nat) : Nat := 0x800000000 + 0x80000000 * n

/-- The scale state at the end of a completed step, and BOUND (R150, R153). -/
def ScaleSt.endStep (x : ScaleSt) (govf : Bool) (ftz total : Nat) : ScaleSt × Bool :=
  if 0 < x.probe then
    let up := !govf && decide (0 < total) && decide (total < 1024 * ftz)
    ({ x with exp := if govf then x.exp - 1 else if up then min (x.exp + 1) 32 else x.exp, probe := x.probe - 1,
              hist := x.hist || x.probe = 1, clean := 0 },
     (govf && x.exp = 0) || (up && x.exp = 32))
  else if govf then ({ x with exp := x.exp - 1, clean := 0 }, x.exp = 0)
  else if x.clean + 1 = x.up then ({ x with exp := min (x.exp + 1) 32, clean := 0 }, x.exp = 32)
  else ({ x with clean := x.clean + 1 }, false)

/-- The scale state after a failed attempt (R151). -/
def ScaleSt.failed (x : ScaleSt) (govf : Bool) : ScaleSt := if govf then { x with exp := x.exp - 1, clean := 0 } else x

/-- The scale state when its history is lost (R152). -/
def ScaleSt.forget (x : ScaleSt) : ScaleSt := { x with exp := 8, clean := 0, probe := 200, hist := false }

/-- A count in a saturating field of `k` bytes (R158). -/
def telSat (k n : Nat) : Nat := min n (2 ^ (8 * k) - 1)

/-- Whether a saturating field of an entry has saturated (R158, R160). -/
def TelEntry.saturated (e : TelEntry) : Bool :=
  e.sat || decide (e.accOvf ≠ telSat 4 e.accOvf) || decide (e.replays ≠ telSat 2 e.replays) || decide (e.shadowN ≠ telSat 2 e.shadowN) ||
  decide (e.shadowDis ≠ telSat 2 e.shadowDis)

/-- The telemetry record of a pair (R158). DEDUCED, unsafe (log 88). -/
def TelEntry.record (e : TelEntry) (promo step : Nat) (probe : Bool) : List Byte :=
  toLe 8 e.total ++ toLe 8 e.ovf ++ toLe 8 e.ftz ++ toLe 8 e.sub ++ toLe 8 e.nan ++ toLe 4 (telSat 4 e.accOvf) ++ toLe 2 (telSat 2 e.replays) ++
    toLe 2 (telSat 2 e.shadowN) ++ toLe 2 (telSat 2 e.shadowDis) ++ toLe 1 promo ++ toLe 1 (bitAt e.saturated 0 + bitAt probe 1) ++
    toLe 4 (step % 2 ^ 32) ++ toLe 8 0

/-- FTZ and TOTAL of the narrow conversions in backward layers (R150). -/
def State.backSums (s : State) : Nat × Nat :=
  let xs := s.job.telNow.filter fun e => s.layerPhase e.layer = 1 && (match Fmt.ofCode e.fmt with | some f => f.narrowFmt | none => false)
  (xs.foldl (fun a e => a + e.ftz) 0, xs.foldl (fun a e => a + e.total) 0)

/-- The promotions of a step (R156). DEDUCED, unsafe (log 87). -/
def State.promote (s : State) (p : ProcId) : State :=
  let ls := (s.job.telNow.map (·.layer)).eraseDups
  let lim := (s.job.cfg.map (·.promoMin)).getD 4
  ls.foldl (fun s l =>
    let n := (s.job.telNow.filter fun e => e.layer = l).foldl (fun a e => a + e.shadowDis) 0
    if lim ≤ n && s.layerPromo l < 3 then
      ({ s with job := { s.job with layers := Cells.set s.job.layers (l % 4096) (BitVec.ofNat 8 (s.layer l + 4)) } }).logRec p 0x0005
        [l, s.layerPromo l + 1, n]
    else s) s

/-- Counts of a step that is not to be kept leave the cores' buffers (R151, R483). -/
def State.dropCounts (s : State) : State :=
  { s with cores := s.cores.map fun (c : Core) => { c with num := { c.num with buf := [], held := [] } } }

/-- The records of the telemetry table that the step leaves, one for every layer and microbatch pair (R158). DEDUCED, unsafe (log 88). -/
def State.telRecords (s : State) : List (List Byte) :=
  (List.range 65536).map fun k =>
    ((s.job.telNow.find? fun e => e.isPair (k / 16) (k % 16)).getD (.zero (k / 16) (k % 16))).record (s.layerPromo (k / 16))
      s.job.step.toNat (decide (0 < s.job.scale.probe))

/-- The step's telemetry written to its buffer, and the buffers swapped (R158). DEDUCED, unsafe (log 88). -/
def State.swapTelemetry (s : State) : State :=
  let a := s.mem.cfg.runtimeBase + rtTel s.job.telCur
  { s with mem := s.mem.write a s.telRecords.flatten, hif := { s.hif with telBase := a }, job := { s.job with telNow := [], telCur := 1 - s.job.telCur } }

/-- Tables of the job. -/
def State.jobTables (s : State) : List TDesc := ((s.job.cfg.map (·.tables)).getD []).map fun d => s.tdesc (TDesc.mk d).id

/-- Base and slots of a shard's hot part on a Cellar, or of its cold part. -/
def TDesc.partOf (d : TDesc) (shard : Nat) (sh : Shard) (cel : Nat) (cave : Bool) : Nat × Nat :=
  if cave then (sh.cbase, d.coldSlots shard) else ((sh.hbase[cel]?).getD 0, d.hotSlots shard)

/-- Groups of a module in (table, shard, group) order (R471, R475). -/
def State.allGroups (s : State) : List GroupKey :=
  (s.jobTables.map fun d =>
    if d.dim = 0 then []
    else
      ((s.mem.shardsOn d s.fab.faddr.toNat).map fun p =>
        (([(0, false), (1, false), (2, false), (3, false), (0, true)].filter fun x => x.2 || d.homesel = 0 || d.homesel = x.1 + 1).map fun x =>
          (List.range (ceilDiv (d.partOf p.1 p.2 x.1 x.2).2 64)).map fun k => (⟨d.id, p.1, x.1, x.2, k⟩ : GroupKey)).flatten).flatten).flatten

/-- The addresses of a group's image: working rows, masters, group record (R246, R471). -/
def State.groupPlaces (s : State) (g : GroupKey) : List (Nat × Nat) :=
  let d := s.tdesc g.table
  let (base, slots) := d.partOf g.shard (s.mem.shard d g.shard) g.cel g.cave
  let n := min 64 (slots - 64 * g.k)
  (base + 64 * g.k * d.wpitch, n * d.wpitch) ::
    (if d.opt = 0 then [] else [(base + d.moff + 64 * g.k * 5 * d.dim, n * 5 * d.dim), (base + d.soff + g.k * d.gpitch, d.gpitch)])

/-- The image of a group as it stands. -/
def State.groupImage (s : State) (g : GroupKey) : GroupImg :=
  let bs := (s.groupPlaces g).map fun p => s.mem.read p.1 p.2
  ⟨g, (bs[0]?).getD [], (bs[1]?).getD [], (bs[2]?).getD []⟩

/-- A group rewritten from its image. -/
def State.putImage (s : State) (i : GroupImg) : State :=
  let ps := s.groupPlaces i.key
  let s := ((ps.map (·.1)).zip [i.rows, i.masters, i.record]).foldl (fun s p => s.putThrough p.1 p.2) s
  s.markDirty i.key

/-- Bytes of an entry of the delta log: header and body (R475). -/
def GroupImg.size (i : GroupImg) : Nat := 64 + i.rows.length + i.masters.length + i.record.length

/-- The latest image of a group at or before a step: in the complete deltas, else in the base (R483). -/
def RasSt.imageAt (r : RasSt) (g : GroupKey) (t : Nat) : Option GroupImg :=
  let ds := (r.deltas.filter fun d => d.ended && d.step ≤ t).reverse
  match (ds.filterMap fun d => d.imgs.find? fun i => i.key = g).head? with
  | some i => some i
  | none => r.base.find? fun i => i.key = g

/-- Whether a header is current: the higher (EPOCH, NEWEST); A first (R473, R485). DEDUCED, unsafe (log 52). -/
def RasSt.header (r : RasSt) : Option CaveHdr :=
  match r.hdrA, r.hdrB with
  | some a, some b =>
    let n := fun (h : CaveHdr) => match h.newest with | some k => k + 1 | none => 0
    if a.epoch < b.epoch || (a.epoch = b.epoch && n a < n b) then some b else some a
  | some a, none => some a
  | none, b => b

/-- A change of the header, into the copy that is not current (R473). -/
def State.putHeader (s : State) : State :=
  let r := s.ras
  if !(r.caveOn && r.caveOk) then s
  else
    let h : CaveHdr := ⟨r.epoch.toNat, r.newest, r.merged, s.job.state, r.scaleNew⟩
    let toB := r.hdrA.isSome && r.header = r.hdrA
    { s with ras := if toB then { r with hdrB := some h } else { r with hdrA := some h } }

/-- Coordinate list of the job's members that share every other axis with a module, in order on the axis. -/
def State.lineOf (s : State) (cfg : JobConfig) (m axis : Nat) : List Nat :=
  let same := cfg.members.filter fun x => (List.range 3).all fun a => a = axis || s.fab.coord x a = s.fab.coord m a
  same.foldr (fun x l => l.filter (fun y => decide (s.fab.coord y axis < s.fab.coord x axis)) ++ x :: l.filter (fun y => decide (s.fab.coord x axis < s.fab.coord y axis))) []

/-- The buddy of a module (R472). -/
def State.buddyOf (s : State) (m : Nat) : Option Nat :=
  match s.job.cfg with
  | none => none
  | some c =>
    if c.members.length ≤ 1 then none
    else
      let axis := if 1 < c.cuts.data then c.cuts.axisD else if 1 < c.cuts.pipe then c.cuts.axisP else c.cuts.axisM
      let l := s.lineOf c m axis
      let i := l.idxOf m
      (l[(i + 1) % max 1 l.length]?).filter fun x => x ≠ m

/-- The buddy reserve: base and bytes (R167, R472). -/
def State.reserve (s : State) : Nat × Nat :=
  ((s.mem.cfg.table.toList.find? fun r => rgValid r && rgKind r = 4).map fun r => (rgBase r * gibi, rgSize r * gibi)).getD (0, 0)

/-- The buddy set without and with dense images (R471, R472). -/
def State.buddySet (s : State) : List Byte × List Byte :=
  let x := s.job.scale
  let c := s.job.cfg
  let small := toLe 2 x.clean ++ toLe 2 x.up ++ toLe 1 x.exp ++ toLe 1 x.probe ++ toLe 1 (bitAt x.hist 0) ++ toLe 1 0 ++
    ((List.range 4096).map fun l => toLe 4 (s.layer l)).flatten ++
    ((s.jobTables).map (·.raw)).flatten ++ (((c.map (·.shardTabs)).getD []).map (·.2)).flatten ++
    ((c.map (·.updates)).getD []).flatten
  let dense := s.job.upds.filter fun e => e.src = 1
  let imgs := (s.allGroups.filter fun g => dense.any fun e => e.table = g.table).map s.groupImage
  (small, (imgs.map fun i => i.rows ++ i.masters ++ i.record).flatten)

/-- A CKPT packet (R301, R476). -/
def State.sendCkpt (s : State) (dst tag : Nat) (b : CkptBody) : State := s.inject { s.packet dst 0 (.ckpt b) with tag := tag, map := 0 }

/-- The buddy set of a step sent to the buddy's slot, the header last; tag 1 marks the header (R472, R475). DESIGN CHOICE, unsafe (log 89). -/
def State.sendBuddy (s : State) (step : Nat) : State :=
  match s.buddyOf s.fab.faddr.toNat with
  | none => s
  | some b =>
    let half := s.reserve.2 / 2
    let (small, dense) := s.buddySet
    let fits := decide (64 + small.length + dense.length ≤ half)
    let body := if fits then small ++ dense else small
    let off := step % 2 * half
    let s := match s.ras.buddyDue with | some k => s.event (qpProc (s.servingQp 0)) 10 2 [k, b] | none => s
    let s := { s with ras := { s.ras with denseCave := !fits, buddyOk := false, buddyDue := some step } }
    let s := (List.range (ceilDiv body.length 4096)).foldl (fun s i =>
      s.sendCkpt b 0 (.data (off + 64 + 4096 * i) ((body.drop (4096 * i)).take 4096))) s
    s.sendCkpt b 1 (.data off (toLe 4 s.fab.faddr.toNat ++ toLe 4 s.ras.epoch.toNat ++ toLe 8 step ++ toLe 8 body.length ++ toLe 4 (crc32c body) ++
      toLe 4 1 ++ List.replicate 32 0))

/-- The delta of a step, its groups as the step left them (R474, R475, R479). DESIGN CHOICE, unsafe (log 89). -/
def State.startDelta (s : State) (step : Nat) : State :=
  let keys := if s.ras.full then s.allGroups else s.allGroups.filter fun g => s.job.frozen.contains g
  let s := if s.ras.caveOn && s.ras.caveOk then
      { s with ras := { s.ras with deltas := s.ras.deltas ++ [⟨step, s.ras.epoch.toNat, keys.map s.groupImage, s.job.scale, false⟩], inflight := true } }
    else { s with ras := { s.ras with full := false } }
  s.sendBuddy step

/-- Bytes of the base's part of the area (R473). -/
def State.baseBytes (s : State) : Nat := roundUp (s.allGroups.foldl (fun a g => a + 64 + (s.groupPlaces g).foldl (fun b p => b + p.2) 0) 0) gibi

/-- A delta complete (R475, R479): END, NEWEST, header, record. DESIGN CHOICE, unsafe (log 89). -/
def State.endDelta (s : State) (d : Delta) : State :=
  let bytes := d.imgs.foldl (fun a i => a + i.size) 0
  let r := s.ras
  let r := if r.full && r.newest.isNone && r.base.isEmpty then
      { r with base := d.imgs, deltas := r.deltas.filter (fun x => x.step ≠ d.step), merged := d.step }
    else { r with deltas := r.deltas.map fun x => if x.step = d.step then { x with ended := true } else x }
  let s := ({ s with ras := { r with inflight := false, full := false, newest := some d.step, scaleNew := d.scale } }).putHeader
  s.event (qpProc (s.servingQp 0)) 10 1 [d.step, bytes, 0]

/-- A group restored at a step boundary (R484). -/
def State.restoreGroup (s : State) (g : GroupKey) : State :=
  match s.ras.newest with
  | none => s
  | some t =>
    if !(s.ras.caveOn && s.ras.caveOk) then s
    else
      match s.ras.imageAt g t with
      | none => s
      | some i =>
        let s := s.putImage i
        ({ s with ras := { s.ras with restores := s.ras.restores + 1 } }).event (qpProc (s.servingQp 0)) 10 4 [g.table, g.k, t]

/-- The groups that wait for it (R484). -/
def State.restoreSuspects (s : State) : State :=
  let ks := s.job.suspects.eraseDups
  ks.foldl (fun s g => s.restoreGroup g) { s with job := { s.job with suspects := [] } }

/-- This module's recovery record: the scale state at NEWEST, or the live one where the cave holds no intact copy (R473, R476). DESIGN CHOICE, unsafe (log 89). -/
def State.recoveryRecord (s : State) : CkptRec :=
  let x := if s.ras.caveOn && s.ras.caveOk && s.ras.newest.isSome then s.ras.scaleNew else s.job.scale
  { newest := s.ras.newest, epoch := s.ras.epoch.toNat, hbm := !s.ras.hbmLost, cave := s.ras.caveOn && s.ras.caveOk, hist := x.hist, exp := x.exp,
    probe := x.probe, clean := x.clean }

/-- Clearing the journal records of the job's tensors (R272, R338, R483). -/
def State.clearJournals (s : State) : State :=
  s.jobTables.foldl (fun s d => s.putThrough (s.journalAt d.id) (List.replicate 128 0)) s

/-- The dense images that a buddy's slot of step T holds, where the slot is intact: owner, step, CRC and COMPLETE (R472, R485). DESIGN CHOICE, unsafe (log 89). -/
def State.buddyImages (s : State) (t : Nat) (slot : List Byte) : List GroupImg :=
  let f := fieldLe slot
  let n := f 16 8
  let body := (slot.drop 64).take n
  let small := s.buddySet.1.length
  if f 0 4 ≠ s.fab.faddr.toNat || f 8 8 ≠ t || f 28 4 ≠ 1 || f 24 4 ≠ crc32c body || n ≤ small then []
  else
    let dense := s.job.upds.filter fun e => e.src = 1
    ((s.allGroups.filter fun g => dense.any fun e => e.table = g.table).foldl (fun (a : List GroupImg × List Byte) g =>
      let sz := fun (i : Nat) => ((s.groupPlaces g)[i]?.map (·.2)).getD 0
      (a.1 ++ [⟨g, a.2.take (sz 0), (a.2.drop (sz 0)).take (sz 1), (a.2.drop (sz 0 + sz 1)).take (sz 2)⟩], a.2.drop (sz 0 + sz 1 + sz 2)))
      ([], body.drop small)).1

/-- The image of a group at step T: the cave's where that checkpoint is intact, else the buddy's of a dense group (R483, R485). -/
def State.restoreImage (s : State) (t : Nat) (buddy : List GroupImg) (g : GroupKey) : Option GroupImg :=
  ((if s.ras.caveOn && s.ras.caveOk then s.ras.imageAt g t else none)).or (buddy.find? fun i => i.key = g)

/-- What the slot of this module's buddy answers: the memory of another module, so free bytes, up to the length of a slot (R472, R483). DESIGN CHOICE, unsafe (log 89). -/
def State.buddySlot (s : State) : List Byte :=
  if (s.buddyOf s.fab.faddr.toNat).isSome then freeBytes s.free (s.reserve.2 / 2) else []

/-- The restore of a module to step T; `slot` is what its buddy's slot holds, which a module reads whose cave lacks an image (R483). DESIGN CHOICE, unsafe (log 89). -/
def State.restoreTo (s : State) (t : Nat) (scale : ScaleSt) (noCopy : Bool) (slot : List Byte) : State :=
  let r := s.ras
  let live := s.job.step.toNat
  let s :=
    if !r.hbmLost && !(r.caveOn && r.caveOk) then s.event (qpProc (s.servingQp 0)) 12 4 [r.epoch.toNat, live, t]
    else
      let buddy := if r.hbmLost then s.buddyImages t slot else []
      let marked := fun (g : GroupKey) =>
        r.hbmLost || (r.deltas.any fun d => decide (t < d.step) && d.imgs.any fun i => i.key = g) || s.job.frozen.contains g || s.job.dirty.contains g
      (s.allGroups.filter marked).foldl (fun s g => match s.restoreImage t buddy g with | some i => s.putImage i | none => s) s
  let undone := live - (t + 1)
  let r := s.ras
  let keep := r.deltas.filter fun d => d.step ≤ t
  let sc := if noCopy then scale.forget else scale
  let r : RasSt := { r with deltas := keep, newest := some t, scaleNew := sc, rollback := r.rollback + BitVec.ofNat 64 undone, inflight := false, hbmLost := false, recovering := false }
  let s : State := { s with ras := r }
  let s := ((s.clearJournals.clearBank 0).clearBank 1).dropAllReplicas.dropCounts
  let j : JobSt := { s.job with
    step := BitVec.ofNat 64 (t + 1), phase := 0, telNow := [], scale := sc, failed := false, attempts := 0, frozen := [], ready := [],
    doneCel := [], committed := [], retry := false, govf := false }
  let s : State := { s with job := j }
  let s : State := { s with upd := s.upd.map fun (u : UpdSt) => { u with run := none, workReady := false, work := 0 } }
  (s.putHeader).event (qpProc (s.servingQp 0)) 12 3 [r.epoch.toNat, t, undone]

/-- Choice among copies of the scale state (R485): highest (EPOCH, STEP), then a majority of three or more, else job rank 0's;
a split of two is told. DESIGN CHOICE, unsafe (log 89). -/
def chooseScale (xs : List (Nat × CkptRec)) : Option (CkptRec × Bool) :=
  let key := fun (r : CkptRec) => (r.epoch, match r.newest with | some n => n + 1 | none => 0)
  let lt := fun (a b : Nat × Nat) => decide (a.1 < b.1) || (a.1 = b.1 && decide (a.2 < b.2))
  let top := xs.filter fun x => !xs.any fun y => lt (key x.2) (key y.2)
  let val := fun (r : CkptRec) => (r.exp, r.probe, r.clean, r.hist)
  let n := top.length
  let prim := (top.find? fun x => x.1 = 0).or top.head?
  let maj := top.find? fun x => decide (n < 2 * (top.filter fun y => val y.2 = val x.2).length)
  match prim with
  | none => none
  | some p =>
    let best := if 3 ≤ n then maj.getD p else p
    some (best.2, n = 2 && top.any fun x => val x.2 ≠ val p.2)

end Sys2Proof.Machine
end

