-- ==== Sys2Proof/Machine/JobOps.lean ====
section
/-! DEFINITION. The job: accepted operations, load, step boundary, failed step, re-shard (R76, R337 to R341, R408 to R421, R470,
R479 to R482). -/

namespace Sys2Proof.Machine

/-- STATUS codes of the mailbox (R410). -/
def mbOk : Nat := 0
def mbVersion : Nat := 1
def mbOpcode : Nat := 2
def mbLen : Nat := 3
def mbBusy : Nat := 4
def mbState : Nat := 5
def mbSession : Nat := 6
def mbDenied : Nat := 7
def mbArg : Nat := 8
def mbNospace : Nat := 9
def mbFailed : Nat := 10
def mbAccepted : Nat := 11

/-- A stop request to the update units: each ends its sweep 2 in flight and reports STOPPED (R257); one without a run has nothing to end. -/
def State.stopUnits (s : State) : State :=
  { s with upd := s.upd.map fun (u : UpdSt) => if u.run.isSome then { u with stopReq := true } else { u with stopped := true } }

/-- The update units take up work again. -/
def State.freeUnits (s : State) : State := { s with upd := s.upd.map fun (u : UpdSt) => { u with stopReq := false, stopped := false } }

/-- The job state with its event for the management path and the cave header; a park stops the update units (R257, R417, R473, R509). -/
def State.setJob (s : State) (st : Nat) : State :=
  if s.job.state = st then s
  else
    let s := if st = 3 then s.stopUnits else s
    (({ s with job := { s.job with state := st } }).mgmtEvent 0x0104 st).putHeader

/-- Messages of the leader to the other QPs, and theirs to it (R398, R415). -/
def State.meetQps (s : State) : State :=
  match s.leader with
  | none => s
  | some k =>
    let others := ((List.range 4).filter fun n => n ≠ k && !s.procHeld (qpProc n)).map qpProc
    others.foldl (fun s q => s.message (qpProc k) q) (others.foldl (fun s q => s.message q (qpProc k)) s)

/-- Operations that the queue processors carry out (R408, R417, R420). -/
def qpServed (op : Nat) : Bool := [0x0010, 0x0011, 0x0012, 0x0013, 0x0015, 0x0016, 0x0017, 0x0019].contains op

/-- The end of an accepted operation: OP_DONE with ticket and outcome, after the message of the QPs that carried it out; the last 16 stay readable (R408, R412, R415). DESIGN CHOICE, safe (log 91). -/
def State.finishOp (s : State) (o : AccOp) (code : Nat) : State :=
  let done := (s.mbx.finished ++ [{ o with outcome := some code }])
  let rest := s.mbx.ops.filter fun x => !(x.ch = o.ch && x.seq = o.seq)
  let s := if qpServed o.op then s.message (qpProc (s.leader.getD 0)) procMP else s
  ({ s with mbx := { s.mbx with ops := rest, finished := done.drop (done.length - 16) } }).logRec procMP 0x0008
    [match o.ch with | .host => 0 | .mgmt => 1, o.seq.toNat, code]

/-- The accepted operation of an opcode. -/
def State.opOf (s : State) (op : Nat) : Option AccOp := s.mbx.ops.find? fun o => o.op = op

/-- An accepted operation of an opcode ended, if there is one. -/
def State.endOpOf (s : State) (op code : Nat) : State :=
  match s.opOf op with | some o => s.finishOp o code | none => s

/-- The job map over the cores in service: a new epoch when it changes (R74, R76). DEDUCED, unsafe (log 87). -/
def State.remap (s : State) : State :=
  let live := ((List.finRange 256).filter fun c => s.cores[c].ctl.enabled && !s.cores[c].ctl.fenced).map (·.val)
  if !s.jobLoaded || live = s.job.vcids then s
  else
    { s with cores := s.cores.map fun (c : Core) => { c with ctl := { c.ctl with standIn := none } },
             job := { s.job with vcids := live, mapEpoch := s.job.mapEpoch + 1, shadow := [], moved := [] } }

/-- Cores to be fenced at a boundary (R466). -/
def State.fenceLate (s : State) : State :=
  let cs := s.job.fenceDue
  cs.foldl (fun s c => s.fence (Fin.ofNat 256 c) true 466) { s with job := { s.job with fenceDue := [] } }

/-- The loaded job leaves the module (R417). -/
def State.endJob (s : State) : State :=
  let s := (s.setJob 0).stopUnits
  let s : State := { s with job := { JobSt.zero with telCur := s.job.telCur }, coll := { s.coll with reshard := false } }
  { s with upd := s.upd.map fun (u : UpdSt) => { u with run := none, work := 0, workReady := false, stopReq := false, stopped := true } }

/-- Opcodes of the boundary class in the order of R420. -/
def boundaryOps : List Nat := [0x0011, 0x0016, 0x0015, 0x0017, 0x0019]

/-- Rows of a table with their place on a module under a configuration: working row, master, state (R246, R338). -/
structure RowPlace where
  faddr : Nat
  row : Nat
  master : Nat
  state : Nat

/-- Entry of a shard table image. -/
def shardIn (tab : List Byte) (i : Nat) : Shard :=
  let b := (tab.drop (64 * i)).take 64
  ⟨bits (fieldLe b 0 8) 23 0, (List.range 4).map fun n => bits (fieldLe b (8 + 8 * n) 8) 47 0, bits (fieldLe b 0x28 8) 47 0⟩

/-- Place of a row. -/
def TDesc.placeOf (d : TDesc) (own : Nat) (tab : List Byte) (r : Nat) : RowPlace :=
  let (sn, q) := d.locate r
  let sh := shardIn tab sn
  let (base, j) := d.baseOf sh q
  ⟨if d.mapKind = 0 then own else sh.faddr, base + j * d.wpitch, d.masterAddr base j, d.groupAddr base (j / 64) + 64 + j % 64 * d.spitch⟩

/-- Shard table of a descriptor in a configuration. -/
def JobConfig.shardTab (c : JobConfig) (d : TDesc) : List Byte := ((c.shardTabs.find? fun t => t.1 = d.shardTab).map (·.2)).getD []

/-- Descriptors of a configuration. -/
def JobConfig.descs (c : JobConfig) : List TDesc := c.tables.map TDesc.mk

/-- The moves of the data that this module holds (R338): each part of each row whose place changes. DESIGN CHOICE, unsafe (log 90). -/
def reshardMoves (own : Nat) (old new : JobConfig) : List Move :=
  (new.descs.map fun d =>
    match old.descs.find? fun e => e.id = d.id with
    | none => []
    | some e =>
      ((List.range e.rows).map fun r =>
        let a := e.placeOf own (old.shardTab e) r
        let b := d.placeOf own (new.shardTab d) r
        if a.faddr ≠ own || (a.faddr = b.faddr && a.row = b.row && a.master = b.master && a.state = b.state) then []
        else
          ⟨a.row, b.row, b.faddr, d.wpitch⟩ ::
            (if d.opt = 0 then []
             else ⟨a.master, b.master, b.faddr, 5 * d.dim⟩ :: (if d.spitch = 0 then [] else [⟨a.state, b.state, b.faddr, d.spitch⟩]))).flatten).flatten

/-- Whether a move may go before a set: its destination overlaps no source of the others (R340). -/
def Move.free (m : Move) (own : Nat) (rest : List Move) : Bool :=
  m.tgt ≠ own || !rest.any fun x => x ≠ m && overlaps m.dst m.len x.src x.len

/-- The prefix of moves that the staging area holds. -/
def takeArea : Nat → List Move → List Move
  | _, [] => []
  | area, m :: ms => if m.len ≤ area then m :: takeArea (area - m.len) ms else []

/-- Waves (R340): moves whose destination overlaps no source still to be read come first; what depends on itself in a cycle shares
one wave. None: a cycle exceeds the staging area. DESIGN CHOICE, unsafe (log 90). -/
def waves (own area : Nat) : Nat → List Move → Option (List (List Move))
  | 0, ms => if ms.isEmpty then some [] else none
  | n + 1, ms =>
    if ms.isEmpty then some []
    else
      let ok := ms.filter fun m => m.free own ms
      if ok.isEmpty then
        if ms.foldl (fun a m => a + m.len) 0 ≤ area then some [ms] else none
      else
        let w := takeArea area ok
        if w.isEmpty then none else (waves own area n (ms.filter fun m => !w.contains m)).map fun r => w :: r

/-- A queue processors' collective on communicator 0 (R315, R317): operation, count, move list. DESIGN CHOICE, unsafe (log 90). -/
def qpDesc (op count src dst vlen : Nat) : List Byte :=
  toLe 4 op ++ toLe 4 count ++ toLe 8 src ++ toLe 8 dst ++ toLe 8 vlen ++ List.replicate 32 0

/-- Bytes of a move list (R339). -/
def moveBytes (ms : List Move) : List Byte := (ms.map fun m => toLe 8 m.src ++ toLe 8 m.dst ++ toLe 4 m.tgt ++ toLe 4 0 ++ toLe 8 m.len).flatten

/-- EPOCH raised and HOLD sent to every member: a recovery exchange begins (R482). A job of one module restores at once. -/
def State.startExchange (s : State) : State :=
  let s : State := { s with ras := { s.ras with epoch := s.ras.epoch + 1, recovering := true, states := [] } }
  let own := s.fab.faddr.toNat
  let ms := ((s.job.cfg.map (·.members)).getD []).filter fun m => m ≠ own
  if ms.isEmpty then
    match s.ras.newest with
    | some t => { s with ras := { s.ras with restoring := some (t, s.job.scale, false) } }
    | none => { s with ras := { s.ras with recovering := false } }
  else ms.foldl (fun s m => s.sendCkpt m 0 (.hold s.ras.epoch.toNat)) s

/-- The commit of a re-shard on this module (R338). DESIGN CHOICE, unsafe (log 90). -/
def State.commitReshard (s : State) (new : JobConfig) : State :=
  let own := s.fab.faddr.toNat
  let old := s.job.cfg
  let ver := fun (d : TDesc) => ((s.tdesc d.id).version + 1) % 65536
  let s := (new.descs).foldl (fun s d => s.putThrough (s.descBase + 64 * d.id) (d.raw.take 14 ++ toLe 2 (ver d) ++ d.raw.drop 16)) s
  let s := new.shardTabs.foldl (fun s t => s.putThrough t.1 t.2) s
  let c := s.mem.cfg
  let sh := if new.regions.isEmpty then c.shadow else Vector.ofFn fun (i : Fin 16) => if i.val = 0 then region0 else (new.regions[i.val - 1]?).getD 0
  let s := ({ s with mem := { s.mem with cfg := { c with shadow := sh } } }).commitMem true
  let rekey := (Config.fresh s.free).getLsbD 0
  let m := s.mem.cfg
  let s := ({ s with mem := { s.mem with cfg := if rekey then { m with keyEpoch := (m.keyEpoch + 1) % 2 ^ 32, key := Config.fresh (s.free + 1) } else m } }).drawn 2
  let s : State := { s with job := { s.job with cfg := some new, reshard := none } }
  let moved : List GroupKey := match old with
    | none => []
    | some o => s.allGroups.filter fun (g : GroupKey) =>
        let d := s.tdesc g.table
        match o.descs.find? fun e => e.id = g.table with
        | none => true
        | some e =>
          (List.range 64).any fun i =>
            let j := 64 * g.k + i
            let q := if g.cave then d.hotRows + j else if d.homesel = 0 then 4 * j else j
            let r := d.rowOf g.shard q
            decide (r < d.rows) &&
              (let a := e.placeOf own (o.shardTab e) r
               let b := d.placeOf own (new.shardTab d) r
               a.faddr ≠ b.faddr || a.row ≠ b.row || a.master ≠ b.master)
  let s := moved.foldl (fun (s : State) (g : GroupKey) =>
    let d := s.tdesc g.table
    let (base, _) := d.partOf g.shard (s.mem.shard d g.shard) g.cel g.cave
    (if d.opt = 0 then s else s.putThrough (d.groupAddr base g.k) (List.replicate 64 0)).markDirty g) s
  let s := s.clearJournals.dropAllReplicas
  let s : State := { s with ras := { s.ras with full := true, newest := none, base := [], deltas := [], merged := 0 }, coll := { s.coll with reshard := false } }
  (s.putHeader).endOpOf 0x0017 mbOk

/-- An abandoned re-shard: the job restarts from the checkpoint before it (R341). DEDUCED, unsafe (log 48). -/
def State.abandonReshard (s : State) : State :=
  let s : State := { s with job := { s.job with reshard := none }, coll := { s.coll with reshard := false } }
  (s.endOpOf 0x0017 mbFailed).startExchange

/-- The next collective of a re-shard, or its commit (R338). DESIGN CHOICE, unsafe (log 90). -/
def State.pumpReshard (s : State) : State :=
  match s.job.reshard with
  | none => s
  | some r =>
    let busy := match r.cur with | some id => s.coll.colls.any fun c => c.id = id | none => false
    if busy || s.ras.inflight then s
    else
      let rt := s.mem.cfg.runtimeBase
      match r.todo with
      | [] => s.commitReshard r.cfg
      | w :: ws =>
        let s : State := { s with job := { s.job with reshard := some { r with todo := ws, cur := some s.coll.nextId } } }
        match w with
        | none => s.issueColl (.qp 0) (qpDesc 7 32 (rt + rtBarrier) (rt + rtBarrier + 64) 0)
        | some ms =>
          let s : State := { s with mem := s.mem.write (rt + rtMoves) (moveBytes ms) }
          s.issueColl (.qp 0) (qpDesc 5 ms.length 0 0 (rt + rtMoves))

/-- A re-shard begins (R337, R338): every lease ends, the waves are planned; NOSPACE when a cycle exceeds the staging area. DESIGN CHOICE, unsafe (log 90). -/
def State.beginReshard (s : State) (o : AccOp) : State :=
  match o.cfg, s.job.cfg with
  | some new, some old =>
    let own := s.fab.faddr.toNat
    let ms := reshardMoves own old new
    match waves own (s.coll.permGib * gibi) ms.length ms with
    | none => s.finishOp o mbNospace
    | some ws =>
      let todo := (ws.map fun w => [some w, none]).flatten ++ [none]
      let s : State := { s with job := { s.job with reshard := some ⟨new, todo, none⟩ }, coll := { s.coll with reshard := true },
                                collCel := s.collCel.map fun (e : CollCel) => { e with leases := [] } }
      s.pumpReshard
  | _, _ => s.finishOp o mbArg

/-- An accepted operation marked as started. -/
def State.startOp (s : State) (o : AccOp) : State :=
  { s with mbx := { s.mbx with ops := s.mbx.ops.map fun (x : AccOp) => if x.ch = o.ch && x.seq = o.seq then { x with started := true } else x } }

/-- One boundary request served (R420). DEDUCED, unsafe (log 87). -/
def State.serveOne (s : State) (op : Nat) : State :=
  match s.opOf op with
  | none => s
  | some o =>
    if o.started then s
    else
      match op with
      | 0x0011 => if s.job.state = 2 then (s.setJob 3).finishOp o mbOk else s.finishOp o mbState
      | 0x0013 =>
        let s := s.endJob.finishOp o mbOk
        boundaryOps.foldl (fun s k => s.endOpOf k mbState) s
      | 0x0016 => if s.job.state = 3 then s.startOp o else s.finishOp o mbState
      | 0x0015 => s.startOp o
      | 0x0017 => (s.startOp o).beginReshard o
      | 0x0019 => ({ s with ras := { s.ras with full := true } }).finishOp o mbOk
      | _ => s

/-- The requests served at a boundary, in the order of R420. -/
def State.serveBoundary (s : State) : State :=
  if s.job.phase ≠ 0 || s.job.inBarrier || s.job.state = 1 then s
  else
    let s := if s.job.parkDue && s.job.state = 2 then ({ s with job := { s.job with parkDue := false } }).setJob 3 else s
    [0x0011, 0x0013, 0x0016, 0x0015, 0x0017, 0x0019].foldl State.serveOne s

/-- PROMO set to 0 for the layers whose reset waits for the next step (R409). -/
def State.resetPromo (s : State) : State :=
  if s.job.retry then s
  else
    let ls := s.job.promoReset.foldl (fun m l => Cells.set m l (Cells.get m l &&& 0xf3#8)) s.job.layers
    { s with job := { s.job with layers := ls, promoReset := [] } }

/-- A step boundary: fences due, the new map, groups to be restored, then requests (R76, R420, R466, R484). -/
def State.boundary (s : State) : State := (s.meetQps.fenceLate.remap.restoreSuspects.resetPromo).serveBoundary

/-- Whether an operation runs that holds the next step back (R420). -/
def State.boundaryBusy (s : State) : Bool := s.mbx.ops.any fun o => o.started && (o.op = 0x0015 || o.op = 0x0016 || o.op = 0x0017)

/-- A failed attempt of the step (R151, R234, R263, R420, R470). `counted`: it counts toward STEP_RETRY. DEDUCED, unsafe (log 87). -/
def State.failNow (s : State) (govf counted : Bool) : State :=
  let p := qpProc ((s.leader).getD 0)
  let j := s.job
  let n := j.attempts + 1
  let s := s.event p 12 2 [j.step.toNat, n, j.failCause]
  let keep := j.ready.filter fun e => e.src = 1 && s.journalStep e.table = j.step.toNat % 2 ^ 32 && 1 ≤ s.journalState e.table
  let s := s.clearBank (bankOf j.step.toNat)
  let s := s.dropCounts
  let limit := (j.cfg.map (·.stepRetry)).getD 3
  let new : JobSt := { s.job with
    phase := 0, attempts := if counted then n else j.attempts, failed := false, failCause := 0, govf := false, rewinds := 0, scale := j.scale.failed govf,
    telNow := [], retry := true, ready := keep, doneCel := j.doneCel.filter fun x => keep.any fun e => e.table = x.1,
    committed := j.committed.filter fun t => keep.any fun e => e.table = t }
  let s : State := { s with job := new }
  let s := if counted && limit < n then s.setJob 3 else s
  s.boundary

/-- STATE sent to job rank 0, or kept when this module is it (R482). -/
def State.sendState (s : State) : State :=
  let r := s.recoveryRecord
  let own := s.fab.faddr.toNat
  let s : State := { s with ras := { s.ras with stateDue := false } }
  match (s.job.cfg.map (·.members)).getD [] with
  | [] => s
  | m :: _ =>
    if m = own then { s with ras := { s.ras with states := s.ras.states.filter (fun x => x.1 ≠ 0) ++ [(0, r)] } }
    else s.sendCkpt m 0 (.state s.ras.epoch.toNat r)

/-- GO taken: the restore begins (R482, R483). -/
def State.takeGo (s : State) (r : CkptRec) (none' : Bool) : State :=
  match r.newest with
  | none => s
  | some t =>
    let sc := { s.job.scale with exp := r.exp, probe := r.probe, clean := r.clean, hist := r.hist }
    { s with ras := { s.ras with restoring := some (t, sc, none'), states := [] } }

/-- Job rank 0 decides once it holds STATE from every member (R482, R485); where no member's cave is intact, T is the lowest NEWEST of all and no intact copy
of the scale state exists (R152). DESIGN CHOICE, unsafe (log 89). -/
def State.tryGo (s : State) : State :=
  let ms := (s.job.cfg.map (·.members)).getD []
  let own := s.fab.faddr.toNat
  let xs := s.ras.states
  if ms.isEmpty || xs.length < ms.length then s
  else
    let good := xs.filter fun x => x.2.cave && x.2.newest.isSome
    let ts := (if good.isEmpty then xs else good).filterMap fun x => x.2.newest
    match ts with
    | [] => s
    | t0 :: tr =>
      let t := tr.foldl min t0
      let pick := chooseScale good
      let (rec0, split) := match pick with | some p => p | none => (s.recoveryRecord, false)
      let s := if split then
          ({ s with ras := { s.ras with splits := s.ras.splits + 1 } }).event (qpProc (s.servingQp 0)) 10 3 [0, s.ras.epoch.toNat, t]
        else s
      let lost := (ScaleSt.new).forget
      let rec0 := if pick.isSome then rec0 else { rec0 with exp := lost.exp, clean := lost.clean, probe := lost.probe, hist := lost.hist }
      let go : CkptRec := { rec0 with newest := some t, epoch := s.ras.epoch.toNat }
      let s := (ms.filter fun m => m ≠ own).foldl (fun s m => s.sendCkpt m 0 (.go s.ras.epoch.toNat go)) s
      s.takeGo go pick.isNone

/-- STATE owed after a HOLD, once the step's update has committed (R482). -/
def State.payState (s : State) : State :=
  if s.ras.stateDue && (s.job.phase = 0 || s.job.phase = 5) then
    ({ s with job := { s.job with phase := 0 } }).sendState.tryGo
  else s

/-- Cuts and their placement (R311, R312). -/
def JobConfig.cutsOk (c : JobConfig) (f : FabSt) : Bool :=
  let k := c.cuts
  let used := ([(k.data, k.axisD), (k.model, k.axisM), (k.pipe, k.axisP)].filter fun x => 1 < x.1)
  decide (1 ≤ k.data) && decide (1 ≤ k.model) && decide (1 ≤ k.pipe) && decide (k.data * k.model * k.pipe = c.members.length) &&
  (k.embSize = k.data || (k.embWhole && k.embSize = c.members.length)) &&
  used.all (fun x => decide (x.2 < 3) && (c.extent.toList[x.2]?).getD 0 = x.1) && decide ((used.map (·.2)).eraseDups.length = used.length) &&
  (!f.valid || c.members.contains f.faddr.toNat)

/-- Tables of a configuration of which some shard's working, master and state ranges overlap (R204). DEDUCED, safe (log 43). -/
def State.overlappingTables (s : State) (c : JobConfig) : List Nat :=
  let own := s.fab.faddr.toNat
  (c.descs.filter fun d =>
    let tab := c.shardTab d
    (List.range (max 1 d.nshard)).any fun i =>
      let sh := shardIn tab i
      if d.dim = 0 || (d.mapKind ≠ 0 && sh.faddr ≠ own) then false
      else
        let part := fun (base slots : Nat) =>
          if slots = 0 then []
          else (base, slots * d.wpitch) :: (if d.opt = 0 then [] else [(base + d.moff, slots * 5 * d.dim), (base + d.soff, ceilDiv slots 64 * d.gpitch)])
        let rs := ((List.range 4).map fun n => if d.homesel = 0 || d.homesel = n + 1 then part ((sh.hbase[n]?).getD 0) (d.hotSlots i) else []).flatten ++
          part sh.cbase (d.coldSlots i)
        rs.zipIdx.any fun x => (rs.drop (x.2 + 1)).any fun y => overlaps x.1.1 x.1.2 y.1 y.2).map TDesc.id

/-- Geometry of the gradient tables from the region table and the configuration (R235, R244). -/
def State.setPress (s : State) (c : JobConfig) : State :=
  { s with press := Vector.ofFn fun (i : Fin 4) =>
      let p := s.press[i]
      let e := s.mem.cfg.table.toList.find? fun r => rgValid r && rgKind r = 2 && rgDomain r = i.val + 1
      let (b, z) := (e.map fun r => (rgBase r * gibi, rgSize r * gibi)).getD (0, 0)
      { p with base := #v[b, b + z / 2], keyLimit := z / 16 / 16 * 3 / 4, heapSegs := (z / 2 - z / 16) / 64, spill := c.spill[i],
               banks := Vector.replicate 2 GBank.zero } }

/-- The checkpoint area in the cave: on, or off with a record; none when a cold range or a spill area reaches into it (R473). -/
def State.setArea (s : State) (c : JobConfig) : Option State :=
  let b := s.baseBytes
  let area := 8192 + roundUp c.bytes 0x100000 + b + (b + gibi)
  let top := s.mem.cfg.caveSize * gibi
  let off : State := ({ s with ras := { s.ras with caveOn := false, areaBase := 0, areaGib := 0 } }).event (qpProc (s.servingQp 0)) 10 5 [1]
  if top < area || top = 0 then some off
  else
    let base := caveBase + top - area
    let hit := fun (x : Nat × Nat) => overlaps base area x.1 x.2
    let cold := (s.jobTables.map fun d => ((s.mem.shardsOn d s.fab.faddr.toNat).map fun p =>
      (p.2.cbase, d.coldSlots p.1 * d.wpitch) ::
        (if d.opt = 0 then [] else [(p.2.cbase + d.moff, d.coldSlots p.1 * 5 * d.dim), (p.2.cbase + d.soff, ceilDiv (d.coldSlots p.1) 64 * d.gpitch)]))).flatten.flatten
    let spill := (List.finRange 4).map fun i => (bits c.spill[i].toNat 47 0, bits c.spill[i].toNat 63 48 * gibi)
    if (cold ++ spill).any hit then none
    else some { s with ras := { s.ras with caveOn := true, areaBase := base, areaGib := ceilDiv area gibi } }

/-- The units over the runtime region of a loaded job: descriptor copies, journal, pressing areas, and no run under way (R168, R195, R417). -/
def State.loadUnits (s : State) : State :=
  let rt := s.mem.cfg.runtimeBase
  let s : State := { s with upd := Vector.ofFn fun (i : Fin 4) => { s.upd[i] with workBase := rt + rtWork i.val } }
  { s with emb := s.emb.map fun (e : EmbSt) => { e with descBase := rt + rtDesc, replicas := [], filter := [] },
           upd := s.upd.map fun (u : UpdSt) => { u with journal := rt + rtJournal, run := none, work := 0, workReady := false, stopReq := false, stopped := false },
           coll := { s.coll with commBase := rt + rtComm, permBase := rt + rtPerm, cseq := [], joins := [] },
           mem := (s.mem.zeroRange (rt + rtDesc) 0x400000).zeroRange (rt + rtJournal) 0x800000 }

/-- The table descriptors, shard tables, default rows and communicators of a job in memory (R195, R213, R315, R418). -/
def MemSt.loadJobTables (m : MemSt) (c : JobConfig) : MemSt :=
  let rt := m.cfg.runtimeBase
  let m := c.descs.foldl (fun m d => m.write (rt + rtDesc + 64 * d.id) d.raw) m
  let m := c.shardTabs.foldl (fun m t => m.write t.1 t.2) m
  let m := c.defaults.foldl (fun m t => match c.descs.find? fun d => d.id = t.1 with | some d => m.write d.dflt (t.2.take d.rowBytes) | none => m) m
  (m.zeroRange (rt + rtComm) 4096).write (rt + rtComm) c.comms.flatten

/-- The fabric maps of a job's phases in their slots (R312, R418). -/
def FabSt.loadMaps (f : FabSt) (c : JobConfig) : FabSt :=
  c.phases.foldl (fun f p => match p.map with | some mp => if p.slot = 0 then f else f.loadMap p.slot mp | none => f) f

/-- The layer table as a job configuration writes it (R146). -/
def jobLayers (c : JobConfig) : Cells 8 := c.layers.foldl (fun m l => Cells.set m (l.1 % 4096) (BitVec.ofNat 8 (l.2.1 % 4 + bitAt l.2.2 4))) []

/-- The step program of a job: entries of the update list that name a frozen table or hold a reserved value are left out, with a record each (R258,
R418). -/
def State.loadProgram (s : State) (c : JobConfig) : Option State :=
  let frozen := fun (e : UpdEntry) => (s.tdesc e.table).opt = 0
  let ign := c.updates.filterMap fun bs =>
    match UpdEntry.decode bs with
    | none => some (fieldLe bs 0 2, 1)
    | some e => if frozen e then some (e.table, 0) else none
  let s := ign.foldl (fun s x => s.event (qpProc (s.servingQp 0)) 6 2 [x.1, x.2]) s
  let j : JobSt := { JobSt.zero with
    state := s.job.state, cfg := some c, upds := (c.updates.filterMap UpdEntry.decode).filter fun e => !frozen e, telCur := s.job.telCur, layers := jobLayers c,
    scale := { ScaleSt.new with exp := min c.scaleExp 32, up := c.upInterval } }
  let s : State := { s with job := j, collCel := s.collCel.map fun (e : CollCel) =>
      { e with leases := [], cfgNext := (e.cfgNext &&& ~~~(0x100000#64)) ||| (if c.splitOk then 0x100000#64 else 0#64) } }
  s.setArea c

/-- The region table of a job committed, in place of the present one when the job brings none (R168, R418). -/
def State.loadRegions (s : State) (c : JobConfig) : State :=
  let m := s.mem.cfg
  let sh := if c.regions.isEmpty then m.table else Vector.ofFn fun (i : Fin 16) => if i.val = 0 then region0 else (c.regions[i.val - 1]?).getD 0
  let pin := if c.regions.isEmpty then m.pin else c.pin
  ({ s with mem := { s.mem with cfg := { m with shadow := sh, pinShadow := pin } } }).commitMem true

/-- The checks and table writes of a job load (R417, R418), and whether they passed; a rejected region table leaves its status and the shadow (R168,
R521). Tables with overlapping ranges hold free rows from then on (R204). DEDUCED, safe (log 43). DESIGN CHOICE, unsafe (log 56). -/
def State.loadTables (s : State) (c : JobConfig) : State × Bool :=
  let badImage := c.images.any fun i => decide (16384 < i.2.length)
  let badMap := c.phases.any fun p => decide (7 < p.slot)
  if c.reserved || !c.cutsOk s.fab || badImage || badMap || (c.descs.any fun d => !d.ok) || (c.ringsUsed.any fun r => decide (16 ≤ r)) then (s, false)
  else
    let overlapping := s.overlappingTables c
    let s := s.loadRegions c
    if s.mem.cfg.status ≠ 0 then (s, false)
    else
      let stashGib := s.mem.cfg.table.toList.foldl (fun a r => if rgValid r && rgKind r = 3 then a + rgSize r else a) 0
      if stashGib * gibi < c.stash then (s, false)
      else
        let s := s.loadUnits
        let s := ({ s with mem := s.mem.loadJobTables c }).setPress c
        let s : State := { s with fab := s.fab.loadMaps c }
        match s.loadProgram c with
        | some t => ({ t with job := { t.job with wild := overlapping } }, true)
        | none => (s, false)

/-- The cores at the start of a job: mailboxes 0, no image resident, VCIDs in order (R60, R74, R519). -/
def State.jobCores (s : State) : State :=
  let s : State := { s with cores := s.cores.map fun (c : Core) =>
    { c with regs := { c.regs with sem := Vector.ofFn fun (i : Fin 64) => if i.val < 48 then c.regs.sem[i] else 0#16 },
             imem := { c.imem with image := none }, ctl := { c.ctl with standIn := none } } }
  let live := ((List.finRange 256).filter fun c => s.cores[c].ctl.enabled && !s.cores[c].ctl.fenced).map (·.val)
  { s with job := { s.job with vcids := live, mapEpoch := 0 } }

/-- Job load by JOB_LOAD: tables, cores, an empty checkpoint; then the start barrier (R417, R479). -/
def State.loadJob (s : State) (c : JobConfig) : State × Bool :=
  match s.loadTables c with
  | (s, false) => (s, false)
  | (s, true) =>
    let r : RasSt := { s.ras with
      caveOk := s.ras.caveOn, buddyOk := false, buddyDue := none, full := true, inflight := false, recovering := false, epoch := 0, newest := none,
      merged := 0, scaleNew := s.job.scale, hdrA := none, hdrB := none, jobCopy := if s.ras.caveOn then some c else none, base := [], deltas := [], states := [],
      restoring := none, stateDue := false }
    let s := ({ s with ras := r }).jobCores
    (({ s with job := { s.job with inBarrier := true } }).putHeader, true)

/-- A CKPT_LOST record (R481, R489). DEDUCED, unsafe (log 52). -/
def State.ckptLost (s : State) (cause : Nat) : State := s.event (qpProc (s.servingQp 0)) 10 5 [cause]

/-- The job that the cave's current header shows as RUNNING or PARKED is loaded from its copy and restored in full; the exchange of
R482 begins (R481). DEDUCED, unsafe (log 52). -/
def State.reloadJob (s : State) : State :=
  let s : State := { s with ras := { s.ras with reloadDue := false } }
  match s.ras.header, s.ras.jobCopy with
  | some h, some c =>
    if h.jobState < 2 then s
    else
      match h.newest with
      | none => s.ckptLost 2
      | some t =>
        match s.loadTables c with
        | (s, false) => s.ckptLost 3
        | (s, true) =>
          let r : RasSt := { s.ras with
            caveOk := s.ras.caveOn, buddyOk := false, buddyDue := none, full := false, inflight := false, epoch := BitVec.ofNat 32 h.epoch,
            newest := some t, scaleNew := h.scale, merged := h.merged, deltas := s.ras.deltas.filter fun d => d.ended, states := [], hbmLost := true }
          let s := (({ s with ras := r }).jobCores).restoreTo t h.scale false []
          let st := if h.jobState = 3 then 3 else 2
          (({ s with job := { s.job with state := st } }).mgmtEvent 0x0104 st).startExchange
  | _, _ => s.ckptLost 1

end Sys2Proof.Machine
end

