-- ==== Sys2Proof/Machine/HostOps.lean ====
section
/-! DEFINITION. Submission queues, completions and the session (R376 to R391, R395). -/

namespace Sys2Proof.Machine

/-- States of a queue (R395). -/
def qDisabled : Nat := 0
def qRunning : Nat := 1
def qStalled : Nat := 2
def qError : Nat := 3
def qDetached : Nat := 4

/-- Ring depth of a queue; none for a reserved LOG2 (R395). DEDUCED, safe (log 37). -/
def Queue.depth (q : Queue) : Option Nat :=
  let l := bits q.cfg.toNat 4 1
  if 6 ≤ l ∧ l ≤ 16 then some (2 ^ l) else none

/-- LOG2 of the completion ring's depth; none when reserved. -/
def Queue.cqLog (q : Queue) : Option Nat :=
  let l := bits q.cqCfg.toNat 4 0
  if 6 ≤ l ∧ l ≤ 16 then some l else none

/-- A queue changed. -/
def State.updQueue (s : State) (q : QId) (f : Queue → Queue) : State :=
  { s with hif := { s.hif with queues := s.hif.queues.set q (f s.hif.queues[q]) } }

/-- The QP that serves a queue (R376, R400). -/
def State.queueQp (s : State) (q : QId) : Nat := s.servingQp (q.val % 4)

/-- Fields of an entry (R377). -/
def Sqe.fld (e : Sqe) (o n : Nat) : Nat := fieldLe e.bytes o n
def Sqe.opc (e : Sqe) : Nat := e.fld 4 1
def Sqe.after (e : Sqe) : Bool := bit (e.fld 5 1) 0 || e.opc = 1
def Sqe.vis (e : Sqe) : Nat := e.fld 6 1
def Sqe.haddr (e : Sqe) : Nat := e.fld 0x10 8
def Sqe.daddr (e : Sqe) : Nat := bits (e.fld 0x18 8) 47 0
def Sqe.len (e : Sqe) : Nat := bits (e.fld 0x20 8) 39 0
def Sqe.arg (e : Sqe) : Nat := e.fld 0x28 8

/-- The checks of R378: opcode, RSVD, alignment of the operands the opcode uses. -/
def Sqe.ok (e : Sqe) : Bool :=
  let al := fun (x : Nat) => x % 16 = 0
  decide (e.opc ≤ 7) && bits (e.fld 5 1) 7 1 = 0 && bits e.vis 7 3 = 0 && e.fld 7 1 = 0 && bits (e.fld 0x18 8) 63 48 = 0 &&
  bits (e.fld 0x20 8) 63 40 = 0 && e.fld 0x30 12 = 0 &&
  (!(e.opc = 2 || e.opc = 3) || (al e.haddr && al e.daddr && al e.len)) && (e.opc ≠ 4 || (al e.daddr && al e.len))

/-- A record placed in the device ring; the oldest is overwritten when the ring is full, and lost if its host ring does not hold it
(R387). -/
def HifSt.putCmpl (h : HifSt) (c : Cmpl) : HifSt :=
  let h := { h with ringPos := h.ringPos + 1 }
  if h.ring.length < 65536 then { h with ring := h.ring ++ [c] }
  else
    match h.ring with
    | o :: rest =>
      if o.written then { h with ring := rest ++ [c] }
      else
        let i : QId := Fin.ofNat 64 o.q
        { h with ring := rest ++ [c], lost := h.lost + 1, queues := h.queues.set i { h.queues[i] with lost := h.queues[i].lost + 1 } }
    | [] => { h with ring := [c] }

/-- One record of a queue by its serving QP, numbered with CIDX (R385 to R387, R414, R415). DEDUCED, unsafe (log 75). -/
def State.putRecordOf (s : State) (q : QId) (tag : W64) (seq : W32) (code : Nat) (done : W64) : State :=
  let (st, sq, s) := s.stampNext (qpProc (s.queueQp q))
  let x := s.hif.queues[q]
  let s := s.updQueue q fun x => { x with cidxNext := x.cidxNext + 1 }
  { s with hif := s.hif.putCmpl ⟨q.val, tag, seq, code, x.cidxNext, done, sq, st, false, false⟩ }

/-- A completion record, a LOST record before it when records of the queue were lost (R387). -/
def State.complete (s : State) (q : QId) (e : Sqe) (code done : Nat) : State :=
  let n := s.hif.queues[q].lost
  let s := if n = 0 then s
    else (s.updQueue q fun x => { x with lost := 0 }).putRecordOf q 0 0 0x14 (BitVec.ofNat 64 n)
  let s := s.updQueue q fun x => { x with entries := x.entries.filter fun y => y.seq ≠ e.seq }
  s.putRecordOf q (BitVec.ofNat 64 (e.fld 8 8)) e.seq code (BitVec.ofNat 64 done)

/-- Entries read but not started complete with ABORTED (R380, R395). -/
def State.abortUnstarted (s : State) (q : QId) : State :=
  (s.hif.queues[q].entries.filter fun e => !e.started).foldl (fun s e => s.complete q e 0x13 0) s

/-- Whether every slot write has been followed by a TAIL_ECHO read, and so has reached its slot (R381). -/
def Queue.synced (q : Queue) : Bool := q.late.isEmpty

/-- The slots once every write has reached them (R381). -/
def Queue.landed (q : Queue) : Cells 8 := q.late.foldl (fun m w => Cells.putDense m w.1 w.2) q.slots

/-- A byte of the ring as the device reads it: after a doorbell without the read-back, or an early rewrite, it comes from any one of the writes that
may not have landed, or from before them (R384). DEDUCED, safe (log 43). -/
def Queue.ringByte (fr : Nat) (q : Queue) (a : Nat) : Byte :=
  let old := Cells.get q.slots a
  match q.late.filterMap fun w => if w.1 ≤ a then w.2[a - w.1]? else none with
  | [] => old
  | cs => (old :: cs).getD (Config.order fr a (cs.length + 1) % (cs.length + 1)) old

/-- Whether an entry of the ring is visible, and its bytes (R382). -/
def Queue.slotOf (fr : Nat) (q : Queue) (depth : Nat) (seq : W32) : Bool × List Byte :=
  let b := (List.range 64).map fun i => q.ringByte fr (64 * (seq.toNat % depth) + i)
  (fieldLe b 0 4 = seq.toNat && fieldLe b 0x3c 4 = seq.toNat, b)

/-- Reading the visible entries from NEXT_SEQ to TAIL, at most `n` of them (R382). -/
def Queue.readUp (fr depth : Nat) : Nat → Queue → Queue
  | 0, q => q
  | n + 1, q =>
    match q.tail with
    | none => q
    | some t =>
      if 2 ^ 31 ≤ (t - q.nextSeq).toNat then { q with waitVis := false }
      else
        let (ok, b) := q.slotOf fr depth q.nextSeq
        if ok then
          Queue.readUp fr depth n { q with entries := q.entries ++ [⟨q.nextSeq, b, false, none, 0⟩], nextSeq := q.nextSeq + 1, waitVis := false }
        else q

/-- Whether the device reads the entries of a queue now (R401, R427). -/
def State.readsQueue (s : State) (q : QId) : Bool :=
  s.running && s.hif.queues[q].state = qRunning && s.procUp (qpProc (s.queueQp q))

/-- The device reads what is visible; an entry not yet visible needs a re-read, counted once (R382). -/
def State.pumpQueue (s : State) (q : QId) : State :=
  if !s.readsQueue q then s
  else
    let x := s.hif.queues[q]
    match x.depth, x.tail with
    | some d, some t =>
      let y := x.readUp s.free d (d + 1)
      let due := decide ((t - y.nextSeq).toNat < 2 ^ 31)
      let y := if due && !y.waitVis then { y with waitVis := true, reread := y.reread + 1 } else y
      let s := if x.synced then s else s.drawn freeStep
      s.updQueue q fun _ => y
    | _, _ => s

/-- Every queue pumped. -/
def State.pumpQueues (s : State) : State := (List.finRange 64).foldl (fun s q => s.pumpQueue q) s

/-- Enabling a queue (R380, R395): without an attached session, or with a reserved depth, the write is ignored. -/
def State.enableQueue (s : State) (q : QId) : State :=
  let x := s.hif.queues[q]
  if !s.hif.attached || x.state ≠ qDisabled || x.depth.isNone || x.cqLog.isNone then s
  else
    s.updQueue q fun x =>
      { x with cfg := x.cfg ||| 1, state := qRunning, nextSeq := 1, cidxNext := 0, cqHead := 0, tail := none, waitVis := false, dests := [] }

/-- Disabling a queue (R380). -/
def State.disableQueue (s : State) (q : QId) : State :=
  if s.hif.queues[q].state = qDisabled then s
  else (s.abortUnstarted q).updQueue q fun x => { x with cfg := x.cfg &&& ~~~1#64, state := qDisabled, tail := none, waitVis := false }

/-- The detach of the session with a cause (R389, R390): started commands that touch host memory end with HOST, and so do transfers in
space 4. DEDUCED, unsafe (log 75). -/
def State.detachSession (s : State) (cause : Nat) : State :=
  if !s.hif.attached then s
  else
    let qs := s.hif.queues.map fun (x : Queue) =>
      let es := x.entries.map fun (e : Sqe) =>
        if e.started && (e.opc = 2 || e.opc = 3) && (e.code = some stOk || e.code.isNone) then { e with code := some stHost } else e
      if x.state = qRunning || x.state = qStalled then { x with state := qDetached, before := x.state, entries := es } else { x with entries := es }
    let s := { s with hif := { s.hif with attached := false, cause := cause, queues := qs, hbArmed := false } }
    let s := (List.finRange 256).foldl (fun s c =>
      s.cores[c].ops.foldl (fun s o =>
        match o.body with
        | .xfer raw _ _ cd _ =>
          let d := XDesc.mk raw
          if cd = stOk && d.op ≤ 1 && ((d.usesSrc && d.sspace = 4) || d.dspace = 4) then
            s.setXfer c o.id 0 stHost (if d.dspace = 4 then d.dst else d.src)
          else s
        | _ => s) s) s
    s.event procMP 3 4 [cause]

/-- Resuming the session (R391): queue states return, records from CQ_HEAD on are written again, a LOST record in place of those that
are gone. DEDUCED, unsafe (log 75). -/
def State.resumeSession (s : State) : State :=
  let s := { s with hif := { s.hif with attached := true, hbArmed := true } }
  (List.finRange 64).foldl (fun s q =>
    let x := s.hif.queues[q]
    if x.state ≠ qDetached then s
    else
      let due := fun (c : Cmpl) => decide (c.q = q.val) && decide ((c.cidx - x.cqHead).toNat < 2 ^ 31)
      let held := (s.hif.ring.filter due).length
      let gone := (x.cidxNext - x.cqHead).toNat - held
      let s := { s with hif := { s.hif with ring := s.hif.ring.map fun (c : Cmpl) => if due c then { c with written := false, replay := true } else c } }
      let s := s.updQueue q fun x => { x with state := x.before, lost := 0 }
      let s := if gone = 0 then s
        else
          let (st, sq, s) := s.stampNext (qpProc (s.queueQp q))
          { s with hif := { s.hif with ring := ⟨q.val, 0, 0, 0x14, x.cqHead, BitVec.ofNat 64 gone, sq, st, false, true⟩ :: s.hif.ring } }
      s.pumpQueue q) s

/-- A new session (R391): the queues of the old one are disabled, SESSION_ID is drawn anew. -/
def State.newSession (s : State) : State :=
  let s := (List.finRange 64).foldl (fun s q => s.disableQueue q) s
  let id := Config.fresh s.free
  let s := { s with hif := { s.hif with attached := true, hbArmed := true, session := if id = 0 then 1 else id } }
  s.drawn 1

/-- A doorbell (R382, R383). -/
def State.doorbell (s : State) (q : QId) (t : W32) : State :=
  let x := s.hif.queues[q]
  if x.state ≠ qRunning && x.state ≠ qStalled then s
  else if 2 ^ 31 ≤ (t - x.nextSeq).toNat then s
  else
    let oldest := ((x.entries.map (·.seq)).foldl (fun (m : W32) e => if 2 ^ 31 ≤ (e - m).toNat then e else m) x.nextSeq)
    if (x.depth.getD 0) < (t - oldest).toNat + 1 then
      (s.updQueue q fun x => { x with state := qError, waitVis := false }).event (qpProc (s.queueQp q)) 3 3 [q.val, t.toNat, oldest.toNat]
    else
      let far := match x.tail with
        | some u => if 2 ^ 31 ≤ (t - u).toNat then u else t
        | none => t
      (s.updQueue q fun x => { x with tail := some far }).pumpQueue q

/-- SQ_CTRL.RESUME (R382, R395). -/
def State.resumeQueue (s : State) (q : QId) : State :=
  if s.hif.queues[q].state ≠ qStalled then s else (s.updQueue q fun x => { x with state := qRunning, waitVis := false }).pumpQueue q

/-- SQ_CTRL.RESET (R383, R395). -/
def State.resetQueue (s : State) (q : QId) (seq : W32) : State :=
  if s.hif.queues[q].state ≠ qError then s
  else (s.abortUnstarted q).updQueue q fun x => { x with state := qRunning, nextSeq := seq, tail := none, waitVis := false }

/-- A write of CQ_HEAD (R386). -/
def State.cqHeadWrite (s : State) (q : QId) (x : W64) : State := s.updQueue q fun y => { y with cqHead := x.setWidth 32 }

/-- Bytes of a completion record as its host ring holds it (R385, R386). -/
def Cmpl.bytes (c : Cmpl) (cqLog : Nat) : List Byte :=
  let ph := bitAt (!c.cidx.getLsbD cqLog) 0
  toLe 8 c.tag.toNat ++ toLe 4 c.seq.toNat ++ toLe 1 c.code ++ toLe 1 c.q ++ toLe 1 (ph + bitAt c.replay 1) ++ toLe 1 0 ++ toLe 4 c.cidx.toNat ++
    toLe 4 0 ++ toLe 8 c.done.toNat ++ toLe 8 c.srcseq.toNat ++ toLe 8 c.cstamp.toNat ++ List.replicate 15 0 ++ toLe 1 ph

/-- The next record of a queue for its host ring, when there is room (R386). -/
def State.nextCmpl (s : State) (q : QId) : Option Cmpl :=
  let x := s.hif.queues[q]
  match x.cqLog, s.hif.ring.find? fun c => c.q = q.val && !c.written with
  | some l, some c => if (c.cidx - x.cqHead).toNat < 2 ^ l then some c else none
  | _, _ => none

/-- Lines of the host read buffer that a range covers dropped (R374, R388). -/
def HifSt.dropLines (h : HifSt) (a n : Nat) : HifSt := { h with buf := h.buf.filter fun l => !overlaps (128 * l.1) 128 a n }

end Sys2Proof.Machine
end

