-- ==== Sys2Proof/Machine/SecOps.lean ====
section
/-! DEFINITION. Lifecycle, debug level, tokens and DEBUG_SET (R492 to R500, R504, R505, R513). -/

namespace Sys2Proof.Machine

/-- Lifecycle state of R492: 0 MANUFACTURE, 1 PROVISIONED, 2 FIELD, 3 RETURN. -/
def Fuses.lifecycle (z : Fuses) : Nat := match z.lc.toNat with | 0 => 0 | 1 => 1 | 3 => 2 | _ => 3

/-- Debug level at each start (R492): 0 NONE, 1 OBSERVE, 2 FULL. -/
def Fuses.startLevel (z : Fuses) : Nat := match z.lifecycle with | 1 => 1 | 2 => 0 | _ => 2

/-- Whether TAP or mailbox meet a module with an identity key, not killed (R492, R514). -/
def Fuses.hasKey (z : Fuses) : Bool := (z.lifecycle = 1 || z.lifecycle = 2) && !z.keyKill

/-- A change of the debug level (R498, R500, R509, R513): what the TAP halts resumes when the level falls. -/
def State.setLevel (s : State) (l : Nat) : State :=
  let old := s.sec.level
  if old = l then s
  else
    let s := (({ s with sec := { s.sec with level := l } }).event procSP 11 1 [old, l, s.fuses.lc.toNat]).mgmtEvent 0x0103 l
    if old ≤ l then s
    else
      let s : State := { s with tap := { s.tap with out := List.replicate s.tap.out.length 0 } }
      let s : State := { s with fw := { s.fw with procs := s.fw.procs.map fun (p : Proc) => { p with halted := false } } }
      { s with cores := s.cores.map fun (c : Core) => { c with ctl := { c.ctl with tapHalt := false } } }

/-- Erasure on entry into FULL (R499): headers of the cave checkpoint, SESSION_ID. -/
def State.eraseFull (s : State) : State :=
  { s with ras := { s.ras with hdrA := none, hdrB := none }, hif := { s.hif with session := 0 } }

/-- Bytes of the boot flash, which FwSt keeps inverted. -/
def FwSt.flashRead (f : FwSt) (off n : Nat) : List Byte := (Cells.read f.flash off n).map fun b => ~~~b
def FwSt.flashWrite (f : FwSt) (off : Nat) (bs : List Byte) : FwSt := { f with flash := Cells.write f.flash off (bs.map fun b => ~~~b) }

/-- A range of the boot flash erased: every bit 1. DESIGN CHOICE, safe (log 59). -/
def FwSt.flashErase (f : FwSt) (off n : Nat) : FwSt := { f with flash := Cells.clear f.flash off n }

/-- Base of an image's region: 0 A, 1 B (R402). -/
def imageBase (r : Nat) : Nat := 0x100000 + r * 0x3000000

/-- The image of an update that ends before its result becomes invalid: its header is erased (R405, R512). DEDUCED, unsafe (log 62). -/
def State.dropUpdate (s : State) : State :=
  match s.sec.update with
  | some u => if u.result.isSome then s else { s with fw := s.fw.flashErase (imageBase u.region) 4096 }
  | none => s

/-- A value returned to the sender of a read or a message. DESIGN CHOICE, safe (log 30). DEDUCED, unsafe (log 63). -/
def State.secAnswer (s : State) (status : Nat) (bs : List Byte) : State := { s with reply := toLe 4 status ++ bs }

/-- DENIED with its reason (R504). -/
def State.secDenied (s : State) (reason : Nat) : State := s.secAnswer mbDenied (toLe 4 reason)

/-- Whether a token is valid (R505): signature, HUB_ID, TYPE, TARGET, the nonce of the last CHALLENGE. DEDUCED, unsafe (log 63). -/
def State.tokenOk (s : State) (typ target : Nat) (t : List Byte) : Bool :=
  decide (t.length = 64 + 2820) && fieldLe t 0 1 = typ && fieldLe t 1 1 = target && fieldLe t 4 8 = s.fuses.hubId.toNat &&
  (match s.sec.nonce with | some n => fieldLe t 12 32 = n.toNat | none => false) &&
  Config.xmssVerify s.fuses.authPk (Config.shake256 (t.take 64)) (t.drop 64)

/-- A token's nonce is used (R505). DEDUCED, unsafe (log 63). -/
def State.useToken (s : State) : State := { s with sec := { s.sec with nonce := none } }

/-- A failed token (R505, R513). -/
def State.tokenFailed (s : State) (typ : Nat) : State :=
  (({ s with sec := { s.sec with tokenFail := s.sec.tokenFail + 1 } }).event procSP 11 3 [typ, 1]).secDenied 1

/-- DEBUG_SET (R498, R499, R500): the state with its answer, and whether a warm start follows. DEDUCED, unsafe (log 63). -/
def State.debugSet (s : State) (level : Nat) (token : List Byte) : State × Bool :=
  let l := s.fuses.lifecycle
  if s.procHeld procSP then (s.secAnswer mbFailed [], false)
  else if 2 < level then (s.secAnswer mbArg [], false)
  else if level ≤ s.sec.level || level = 1 then ((s.setLevel level).secAnswer mbOk [], false)
  else if l = 2 then (s.secDenied 5, false)
  else if s.job.state ≠ 0 then (s.secAnswer mbState [], false)
  else if l ≠ 0 && !s.tokenOk 1 2 token then (s.tokenFailed 1, false)
  else
    let s := if l = 0 then s else s.useToken
    (({ s with sec := { s.sec with raise := true } }).secAnswer mbAccepted [], true)

/-- The DEBUG_SET requests that a start has held back (R498). DEDUCED, unsafe (log 64). -/
def State.serveDebug (s : State) : State × Bool :=
  let hs := s.sec.held
  hs.foldl (fun (x : State × Bool) h => let y := x.1.debugSet h.1 h.2; (y.1, x.2 || y.2)) ({ s with sec := { s.sec with held := [] } }, false)

end Sys2Proof.Machine
end

