-- ==== Sys2Proof/Machine/StepOps.lean ====
section
/-! DEFINITION. The step program: claiming batches, splitting micro-batches, the end of a step (R328, R335, R419, R420). -/

namespace Sys2Proof.Machine

/-- The outcome of a queue entry whose effects are done (R378, R388). -/
def State.sqeDone (s : State) (q : Nat) (seq : W32) (code done : Nat) : State :=
  let i : QId := Fin.ofNat 64 q
  let x := s.hif.queues[i]
  { s with hif := { s.hif with queues := s.hif.queues.set i { x with entries := x.entries.map fun (e : Sqe) =>
      if e.seq = seq then { e with code := some code, done := done } else e } } }

/-- Whether a batch header is good: NMB 1 to 64 and no entry past LEN (R419). -/
def State.batchOk (s : State) (b : BatchRef) : Bool :=
  let n := s.mem.le b.addr 1
  decide (1 ≤ n ∧ n ≤ 64) && (List.range n).all fun i =>
    decide (s.mem.le (b.addr + 0x40 + 16 * i) 4 + s.mem.le (b.addr + 0x44 + 16 * i) 4 ≤ b.len)

/-- The claim of the next batch of a ring: bad ones complete with BAD_DESC and are skipped (R419). -/
def State.claimRing (ring : Nat) : Nat → State → Option BatchRef × State
  | 0, s => (none, s)
  | n + 1, s =>
    match s.job.rings.find? fun x => x.1 = ring with
    | none => (none, s)
    | some (_, b) =>
      let ok := s.batchOk b
      let rest := s.job.rings.eraseP fun x => x.1 = ring
      let s := ({ s with job := { s.job with rings := rest } }).sqeDone b.q b.seq (if ok then stOk else stBadDesc) 0
      if ok then (some b, s) else State.claimRing ring n s

/-- The claims of a step, ring by ring; false while one is empty (R420). -/
def State.claimAll (s : State) : Bool × State :=
  let rs := (s.job.cfg.map (·.ringsUsed)).getD []
  let have' := fun (s : State) (r : Nat) => s.job.claimed.any fun b => b.ring = r
  let s := rs.foldl (fun s r =>
    if have' s r then s
    else
      match State.claimRing r s.job.rings.length s with
      | (some b, s) => { s with job := { s.job with claimed := s.job.claimed ++ [b] } }
      | (none, s) => s) s
  (rs.all (have' s), s)

/-- Micro-batches of a claimed batch (R419). -/
def State.microsOf (s : State) (b : BatchRef) : List Micro :=
  (List.range (s.mem.le b.addr 1)).map fun i =>
    let f := fun o => s.mem.le (b.addr + 0x40 + 16 * i + o) 4
    ⟨b.addr, f 0, f 4, f 8, f 12⟩

/-- The lower median of the LEN of micro-batches (R335). -/
def lowerMedian (xs : List Nat) : Nat :=
  let sorted := xs.foldr (fun x l => l.filter (fun y => y < x) ++ x :: l.filter (fun y => x ≤ y)) []
  (sorted[(sorted.length - 1) / 2]?).getD 0

/-- A micro-batch cut into k parts, as even in samples and LEN as whole samples allow (R335). -/
def Micro.parts (m : Micro) (k : Nat) : List Micro :=
  (List.range k).map fun i =>
    let cut := fun (n j : Nat) => n * j / max 1 k
    { m with len := cut m.len (i + 1) - cut m.len i, nsamp := cut m.nsamp (i + 1) - cut m.nsamp i, bytes := cut m.bytes (i + 1) - cut m.bytes i,
             off := m.off + cut m.bytes i }

/-- The split of long micro-batches: list, splits, refusals (R335). DEDUCED, unsafe (log 87). -/
def splitMicros (ratio : Nat) (ms : List Micro) : List Micro × Nat × Nat :=
  let med := lowerMedian (ms.map (·.len))
  (ms.foldl (fun (a : (List Micro × Nat × Nat) × Nat) m =>
    let ((out, n, skip), total) := a
    if med ≠ 0 && ratio * med < m.len then
      let k := min (ceilDiv m.len med) (65 - total)
      if k < 2 then ((out ++ [m], n, skip + 1), total) else ((out ++ m.parts k, n + 1, skip), total + k - 1)
    else ((out ++ [m], n, skip), total)) (([], 0, 0), ms.length)).1

/-- Micro-batches of the step from its claimed batches, split where the job permits it (R335, R345). -/
def State.setMicros (s : State) : State :=
  let ms := (s.job.claimed.map s.microsOf).flatten
  let cfg := s.collCel[(0 : Fin 4)].cfg.toNat
  let r := bits cfg 19 16
  let (out, n, skip) := if bit cfg 20 then splitMicros (if r < 2 then 4 else r) ms else (ms, 0, 0)
  { s with job := { s.job with micros := out },
           collCel := s.collCel.map fun (e : CollCel) => { e with split := e.split + BitVec.ofNat 64 n, skip := e.skip + BitVec.ofNat 64 skip } }

/-- The runtime tables as the job copy gives them: descriptors, shard tables and the layer table; without an intact copy they stand as the buddy's set
of the last step holds them (R468). DESIGN CHOICE, unsafe (log 89). -/
def State.rewriteTables (s : State) : State :=
  match s.ras.jobCopy with
  | some c =>
    if s.ras.caveOn && s.ras.caveOk then
      { s with mem := s.mem.loadJobTables c, job := { s.job with layers := jobLayers c } }
    else s
  | none => s

/-- Before a step: components of the firmware region, and after a failure the tables of the runtime region, written again where
they held uncorrectable content (R468). -/
def State.healFirmware (s : State) : State :=
  let s := if s.job.uncorrRuntime then s.rewriteTables else s
  let m := s.mem
  let bad := fun (l : Nat) =>
    match s.place (128 * l) with
    | .hbm 0 _ => true
    | .hbm 1 _ => s.job.uncorrRuntime
    | _ => false
  { s with mem := { m with uncorr := m.uncorr.filter fun l => !bad l }, fw := { s.fw with hbmBad := [] }, job := { s.job with uncorrRuntime := false } }

/-- Configuration that takes effect at a step start (R220, R276, R345, R486). -/
def State.applyConfigs (s : State) : State :=
  { s with emb := s.emb.map fun (e : EmbSt) => { e with cfg := e.cfgNext, filter := [], replicas := [] },
           upd := s.upd.map fun (u : UpdSt) => { u with cfg := u.cfgNext },
           ras := { s.ras with cfg := s.ras.cfgNext },
           collCel := s.collCel.map fun (e : CollCel) => { e with cfg := e.cfgNext },
           cores := s.cores.map fun (c : Core) => { c with ctl := { c.ctl with ueStep := 0 } } }

/-- The scale record of a completed step (R150). -/
def State.endScale (s : State) (govf : Bool) (ftz total : Nat) : State :=
  let p := qpProc ((s.leader).getD 0)
  let (x, bound) := s.job.scale.endStep govf ftz total
  ({ s with job := { s.job with scale := x } }).logRec p 0x0004
    [s.job.step.toNat, x.exp, x.clean, bitAt govf 0, s.job.rewinds, bitAt bound 0]

/-- The end of a completed step (R150, R156, R158, R420, R474, R475). -/
def State.endStep (s : State) (govf : Bool) (ftz total : Nat) : State :=
  let p := qpProc ((s.leader).getD 0)
  let step := s.job.step.toNat
  let s := if s.job.scale.probe = 0 then s.promote p else s
  let s := (s.swapTelemetry.dropAllReplicas).endScale govf ftz total
  let s := ({ s with job := { s.job with frozen := s.job.dirty, dirty := [] } }).startDelta step
  let j : JobSt := { s.job with
    step := s.job.step + 1, phase := 0, attempts := 0, claimed := [], micros := [], ready := [], doneCel := [], committed := [],
    skipLog := [], govf := false, rewinds := 0, failed := false, retry := false }
  ({ s with job := j }).boundary

end Sys2Proof.Machine
end

