-- ==== Sys2Proof/Machine/PowerOps.lean ====
section
/-! DEFINITION. Power states: entering P3 and P4, the protect sequence, thermal trip, what each loses (R25 to R31, R426 to R442, R461). -/

namespace Sys2Proof.Machine

/-- PSTATE as the register shows it (R428, R443): P2 while a Vat die is gated, else P1 while something requires it. DEDUCED, unsafe (log 44). -/
def State.pstateNow (s : State) : Nat :=
  if s.pwr.pstate ≠ 0 then s.pwr.pstate
  else if (List.finRange 4).any fun v => s.pwr.gated[v] then 2
  else if s.needsP1 then 1 else 0

/-- A change of power state told to the management path by sensor 0x0100 (R509, R510). -/
def State.tellPower (s : State) (old : Nat) : State := if s.pstateNow = old then s else s.mgmtEvent 0x0100 s.pstateNow

/-- START_STATUS.STAGE changed, with its sensor event (R464, R509). -/
def State.setStage (s : State) (n : Nat) : State :=
  if s.start.stage = n then s else ({ s with start := { s.start with stage := n } }).mgmtEvent 0x0106 n

/-- READY changed, with its sensor event (R459, R509). -/
def State.setReady (s : State) (b : Bool) : State :=
  if s.start.ready = b then s
  else ({ s with start := { s.start with ready := b }, hif := { s.hif with ready := b } }).mgmtEvent 0x0101 (bitAt b 0)

/-- Operations in flight between units and modules are gone. -/
def State.dropTraffic (s : State) : State :=
  { s with gathers := [], gsubs := [], gparts := [], grads := [], gacks := [], shardReqs := [], shardReps := [],
           coll := { s.coll with colls := [], joins := [], unacked := [], reshard := false },
           dl := { s.dl with deliv := [], held := [], opened := [], fwd := [] },
           fab := { s.fab with inq := [], deliv := [], asm := [], held := [], reqs := [], locals := [], tagWait := [], switch := none, heldSw := [], detached := [] } }

/-- Every accepted operation ends with an outcome. -/
def State.endAllOps (s : State) (code : Nat) : State := s.mbx.ops.foldl (fun s o => s.finishOp o code) s

/-- A core after VCORE has been off: registers, stores, ring and instruction memory are lost; whether it is in service and its fuse state
stay (R426). -/
def Core.powerLost (c : Core) : Core := { Core.zero with ctl := { Core.zero.ctl with enabled := c.ctl.enabled, fenced := c.ctl.fenced } }

/-- VCORE off (R426, R429, R440): what had not finished has failed, the cores' state is lost, Vat-die links are DOWN. -/
def State.vcoreOff (s : State) : State :=
  let ran := (List.finRange 256).any fun c => s.cores[c].ctl.run
  let s := if ran then s.failStep 429 else s
  let mods := s.dl.mods.map fun x => if x.1 / 16 < 12 then (x.1, { x.2 with state := 0, stored := [], sendq := [], l1 := false, retraining := false }) else x
  { s with cores := s.cores.map Core.powerLost, dl := { s.dl with mods := mods }, pwr := { s.pwr with gated := Vector.replicate 4 false },
           job := { s.job with shadow := [], moved := [] } }

/-- Fabric ports DOWN (R426, R440). DEDUCED, unsafe (log 46). -/
def State.portsDown (s : State) : State := (List.finRange 12).foldl (fun s p => s.portState p 0) s

/-- Entry into P3 (R426 to R429): Vat dies off, units and engines off, pinned partitions lost. -/
def State.enterP3 (s : State) : State :=
  let old := s.pstateNow
  let s := (s.portsDown.vcoreOff).dropTraffic
  let s := { s with mem := (s.mem.zeroRange pinBase (4 * gibi)), collCel := s.collCel.map fun (e : CollCel) => { e with leases := [] },
                    upd := s.upd.map fun (u : UpdSt) => { u with run := none, work := 0, workReady := false },
                    pwr := { s.pwr with pstate := 3, ride := false, protect := none, aux := !s.inp.inputOk } }
  (s.setReady false).tellPower old

/-- What P4 leaves of the fabric block: the root's sample and the inputs of the ports (R426, R461). -/
def FabSt.powerLost (f : FabSt) : FabSt :=
  { FabSt.zero with root := f.root, wire := f.wire, ports := f.ports.map fun (x : Port) => { Port.zero with optReady := x.optReady } }

/-- Memory in P4 (R175, R426, R461): HBM and pinned content is lost and read next after a start has written zeros; the cave is kept, the
dirty lines of its row caches are lost; the enable mask of the cave ports is kept (R193). -/
def MemSt.powerLost (m : MemSt) : MemSt :=
  let m := m.loseDirty fun a => caveBase ≤ a
  { MemSt.zero with
    bytes := m.bytes.filter fun c => caveBase ≤ c.1
    uncorr := m.uncorr.filter fun l => caveBase ≤ 128 * l
    undef := m.undef.filter fun u => caveBase ≤ u.1
    host := m.host
    cfg := { MemCfg.zero with caveShadow := m.cfg.caveShadow, caveMask := m.cfg.caveMask, cap := m.cfg.cap, caveMap := m.cfg.caveMap } }

/-- The job's checkpoints as the cave keeps them over P4; marks and RAS_CFG stay on the management rail (R426, R461, R469). -/
def RasSt.powerLost (r : RasSt) : RasSt :=
  { RasSt.zero with cfg := r.cfg, cfgNext := r.cfgNext, hdrA := r.hdrA, hdrB := r.hdrB, jobCopy := r.jobCopy, base := r.base, deltas := r.deltas,
                    areaBase := r.areaBase, areaGib := r.areaGib, pcMark := r.pcMark, hbmLost := true,
                    csCe := r.csCe, csUe := r.csUe, hbmCe := r.hbmCe, hbmUe := r.hbmUe, fences := r.fences, rollback := r.rollback,
                    restores := r.restores, splits := r.splits, flushInc := r.flushInc, deltaWait := r.deltaWait }

/-- Entry into P4 (R426, R461): all that the management rail does not hold is lost; `stage` is what START_STATUS shows. DEDUCED, unsafe (log 46). -/
def State.enterP4 (s : State) (stage : Nat) : State :=
  let old := s.pstateNow
  let s := (s.endAllOps mbFailed).detachSession 2
  let s := if s.job.state = 0 then s else s.mgmtEvent 0x0104 0
  let d := s.dl
  let s := { s with
    cores := Vector.replicate 256 Core.zero
    mem := s.mem.powerLost
    emb := Vector.replicate 4 EmbSt.zero
    press := Vector.replicate 4 PressSt.zero
    upd := Vector.replicate 4 UpdSt.zero
    collCel := Vector.replicate 4 CollCel.zero
    coll := CollSt.zero
    fab := s.fab.powerLost
    dl := { DlSt.zero with cfg := d.cfg, cfgNow := d.cfgNow, mods := d.mods.map fun (x : Nat × DlMod) => (x.1, { DlMod.zero with fuseBad := x.2.fuseBad }) }
    hif := { HifSt.zero with session := s.hif.session, cause := s.hif.cause, perstLow := s.hif.perstLow }
    cave := { CaveSt.zero with ports := s.cave.ports.map fun (x : CavePortSt) => { CavePortSt.zero with pwrOk := x.pwrOk } }
    fw := { s.fw with hbmBad := [], procs := Vector.ofFn fun (i : Fin 10) => { s.fw.procs[i] with halted := decide (i.val = 0) && s.fw.procs[i].halted } }
    log := { s.log with ringUp := false, base := 0, early := if s.log.ringUp then [] else s.log.early }
    job := JobSt.zero
    ras := s.ras.powerLost
    pwr := { s.pwr with pstate := 4, sag := false, ride := false, protect := none, aux := false, coolReq := 0, hot := [], standby := false,
                        gated := Vector.replicate 4 false }
    start := { s.start with celUp := false, settled := false, asking := false, cores := 0, cavePorts := 0 } }
  (((s.dropTraffic).setReady false |>.setStage stage).tellPower old).serveDebug.1

/-- A thermal trip (R29, R30). -/
def State.trip (s : State) (sensor reading : Nat) : State :=
  let s := (s.event procMP 9 4 [sensor, reading]).mgmtEvent 0x0105 1
  ({ s with inp := { s.inp with thermTrip := true } }).enterP4 2

/-- The protect sequence begins (R27, R440): dispatch stops, update units are told to stop. A re-shard under way is given up (R341). -/
def State.startProtect (s : State) (toP4 : Bool) : State :=
  match s.pwr.protect with
  | some p => { s with pwr := { s.pwr with protect := some { p with toP4 := p.toP4 || toP4 } } }
  | none =>
    let s := { s with pwr := { s.pwr with protect := some ⟨false, toP4⟩, ride := false, protectCnt := s.pwr.protectCnt + 1 },
                      upd := s.upd.map fun (u : UpdSt) => { u with stopReq := true } }
    if s.job.reshard.isSome then ({ s with job := { s.job with reshard := none } }).endOpOf 0x0017 mbFailed else s

/-- Steps 3 and 4 (R440): collective engines and flushes stop, ports go DOWN, VCORE goes off. DESIGN CHOICE, safe (log 47). -/
def State.protectFlush (s : State) : State :=
  match s.pwr.protect with
  | some p =>
    if p.flushing then s
    else
      let s := (s.portsDown.vcoreOff).dropTraffic
      { s with pwr := { s.pwr with protect := some { p with flushing := true } }, upd := s.upd.map fun (u : UpdSt) => { u with stopped := true, stopReq := false } }
  | none => s

/-- Whether steps 1 and 2 are over: every core has halted, every update unit has stopped (R440). -/
def State.protectReady (s : State) : Bool :=
  ((List.finRange 256).all fun c => let x := s.cores[c]; !x.ctl.run || x.ctl.stopped || x.ctl.fault || !x.seg.isOpen) &&
  ((List.finRange 4).all fun n => s.upd[n].stopped || s.upd[n].run.isNone)

/-- The sequence goes on once steps 1 and 2 are over. DEDUCED, unsafe (log 34). -/
def State.protectAdvance (s : State) : State := if s.pwr.protect.isSome && s.protectReady then s.protectFlush else s

/-- The end of the flush (R440, R477): the delta in flight is complete, or the flush incomplete; a failed step is counted, the job parks,
the module enters P3 or P4. DEDUCED, unsafe (log 48). -/
def State.protectEnd (s : State) (done : Bool) : State :=
  match s.pwr.protect with
  | none => s
  | some p =>
    let s := s.protectFlush
    let s := match s.ras.deltas.find? fun d => !d.ended with
      | some d =>
        if done then s.endDelta d
        else
          let n := d.imgs.foldl (fun (a : Nat) (i : GroupImg) => a + i.size) 0
          let s := s.event (qpProc (s.servingQp 0)) 10 1 [d.step, n, 1]
          { s with ras := { s.ras with inflight := false, flushInc := s.ras.flushInc + 1, deltas := s.ras.deltas.filter fun x => x.ended },
                   pwr := { s.pwr with flushInc := s.pwr.flushInc + 1 } }
      | none => if done then s else { s with ras := { s.ras with flushInc := s.ras.flushInc + 1 }, pwr := { s.pwr with flushInc := s.pwr.flushInc + 1 } }
    let s := if s.job.failed && 1 ≤ s.job.phase && s.job.phase ≤ 3 then s.failNow s.job.govf true else s
    let s := if s.job.state = 2 then ({ s with job := { s.job with state := 3 } }).mgmtEvent 0x0104 3 else s
    if p.toP4 then s.enterP4 2 else s.enterP3

/-- A requirement of P3 met (R429, R442): protect first while the job runs, also during a ride-through. -/
def State.needP3 (s : State) : State :=
  if !s.running then s
  else if s.job.state = 2 || s.pwr.ride then (s.startProtect false).protectAdvance
  else if s.pwr.protect.isSome then s
  else s.enterP3

/-- A start under way is abandoned (R460): P4, `cause` for the start that follows. -/
def State.abandonStart (s : State) (cause : Nat) : State := ({ s with start := { s.start with nextCause := cause } }).enterP4 2

/-- Whether a start from P4 is under way. -/
def State.starting (s : State) : Bool := decide (3 ≤ s.start.stage ∧ s.start.stage ≤ 8)

/-- The failing condition of R452 with the lowest number (START_STATUS.WAIT); 0 when all hold. -/
def State.waitCond (s : State) : Nat :=
  if !s.fw.selected then 1 else if s.inp.thermTrip then 2 else if !s.inp.refOk then 3 else if !s.inp.inputOk || s.inp.overvolt || decide (59000 < s.inp.volt) then 4
  else if !s.inp.pwrEn then 5 else if !s.inp.coolOk then 6 else 0

end Sys2Proof.Machine
end

