-- ==== Sys2Proof/Machine/Cave.lean ====
section
/-! DEFINITION. The cave ports (R22, R177, R178, R392, R393, R396, R473). -/

namespace Sys2Proof.Machine

/-- The checkpoints of the cave are gone: no header is found any more (R461, R473, R481). -/
def RasSt.dropCave (r : RasSt) : RasSt := { r with hdrA := none, hdrB := none, jobCopy := none, base := [], deltas := [] }

/-- A port that fails takes the cave checkpoint with it until the next start (R473); a delta in flight is given up. -/
def State.caveLost (s : State) : State :=
  if !(s.ras.caveOn && s.ras.caveOk) then s
  else
    let s : State := { s with ras := { s.ras with caveOk := false, inflight := false, deltas := s.ras.deltas.filter fun d => d.ended } }
    (s.event (qpProc (s.servingQp 0)) 10 5 [0]).pumpReshard

/-- A change of a port's record. -/
def State.setCavePort (s : State) (k : CaveId) (p : CavePortSt) : State := { s with cave := { s.cave with ports := s.cave.ports.set k p } }

/-- A port FAILED: firmware asserts its CXL_PERST_N (R393). -/
def State.failCavePort (s : State) (k : CaveId) : State :=
  (s.setCavePort k { s.cave.ports[k] with state := 5, perst := true }).caveLost

/-- All content of the cave is lost: free bytes, no checkpoint. DEDUCED, unsafe (log 53). -/
def State.loseCave (s : State) : State :=
  let n := s.free
  let m := s.mem
  let s : State := { s with mem := { m with bytes := m.bytes.filter (fun c => c.1 < caveBase), undef := cutUndef m.undef caveBase 0x80000000000 ++ [(caveBase, 0x80000000000, n)],
                                            uncorr := m.uncorr.filter fun l => 128 * l < caveBase } }
  ({ s with ras := s.ras.dropCave }).drawn 1

/-- What the ports contribute: UP, whole GiB, in ascending order (R177). -/
def CaveSt.parts (c : CaveSt) : List CavePart := ((List.finRange 4).filter fun k => c.ports[k].state = 2).map fun k => ⟨k, c.ports[k].cap⟩

/-- The map and CAVE_SIZE fixed once no port trains any more (R177, R453); content written under another map is lost. -/
def State.fixCave (s : State) : State :=
  if (List.finRange 4).any fun k => s.cave.ports[k].state = 1 then s
  else
    let ps := s.cave.parts
    let total := ps.foldl (fun a p => a + p.gib) 0
    let s := if s.mem.cfg.caveMap = ps || s.mem.cfg.caveMap.isEmpty then s else s.loseCave
    let mask := (List.finRange 4).foldl (fun a k => a + bitAt (ps.any fun p => p.port = k) k.val) 0
    { s with mem := { s.mem with cfg := { s.mem.cfg with caveMap := ps, caveSize := min total 8192 } }, start := { s.start with cavePorts := mask } }

/-- Why a device is refused (R392, R393, R396). -/
def caveRefusal (f : CaveFacts) : Nat :=
  bitAt (!f.type3) 0 + bitAt f.cache 1 + bitAt f.multi 2 + bitAt (decide (f.volatileMib = 0)) 3 + bitAt (decide (f.decoders < 2)) 4

/-- The end of a port's training: UP, REFUSED, or FAILED where the link does not come up. DEDUCED, unsafe (log 53). -/
def CavePortSt.trained (p : CavePortSt) (f : CaveFacts) : CavePortSt :=
  let r := caveRefusal f
  if !f.up then { p with state := 5, perst := true }
  else if r ≠ 0 then { p with state := 4, refuse := r, width := f.width % 32, rate := f.half }
  else { p with state := 2, width := f.width % 32, rate := f.half, cap := f.volatileMib / 1024 % 65536, decoders := true }

/-- Ports at the beginning of the cave step (R453): absent, disabled by MEM_CAVE, or training with CXL_PERST_N released. -/
def State.startCave (s : State) : State :=
  let on := fun (k : CaveId) => s.mem.cfg.caveMask.getLsbD k.val
  ({ s with cave := { CaveSt.zero with ports := Vector.ofFn fun (k : CaveId) =>
      let w := s.cave.ports[k].pwrOk
      { CavePortSt.zero with pwrOk := w, perst := !(w && on k), state := if !w then 0 else if on k then 1 else 3 } } }).fixCave

/-- CAVE_PORT_TIMEOUT (R392): A CXL.mem request unanswered for 2 ms makes the cave port FAILED. -/
def execCavePortTimeout (k : CaveId) (s : State) : Res :=
  onlyIf (s.pwr.pstate ≤ 3 && s.cave.ports[k].state = 2) s fun s =>
    .next (({ s with cave := { s.cave with timeout := s.cave.timeout + 1 } }).failCavePort k)

/-- CXL_LINK_DOWN (R393): A cave link going down makes the port FAILED. -/
def execCxlLinkDown (k : CaveId) (s : State) : Res :=
  onlyIf (s.pwr.pstate ≤ 3 && s.cave.ports[k].state = 2) s fun s => .next (s.failCavePort k)

/-- CXL_EVENT (R393): Firmware reads an expander event record and logs it. -/
def execCxlEvent (k : CaveId) (data : List Byte) (s : State) : Res :=
  onlyIf (s.pwr.pstate ≤ 3 && s.cave.ports[k].state = 2) s fun s => .next (s.event procMP 0 5 [k.val, leNat (data.take 29)])

/-- CAVE_PWR_OK_FALL (R22): CAVE_PWR_OK falls on a cave port, so the port is treated as absent, CXL_PERST_N is asserted
and the protect flush no longer writes to it. DEDUCED, unsafe (log 53). -/
def execCavePwrOkFall (k : CaveId) (s : State) : Res :=
  let p := s.cave.ports[k]
  onlyIf p.pwrOk s fun s =>
    let s := (s.setCavePort k { p with pwrOk := false, perst := true, state := if s.pwr.pstate ≤ 3 then 0 else p.state }).caveLost
    .next (if s.mem.cfg.caveMap.any fun x => x.port = k then s.loseCave else s)

/-- CAVE_PORT_TRAINING_DONE (R392): After CXL_PERST_N release a cave port finds its expander ready, trains or is
refused, has its HDM decoders programmed, and CAVE_SIZE is fixed. DEDUCED, unsafe (log 53). -/
def execCavePortTrainingDone (k : CaveId) (f : CaveFacts) (s : State) : Res :=
  onlyIf (s.starting && s.cave.ports[k].state = 1) s fun s => .next ((s.setCavePort k (s.cave.ports[k].trained f)).fixCave)

end Sys2Proof.Machine
end

