-- ==== Sys2Proof/Machine/Checkpoint.lean ====
section
/-! DEFINITION. Commands of the checkpoints (R471 to R485). -/

namespace Sys2Proof.Machine

/-- Whether a message is a CKPT packet of a kind: 0 DATA, 1 HOLD, 2 STATE, 3 GO. -/
def isCkpt (k : Nat) (m : Msg) : Bool :=
  match m with
  | .ckpt (.data _ _) => k = 0
  | .ckpt (.hold _) => k = 1
  | .ckpt (.state _ _) => k = 2
  | .ckpt (.go _ _) => k = 3
  | _ => false

/-- The CKPT_ACK to a packet (R476). -/
def State.ackCkpt (s : State) (p : Packet) (code : Nat) : State := s.inject (p.respond s.fab.faddr.toNat stOk (.ckptAck code))

/-- DELTA_COMPLETE (R475): A delta's END entry is written back and the header records NEWEST; what the step-end barrier has waited for it counts. DESIGN CHOICE, safe (log 9). -/
def execDeltaComplete (s : State) : Res :=
  onlyIf (s.ras.inflight && s.ras.caveOn && s.ras.caveOk && s.running) s fun s =>
    match s.ras.deltas.find? fun d => !d.ended with
    | none => .next s
    | some d =>
      let used := s.ras.deltas.foldl (fun a x => a + x.imgs.foldl (fun b i => b + i.size) 64) 0
      let straight := s.ras.full && s.ras.newest.isNone && s.ras.base.isEmpty
      if !straight && decide (s.baseBytes + gibi < used) then .next s
      else
        let s := if s.job.phase = 5 then
            ({ s with ras := { s.ras with deltaWait := s.ras.deltaWait + (Config.fresh s.free &&& 0xffffffff#64) } }).drawn 1
          else s
        .next (s.endDelta d).pumpReshard

/-- DELTA_MERGE_DONE (R478): An old delta has been merged into the base and freed. -/
def execDeltaMergeDone (s : State) : Res :=
  onlyIf (s.ras.caveOn && s.ras.caveOk && s.running) s fun s =>
    match s.ras.deltas, s.ras.newest with
    | d :: ds, some n =>
      if d.ended && d.step + 2 ≤ n then
        let keep := s.ras.base.filter fun i => !d.imgs.any fun x => x.key = i.key
        .next ({ s with ras := { s.ras with base := keep ++ d.imgs, deltas := ds, merged := d.step } }).putHeader
      else .next s
    | _, _ => .next s

/-- CKPT_DATA (R476): A buddy checkpoint DATA packet is written into the reserve or refused. -/
def execCkptData (k : Nat) (s : State) : Res :=
  s.onDelivered k (isCkpt 0) fun s p =>
    match p.msg with
    | .ckpt (.data off bs) =>
      let (base, size) := s.reserve
      if s.buddyOf p.src = some s.fab.faddr.toNat && decide (off + bs.length ≤ size) then
        .next (({ s with mem := (s.mem.write (base + off) bs).writeBack (base + off) bs.length }).ackCkpt p stOk)
      else .next (s.ackCkpt p stUnmapped)
    | _ => .next s

/-- CKPT_ACK (R475): A checkpoint acknowledgement arrives, completing a buddy copy. -/
def execCkptAck (k : Nat) (s : State) : Res :=
  s.onDelivered k (fun m => match m with | .ckptAck _ => true | _ => false) fun s p =>
    match p.msg with
    | .ckptAck code =>
      match s.ras.buddyDue with
      | none => .next s
      | some step =>
        if p.tag ≠ 1 || some p.src ≠ s.buddyOf s.fab.faddr.toNat then .next s
        else if code = stOk then .next { s with ras := { s.ras with buddyDue := none, buddyOk := true } }
        else
          .next (({ s with ras := { s.ras with buddyDue := none, buddyOk := false } }).event (qpProc (s.servingQp 0)) 10 2 [step, p.src])
    | _ => .next s

/-- HOLD (R482): A HOLD raises EPOCH, fails or commits the step, and sends STATE. -/
def execCkptHold (k : Nat) (s : State) : Res :=
  s.onDelivered k (isCkpt 1) fun s p =>
    match p.msg with
    | .ckpt (.hold e) =>
      if !s.jobLoaded || decide (e < s.ras.epoch.toNat) then .next (s.ackCkpt p stStale)
      else if e = s.ras.epoch.toNat then .next (s.ackCkpt p stOk)
      else
        let s := (({ s with ras := { s.ras with epoch := BitVec.ofNat 32 e, recovering := true, states := [], stateDue := true } }).ackCkpt p stOk).putHeader
        let s := if 1 ≤ s.job.phase ∧ s.job.phase ≤ 3 then s.failNow s.job.govf false else s
        .next s.payState
    | _ => .next s

/-- STATE (R482): Job rank 0 collects recovery records and sends GO when all are held. -/
def execCkptState (k : Nat) (s : State) : Res :=
  s.onDelivered k (isCkpt 2) fun s p =>
    match p.msg with
    | .ckpt (.state e r) =>
      if e < s.ras.epoch.toNat then .next (s.ackCkpt p stStale)
      else
        let rank := ((s.job.cfg.map (·.members)).getD []).idxOf p.src
        let s := s.ackCkpt p stOk
        .next ({ s with ras := { s.ras with states := s.ras.states.filter (fun (x : Nat × CkptRec) => x.1 ≠ rank) ++ [(rank, r)] } }).tryGo
    | _ => .next s

/-- GO (R483): A member restores to step T with the chosen scale state. -/
def execCkptGo (k : Nat) (s : State) : Res :=
  s.onDelivered k (isCkpt 3) fun s p =>
    match p.msg with
    | .ckpt (.go e r) =>
      if e < s.ras.epoch.toNat then .next (s.ackCkpt p stStale)
      else .next ((s.ackCkpt p stOk).takeGo r false)
    | _ => .next s

/-- RESTORE_COMPLETE (R483): A restore to step T finishes rewriting groups from the cave base, deltas or buddy, and the module
sets STEP to T + 1 and runs. -/
def execRestoreComplete (s : State) : Res :=
  match s.ras.restoring with
  | none => .next s
  | some (t, sc, lost) =>
    onlyIf (s.jobLoaded && s.running) s fun s =>
      let s := (s.drawn (s.reserve.2 / 2)).restoreTo t sc lost s.buddySlot
      .next ({ s with ras := { s.ras with restoring := none } }).serveBoundary

end Sys2Proof.Machine
end

