-- ==== Sys2Proof/Machine/Transfer.lean ====
section
/-! DEFINITION. Transfers, core-store copies, address-generator and instruction-memory loads (R54, R55, R73, R187 to R192, R518, R519). -/

namespace Sys2Proof.Machine

/-- A `d.xfer` slot whose descriptor holds operation `k`; with another descriptor the command does not name this issue. DESIGN CHOICE, safe (log 32). -/
def State.issueXfer (s : State) (c : CoreId) (g : Guard) (rs : SReg) (post : Option SemId) (k : Nat) : Res :=
  let d := XDesc.mk (storeRead s.cores[c].store (storeAddr (s.cores[c].regs.sget rs).toNat) 64)
  if g.holds s.cores[c].regs && d.op ≠ k then unchanged s else s.issueD c g (.async .xfer rs post)

/-- An operation of a core, when its body passes a test. -/
def State.onOp (s : State) (c : CoreId) (op : Nat) (f : Op → Res) : Res :=
  match s.cores[c].opAt op with
  | none => .next s
  | some o => f o

/-- Whether the core stores of a core's die are powered. -/
def State.storeOn (s : State) (c : CoreId) : Bool := s.vcoreOn && s.cores[c].ctl.enabled

/-- XFER_COPY (R190): d.xfer with OP COPY moves rows from source to destination. DEDUCED, unsafe (log 26). -/
def execXferCopy (c : CoreId) (g : Guard) (rs : SReg) (post : Option SemId) (s : State) : Res := s.issueXfer c g rs post 0

/-- XFER_FILL (R188): d.xfer with OP FILL writes the FILL pattern to the destination. -/
def execXferFill (c : CoreId) (g : Guard) (rs : SReg) (post : Option SemId) (s : State) : Res := s.issueXfer c g rs post 1

/-- XFER_WBACK (R188): d.xfer with OP WBACK writes back dirty lines of the destination range. -/
def execXferWback (c : CoreId) (g : Guard) (rs : SReg) (post : Option SemId) (s : State) : Res := s.issueXfer c g rs post 2

/-- XFER_WARM (R188): d.xfer with OP WARM reads the source range into its home row caches. -/
def execXferWarm (c : CoreId) (g : Guard) (rs : SReg) (post : Option SemId) (s : State) : Res := s.issueXfer c g rs post 3

/-- D_COPY (R54): Starts a copy inside the core store, or raises ARG_RANGE. -/
def execDCopy (c : CoreId) (g : Guard) (rsrc : SReg) (rdst : SReg) (rlen : SReg) (post : Option SemId) (s : State) : Res
    := s.issueD c g (.copy rsrc rdst rlen post)

/-- D_AGLD (R518): Loads and checks an address-generator descriptor. -/
def execDAgld (c : CoreId) (g : Guard) (ag : AgId) (rs : SReg) (s : State) : Res := s.issueD c g (.agld ag rs)

/-- D_IMEM (R519): Checks a descriptor and starts loading instruction memory from HBM. -/
def execDImem (c : CoreId) (g : Guard) (rs : SReg) (post : Option SemId) (s : State) : Res :=
  s.issueD c g (.async .imem rs post)

/-- XFER_COMPLETE (R190): A transfer completes, writes its status word and applies its completion post. -/
def execXferComplete (c : CoreId) (op : Nat) (s : State) : Res :=
  onlyIf (s.storeOn c) s fun s => s.onOp c op fun o =>
    match o.body with
    | .xfer raw addr done code bad => .next (if s.waitsNet c op || s.xferHeld c (XDesc.mk raw) then s else s.finishXfer c o raw addr done code bad)
    | _ => .next s

/-- D_COPY_COMPLETE (R55): A core-store copy finishes and posts. DEDUCED, safe (log 21). -/
def execDCopyComplete (c : CoreId) (op : Nat) (s : State) : Res :=
  onlyIf (s.storeOn c) s fun s => s.onOp c op fun o =>
    match o.body with
    | .copy src dst len =>
      let bs := storeRead s.cores[c].store src len
      let bs := s.openBytes (src ≠ dst && overlaps src len dst len) bs
      .next ((s.writeStoreOf c o.id dst bs).endOp c o)
    | _ => .next s

/-- IMEM_LOAD_COMPLETE (R519): An instruction-memory load finishes, marking failed bundles, and posts. -/
def execImemLoadComplete (c : CoreId) (op : Nat) (s : State) : Res :=
  onlyIf (s.storeOn c) s fun s => s.onOp c op fun o =>
    match o.body with
    | .imem src first n addr => .next ((s.loadBundles c src first addr (List.range n)).endOp c o)
    | _ => .next s

end Sys2Proof.Machine
end

