-- ==== Sys2Proof/Machine/Collectives.lean ====
section
/-! DEFINITION. Collectives, their messages, leases and streams (R317 to R345). -/

namespace Sys2Proof.Machine

/-- Issue of a collective with operation `k`: by a `d.coll` slot whose descriptor holds it, or by a queue processor (R317). DESIGN CHOICE, safe (log 32). -/
def State.issueCollOp (s : State) (src : CollSrc) (k : Nat) : Res :=
  match src with
  | .core c g rs post =>
    let d := CDesc.mk (storeRead s.cores[c].store (storeAddr (s.cores[c].regs.sget rs).toNat) 64)
    if g.holds s.cores[c].regs && d.op ≠ k then unchanged s else s.issueD c g (.async .coll rs post)
  | .qp n desc =>
    onlyIf (s.running && s.procUp (qpProc n) && desc.length = 64 && (CDesc.mk desc).op = k) s fun s => .next (s.issueColl (.qp (n % 4)) desc)

/-- Whether a stream of a collective waits for credit (R343). -/
def State.collWaits (s : State) (c : Coll) : Bool :=
  c.active && !collStops c.code && !c.spilled &&
  c.peers.any fun p => decide (p.sent < (s.fragsFor c p.rank p.faddr).length)

/-- Whether a packet carries a kind of collective message. -/
def isJoin : Msg → Bool | .coll _ _ (.join _ _ _ _) => true | _ => false
def isData : Msg → Bool | .coll _ _ (.data _ _ _ _ _) => true | _ => false
def isShardReq : Msg → Bool | .coll _ _ (.shardReq _ _ _ _ _ _ _ _ _) => true | _ => false
def isShardReply : Msg → Bool | .coll _ _ (.shardReply _ _ _ _ _ _) => true | _ => false

/-- A shard request served where it stands: none while it must wait (R329). -/
def State.answerShard (s : State) (p : Packet) : Option Packet × State :=
  match p.msg with
  | .coll comm cseq (.shardReq table version shard cel first n step lease release) =>
    match s.serveShard p.src table version shard cel first n step lease release with
    | (none, s) => (none, s)
    | (some b, s) => (some (p.respond s.fab.faddr.toNat stOk (.coll comm cseq b)), s)
  | _ => (none, s)

/-- The end of a collective of a re-shard: the next one follows, or the re-shard is abandoned when it failed (R338, R341). -/
def State.afterColl (s : State) (c : Coll) : State :=
  match s.job.reshard with
  | some r => if r.cur ≠ some c.id then s else if c.code = stOk then s.pumpReshard else s.abandonReshard
  | none => s

/-- ALLREDUCE (R319): Collective operation reducing all ranks' data onto every rank. -/
def execAllreduce (src : CollSrc) (s : State) : Res := s.issueCollOp src 0

/-- REDUCE_SCATTER (R319): Collective operation leaving each rank the reduction of its chunk. -/
def execReduceScatter (src : CollSrc) (s : State) : Res := s.issueCollOp src 1

/-- ALLGATHER (R319): Collective operation giving every rank every rank's chunk. -/
def execAllgather (src : CollSrc) (s : State) : Res := s.issueCollOp src 2

/-- ALLTOALL (R319): Collective operation exchanging chunk k with rank k. -/
def execAlltoall (src : CollSrc) (s : State) : Res := s.issueCollOp src 3

/-- ALLTOALLV (R319): Collective all-to-all with per-chunk valid lengths, exchanging counts then data. -/
def execAlltoallv (src : CollSrc) (s : State) : Res := s.issueCollOp src 4

/-- PERMUTE (R339): Collective that stages sources then writes move entries to their targets. -/
def execPermute (src : CollSrc) (s : State) : Res := s.issueCollOp src 5

/-- MULTICAST (R319): Collective sending the root's data over a multicast group. -/
def execMulticast (src : CollSrc) (s : State) : Res := s.issueCollOp src 6

/-- BARRIER (R327): Collective combining barrier records over a communicator. -/
def execBarrier (src : CollSrc) (s : State) : Res := s.issueCollOp src 7

/-- SGATHER (R329): Collective gathering rows of a sharded tensor from their homes. -/
def execSgather (src : CollSrc) (s : State) : Res := s.issueCollOp src 8

/-- COLL_COMPLETE (R323): A collective completes, writes its status record and posts. -/
def execCollComplete (id : Nat) (s : State) : Res :=
  onlyIf s.running s fun s =>
    match s.collById id with
    | none => .next s
    | some c =>
      if s.collFinished c || c.code = stBadDesc then
        .next ((s.finishColl c).afterColl c)
      else .next s

/-- COLL_JOIN (R321): A peer's join carrying parameters and initial credit arrives at an engine. -/
def execCollJoin (k : Nat) (s : State) : Res :=
  onlyIf s.running s fun s => s.onDelivered k isJoin fun s p =>
    match p.msg with
    | .coll comm cseq (.join digest stamp credit counts) =>
      let s := s.receiveStamp (qpProc (s.servingQp p.srcCel)) stamp
      let j : CollJoin := ⟨comm, cseq, p.src, digest, credit, counts⟩
      match s.collOf comm cseq with
      | some c => .next ((s.takeJoin c.id j).advanceColl c.id)
      | none => .next { s with coll := { s.coll with joins := s.coll.joins ++ [j] } }
    | _ => .next s

/-- COLL_DATA (R319): A collective data packet is combined or written by the engine. -/
def execCollData (k : Nat) (s : State) : Res :=
  onlyIf s.running s fun s => s.onDelivered k isData fun s p =>
    match p.msg with
    | .coll comm cseq (.data seg off total status bytes) =>
      if 65536 ≤ p.group ∧ ¬ p.mc then .next (s.routeMc { p with mc := true, group := p.group - 65536 } none)
      else
        match s.collOf comm cseq with
        | some c => .next (s.takeData c p seg off total status bytes)
        | none => .next s.badPacket
    | _ => .next s

/-- COLL_ACK (R322): Returned stream credit arrives at an engine. -/
def execCollAck (k : Nat) (s : State) : Res :=
  onlyIf s.running s fun s => s.onDelivered k (fun m => m.typ = 0x21) fun s p =>
    match p.msg with
    | .collAck comm cseq (.ack units) =>
      let s := s.unackedSub comm cseq p.src units
      match s.collOf comm cseq with
      | some c =>
        let ps := c.peers.map fun q => if q.faddr = p.src then { q with credit := q.credit + units } else q
        .next ((s.setColl { c with peers := ps }).pushColl c.id)
      | none => .next s
    | _ => .next s

/-- COLL_SHARD_REQUEST (R330): A home Cellar serves a shard request, granting or releasing a lease. -/
def execCollShardRequest (remote : Bool) (k : Nat) (s : State) : Res :=
  onlyIf s.running s fun s =>
    if remote then
      match s.fab.deliv[k]? with
      | none => .next s
      | some p =>
        if !isShardReq p.msg then .next s
        else if !p.crcOk then .next (s.takeDeliv k).badPacket
        else
          match s.answerShard p with
          | (none, s) => .next s
          | (some r, s) => .next ((s.takeDeliv k).sendMsg r)
    else
      match s.shardReqs[k]? with
      | none => .next s
      | some p =>
        match s.answerShard p with
        | (none, s) => .next s
        | (some r, s) => .next { s with shardReqs := s.shardReqs.eraseIdx k, shardReps := s.shardReps ++ [r] }

/-- COLL_SHARD_REPLY (R329): A shard reply with UVER and rows arrives at the requester. -/
def execCollShardReply (remote : Bool) (k : Nat) (s : State) : Res :=
  onlyIf s.running s fun s =>
    if remote then s.onResponse k isShardReply
    else
      match s.shardReps[k]? with
      | none => .next s
      | some p =>
        let s := { s with shardReps := s.shardReps.eraseIdx k }
        match p.msg with
        | .coll _ _ (.shardReply table shard cel status uver rows) => .next (s.takeShard p.tag p.src table shard cel status uver rows)
        | _ => .next s

/-- LEASE_DEADLINE (R331): A lease entry reaches its deadline with COUNT above 0 and ends. -/
def execLeaseDeadline (n : CelId) (table : Nat) (step : Nat) (s : State) : Res :=
  onlyIf s.running s fun s =>
    let e := s.collCel[n]
    match e.leases.find? fun l => l.table = table && l.step = step with
    | none => .next s
    | some l =>
      let s := { s with collCel := s.collCel.set n { e with leases := e.leases.erase l, expired := e.expired + 1 } }
      .next (s.event (qpProc (s.servingQp n.val)) 7 2 [table, step, l.count])

/-- COLL_JOIN_TIMEOUT (R320): Not every member joined within COLL_TIMEOUT; the collective ends with TIMEOUT. -/
def execCollJoinTimeout (id : Nat) (s : State) : Res :=
  onlyIf s.running s fun s =>
    match s.collById id with
    | none => .next s
    | some c => if c.active && c.peers.any (fun p => !p.joined) then .next (s.setColl (c.fail 0x0f)) else .next s

/-- STREAM_STALL (R343): No stream moved for STREAM_STALL; the youngest waiting stream is spilled. -/
def execStreamStall (n : CelId) (room : Bool) (s : State) : Res :=
  onlyIf s.running s fun s =>
    match s.coll.colls.reverse.find? s.collWaits with
    | none => .next s
    | some c =>
      if room then
        let s := (s.setColl { c with spilled := true }).event (qpProc (s.servingQp n.val)) 7 4 [c.comm, c.cseq, (Config.fresh s.free).toNat]
        .next ({ s with collCel := s.collCel.set n { s.collCel[n] with spill := s.collCel[n].spill + 1 } }.drawn 1)
      else .next (s.setColl (c.fail 0x10))

end Sys2Proof.Machine
end

