-- ==== Sys2Proof/Machine/Fabric.lean ====
section
/-! DEFINITION. Ports, forwarding, remote reads and writes, time-outs (R23, R281 to R290, R298 to R306, R363, R364). -/

namespace Sys2Proof.Machine

/-- Where a port's training starts (R284, R310): held DOWN without OPT_READY or ENABLE, looped under LOOP. DEDUCED, unsafe (log 70). -/
def Port.trainState (x : Port) : Nat := if !x.optReady || !x.enable then 0 else if x.loop then 6 else 1

/-- Training of a port begins. DEDUCED, unsafe (log 70). -/
def State.trainPort (s : State) (p : PortId) : State := s.portState p s.fab.ports[p].trainState

/-- Stored frames after `ack` (R281): those up to it are acknowledged. -/
def Port.ackTo (x : Port) (ack : Nat) : Port :=
  match x.stored.findIdx? fun f => f.fseq = ack with
  | some i => { x with stored := x.stored.drop (i + 1), naks := 0 }
  | none => x

/-- The link word of a good frame (R280 to R283): ACK, credit, and on NAK the frames to replay; 16 NAKs in a row without progress retrain. -/
def State.linkWord (s : State) (i : PortId) (f : Frame) : State :=
  let x : Port := s.fab.ports[i].ackTo f.ack
  let q : Fin 8 := Fin.ofNat 8 f.cq
  let x := { x with used := x.used.set q (x.used[q] - f.cred) }
  if f.nak then
    let x : Port := { x with retry := x.retry + 1, naks := x.naks + 1 }
    if 16 ≤ x.naks then
      ({ s with fab := { s.fab with ports := s.fab.ports.set i { x with naks := 0 } } }).trainPort i
    else { s with fab := s.fab.replay i x }
  else { s with fab := s.fab.setPort i { x with naks := 0 } }

/-- The next run of a frame's stream: a packet is complete with its last unit, and its CRC is computed (R285); a run that continues nothing is
nothing. -/
def takeChunk (a : Option (Packet × Nat) × List Packet) (c : Chunk) : Option (Packet × Nat) × List Packet :=
  let had := if c.off = 0 then some 0 else match a.1 with | some (p, n) => if p = c.pkt && n = c.off then some n else none | none => none
  match had with
  | none => (none, a.2)
  | some n =>
    if n + c.n < c.pkt.units then (some (c.pkt, n + c.n), a.2)
    else (none, if c.pkt.msg.typ = 0 then a.2 else a.2 ++ [{ c.pkt with crcErr := c.pkt.crc ^^^ c.crc }])

/-- A frame discarded: a NAK is due (R281). -/
def State.nakFrame (s : State) (i : PortId) (x : Port) : State := { s with fab := s.fab.setPort i { x with nakOut := true, ackDue := true } }

/-- A frame received (R281): delivered in order, or discarded with all that follow until the replay. -/
def State.receiveFrame (s : State) (i : PortId) (f : Frame) : State :=
  let x := s.fab.ports[i]
  let x := { x with fecCorr := x.fecCorr + BitVec.ofNat 64 f.corrected, fecUncorr := x.fecUncorr + BitVec.ofNat 64 f.uncorrectable }
  if !f.good then s.nakFrame i x
  else if f.fseq = 4095 then ({ s with fab := { s.fab with ports := s.fab.ports.set i x } }).linkWord i f
  else if f.fseq ≠ x.rxSeq then s.nakFrame i x
  else
    let (cur, ps) := f.chunks.foldl takeChunk (x.rxCur, [])
    let n := ps.foldl (fun a p => a + 40 + p.len) 0
    let y := { x with rxSeq := (x.rxSeq + 1) % 4095, nakOut := false, ackDue := true, rxCur := cur, rxBytes := x.rxBytes + BitVec.ofNat 64 n }
    ({ s with fab := { s.fab with ports := s.fab.ports.set i y, inq := s.fab.inq ++ ps.map fun p => (i.val, p) } }).linkWord i f

/-- Packet `k` taken from the input queue; its buffer's credit goes back in a link word (R290). DESIGN CHOICE, safe (log 73). -/
def State.takeInq (s : State) (k : Nat) : State :=
  match s.fab.inq[k]? with
  | none => s
  | some (i, p) =>
    let i : PortId := Fin.ofNat 12 i
    let x := s.fab.ports[i]
    { s with fab := ({ s.fab with inq := s.fab.inq.eraseIdx k }).setPort i { x with owed := x.owed.set p.queue (x.owed[p.queue] + p.units) } }

/-- HOP_LIMIT in force; 0 is treated as 65,535 (R309). -/
def FabSt.hopLimit (f : FabSt) : Nat := if f.hoplim = 0 then 65535 else f.hoplim.toNat

/-- A packet in transit at this module (R287, R298, R300, R305). -/
def State.forward (s : State) (i : Nat) (p : Packet) : State :=
  let arr := some (i / 4)
  let here := !p.mc && decide (p.dst = s.fab.faddr.toNat)
  if here then
    match p.msg with
    | .other _ _ _ _ => s.badPacket
    | _ => if p.crcOk then s.route p arr else s.badPacket
  else if s.fab.hopLimit ≤ p.hops then
    ({ s with fab := { s.fab with hopDrop := s.fab.hopDrop + 1 } }).event (s.lpFor (i / 3)) 1 3 [p.msg.typ, p.cls, p.src, p.dst]
  else
    let p := { p with hops := p.hops + 1 }
    if p.mc then s.routeMc p arr else s.route p arr

/-- A PROM record sent on one port. -/
def State.sendPromOn (s : State) (i : Nat) (root : W64) (m : PromMsg) : State :=
  { s with fab := s.fab.queueOn i ⟨s.packet 0 0 (.prom root m), none, false⟩ }

/-- State of a port once its training has ended (R278, R284). -/
def FabSt.trained (f : FabSt) (i : PortId) (r : PortTrain) : Port :=
  let x := f.ports[i]
  let lo := decide (r.badLanes.toNat % 16 ≠ 0)
  let hi := decide (16 ≤ r.badLanes.toNat)
  let x := { x with laneBad := r.badLanes.toNat }
  if lo && hi then { x with state := 5 }
  else if !r.linkOk then { x with state := if 2 ≤ x.trainFails then 5 else 1, trainFails := x.trainFails + 1 }
  else
    let x := { x with peerPort := r.peerPort, peer := r.peer, trainFails := 0, naks := 0 }
    let o := f.ports[(Fin.ofNat 12 (i.val ^^^ 1) : PortId)]
    let differ := (o.state = 2 || o.state = 3) && decide (o.peer ≠ r.peer)
    if r.peerPort ≠ (i.val ^^^ 2) || differ then { x with state := 4 }
    else if lo || hi || x.half then { x with state := 3, higrp := lo }
    else { x with state := 2, higrp := false }

/-- A remote read or write of a partner die's request: HBM outside the firmware region, pinned partitions, the cave (R364). -/
def State.partnerMay (s : State) (a n : Nat) : Bool :=
  decide (16 ≤ n) && decide (n ≤ 4096) && decide (a < 2 ^ 48) && (linesOf a n).all fun l =>
    match s.place (max a (128 * l)) with
    | .hbm kind _ => kind ≠ 0
    | .pinned _ => true
    | .cave _ => true
    | _ => false

/-- Module index of a partner site's link (R347). -/
def accModule (site : AccId) : Nat := 16 * (16 + site.val)

/-- A partner die's request taken from its site's queue; its tags are free (R364). DEDUCED, unsafe (log 68). -/
def State.takeAcc (s : State) (site : AccId) (k : Nat) : Option Packet × State :=
  match s.dl.accReq[k]? with
  | some (i, p) =>
    if i ≠ site.val then (none, s)
    else
      let n := ceilDiv (match p.msg with | .rdReq _ n => n | m => m.len) 128
      (some p, { s with dl := { s.dl with accReq := s.dl.accReq.eraseIdx k, accTags := s.dl.accTags.set site (s.dl.accTags[site] - n) } })
  | none => (none, s)

/-- The answer to a partner die: data units for a read that succeeds, else a command with STATUS (R350). -/
def State.answerPartner (s : State) (site : AccId) (p : Packet) (st : Nat) (m : Msg) (bs : List Byte) : State :=
  let fs := if st = stOk && p.msg.typ = 1 then dataFlits p.utag bs else (p.respond s.fab.faddr.toNat st m).flits
  { s with dl := s.dl.sendLink (16 + site.val) fs }

/-- A remote write's or a partner die's write answered. -/
def State.wrAnswer (s : State) (site : Option AccId) (p : Packet) (st n : Nat) : State :=
  match site with
  | none => s.route (p.respond s.fab.faddr.toNat st (.wrAck n)) none
  | some i => s.answerPartner i p st (.wrAck n) []

/-- FRAME_RX (R281): A port receives a frame, delivers it in order or discards it and NAKs, and takes ACK and credit. -/
def execFrameRx (p : PortId) (f : Frame) (s : State) : Res :=
  onlyIf (s.fabricOn && (s.fab.ports[p].state = 2 || s.fab.ports[p].state = 3)) s fun s => .next (s.receiveFrame p f)

/-- LANE_SIGNAL_FAIL (R283): A fabric lane fails its signal check and the port retrains. -/
def execLaneSignalFail (p : PortId) (lane : Fin 8) (s : State) : Res :=
  let x := s.fab.ports[p]
  onlyIf (s.fabricOn && (x.state = 2 || (x.state = 3 && (lane.val / 4 = 1) = x.higrp))) s fun s =>
    let y := { x with laneBad := x.laneBad ||| 2 ^ lane.val }
    .next (({ s with fab := { s.fab with ports := s.fab.ports.set p y } }).trainPort p)

/-- OPT_READY_RISE (R23): OPT_READY rises and the port starts training within 1 ms. -/
def execOptReadyRise (p : PortId) (s : State) : Res :=
  let x := { s.fab.ports[p] with optReady := true, trainFails := 0 }
  let s := { s with fab := { s.fab with ports := s.fab.ports.set p x } }
  .next (if s.fabricOn && (x.state = 0 || x.state = 5) then s.trainPort p else s)

/-- OPT_READY_FALL (R23): OPT_READY falls and the port goes DOWN or FAILED. DEDUCED, unsafe (log 48). -/
def execOptReadyFall (p : PortId) (s : State) : Res :=
  let x := s.fab.ports[p]
  let s := { s with fab := { s.fab with ports := s.fab.ports.set p { x with optReady := false } } }
  .next (s.portState p (if x.state = 2 || x.state = 3 then 5 else 0))

/-- PORT_TRAINING_DONE (R284): Port training ends UP, HALF, MISCABLED or FAILED. -/
def execPortTrainingDone (p : PortId) (res : PortTrain) (s : State) : Res :=
  onlyIf (s.fabricOn && s.fab.ports[p].state = 1 && s.procUp (s.lpFor (p.val / 3))) s fun s =>
    let y := s.fab.trained p res
    let s := ({ s with fab := { s.fab with ports := s.fab.ports.set p { y with state := 1 } } }).portState p y.state
    if y.state ≠ 2 && y.state ≠ 3 then .next s
    else if !s.start.settled || s.fab.valid || s.fab.prom.running then .next s
    else
      let f := { s.fab with prom := { s.fab.prom with asking := true, asked := p.val :: s.fab.prom.asked.filter (· ≠ p.val) } }
      .next (({ s with fab := f }).sendPromOn p.val s.fuses.hubId .ask)

/-- RETRAIN (R310): A write of RETRAIN to PORT_CTRL retrains the port at once. DEDUCED, unsafe (log 70). -/
def execRetrain (p : PortId) (s : State) : Res :=
  onlyIf s.fabricOn s fun s => .next (s.trainPort p)

/-- PACKET_FORWARD (R298): A packet is routed on its map, replicated, delivered or discarded. -/
def execPacketForward (k : Nat) (s : State) : Res :=
  onlyIf s.fabricOn s fun s =>
    match s.fab.inq[k]? with
    | none => .next s
    | some (i, p) => if p.msg.typ = 0x38 then .next s else .next ((s.takeInq k).forward i p)

/-- RD_REQ (R287): A remote read request is served at its destination. -/
def execRdReq (site : Option AccId) (k : Nat) (s : State) : Res :=
  onlyIf s.running s fun s =>
    match site with
    | none => s.onDelivered k (fun m => m.typ = 1) fun s p =>
        match p.msg with
        | .rdReq a n =>
          let (parts, s) := s.serveRead p.src a n
          .next (parts.foldl (fun s r => s.route (p.respond s.fab.faddr.toNat r.2.1 (.rdResp r.1 r.2.2)) none) s)
        | _ => .next s
    | some i =>
      match s.takeAcc i k with
      | (some p, s') =>
        match p.msg with
        | .rdReq a n =>
          let st := if !s'.partnerMay a n then stUnmapped else s'.readStatus .unit a n
          let s' := if st = stUnmapped || st = stCaveDown then s'.accessRecord (whoPartner i.val) st (bits a 47 0) else s'.touchLines a n
          .next (s'.answerPartner i p st (.rdResp 0 []) (if st = stOk then s'.readBytes a n else []))
        | _ => .next s
      | (none, _) => .next s

/-- RD_RESP (R289): Read data returns to the requester, or is discarded as late. -/
def execRdResp (k : Nat) (s : State) : Res :=
  onlyIf s.running s fun s => s.onResponse k fun m => m.typ = 2

/-- WR (R287): A remote write is applied at its destination and acknowledged. -/
def execWr (site : Option AccId) (k : Nat) (s : State) : Res :=
  onlyIf s.running s fun s =>
    match site with
    | none => s.onDelivered k (fun m => m.typ = 3) fun s p =>
        match p.msg with
        | .wr a wb bs =>
          let (st, n, s) := s.serveWrite p.src a wb bs
          .next (s.wrAnswer none p st n)
        | _ => .next s
    | some i =>
      match s.takeAcc i k with
      | (some p, s') =>
        match p.msg with
        | .wr a wb bs =>
          if !s'.partnerMay a bs.length then .next ((s'.accessRecord (whoPartner i.val) stUnmapped (bits a 47 0)).wrAnswer site p stUnmapped 0)
          else
            let (st, n, s) := s'.serveWrite (whoPartner i.val) a wb bs
            .next (s.wrAnswer site p st n)
        | _ => .next s
      | (none, _) => .next s

/-- WR_ACK (R287): A write acknowledgement frees the requester's tags. -/
def execWrAck (k : Nat) (s : State) : Res :=
  onlyIf s.running s fun s => s.onResponse k fun m => m.typ = 4

/-- POST (R287): A remote post packet posts a mailbox semaphore of a virtual core. DESIGN CHOICE, safe (log 73). -/
def execPost (k : Nat) (s : State) : Res :=
  onlyIf s.running s fun s => s.onDelivered k (fun m => m.typ = 5) fun s p =>
    match p.msg with
    | .post v msem n => .next (s.postVcid v msem n).2
    | _ => .next s

/-- DETACH (R306): A detach notice makes the multicast source send catch-up data to the child. -/
def execDetach (k : Nat) (s : State) : Res :=
  onlyIf s.running s fun s => s.onDelivered k (fun m => m.typ = 0x29) fun s p =>
    match p.msg with
    | .detach id off dir child =>
      match s.coll.colls.find? fun c => c.active && (64 * c.cseq + c.comm) % 65536 = id && (CDesc.mk c.desc).op = 6 with
      | none => .next s
      | some c =>
        let d := CDesc.mk c.desc
        let fs := if child = s.fab.faddr.toNat then [] else (s.fragsFor c 0 0).filter fun f => off ≤ f.off
        .next (fs.foldl (fun s f =>
          let (s, bs) := s.readFrag c f
          s.inject { s.fragPacket c child f bs with group := if dir = 0 then 0 else 65536 + d.mcgrp }) s)
    | _ => .next s

/-- REQUEST_TIMEOUT (R289): A request unanswered within the fabric timeout completes UNREACH and its tags advance. -/
def execRequestTimeout (k : Nat) (s : State) : Res :=
  onlyIf s.running s fun s =>
    match s.fab.reqs[k]? with
    | none => .next s
    | some r => .next (if r.done then s else s.completeReq r stUnreach none true)

end Sys2Proof.Machine
end

