-- ==== Sys2Proof/Machine/Power.lean ====
section
/-! DEFINITION. Board inputs, coolant and temperature, the governor, sags and the protect sequence, standby (R25 to R31, R424 to R443). -/

namespace Sys2Proof.Machine

/-- Whether the Hub's I3C and SMBus targets answer (R450, R451): from the cold phase on, while VMGMT is up. -/
def State.busUp (s : State) : Bool := s.start.coldDone && !s.start.coldHeld && decide (s.pwr.pstate ≤ 4)

/-- A change under which PSTATE is watched (R509). -/
def State.withPower (s : State) (f : State → State) : State := (f s).tellPower s.pstateNow

/-- Whether a sensor is an HBM stack's (R508). -/
def isStack (sensor : Nat) : Bool := decide (0x0a ≤ sensor ∧ sensor ≤ 0x19)

/-- Whether a sensor is a temperature of R29: dies, stacks, partner dies. -/
def isTemp (lx : Bool) (sensor : Nat) : Bool := decide (1 ≤ sensor ∧ sensor ≤ 0x19) || (lx && decide (sensor = 0x1a ∨ sensor = 0x1b))

/-- The last reading of a sensor kept for GetSensorReading (R508). -/
def State.setSensor (s : State) (sensor v : Nat) : State :=
  { s with mgmt := { s.mgmt with sensors := s.mgmt.sensors.filter (fun (x : Nat × Nat) => x.1 ≠ sensor) ++ [(sensor, v)] } }

/-- A sag's protect sequence (R438, R439): the record, then the sequence without further ride-through. -/
def State.sagProtect (s : State) (mv dur : Nat) : State :=
  let low := min s.pwr.sagMin mv
  let s : State := { s with pwr := { s.pwr with sagMin := low, sagTold := true } }
  ((s.event procMP 8 3 [low, dur, 1]).startProtect false).protectAdvance

/-- One tick of the energy bucket and CAP_CEIL at P watts (R435). DESIGN CHOICE, safe (log 47). -/
def PowerSt.tick (p : PowerSt) (watts : Nat) : PowerSt :=
  let x := bits p.cfgNow.toNat 27 16
  let sust := if 1500 ≤ x ∧ x ≤ 2395 then x else 2395
  let live := decide (0 < p.bucket) || decide (1000 ≤ p.dead + 1)
  let e := if live then min 50000 (p.bucket + sust - watts) else p.bucket
  let cap :=
    if 2900 < watts then max (p.capCeil - 8) 8
    else if e = 0 then max (p.capCeil - 4) 8
    else if e = 50000 && decide (watts + 50 < sust) then min (p.capCeil + 1) 64
    else p.capCeil
  { p with bucket := e, dead := if 0 < p.bucket && e = 0 then 0 else p.dead + 1, capCeil := cap,
           capTicks := p.capTicks + (if cap < 64 then 1 else 0) }

/-- Input voltage, current and power as a tick reads them (R443). DESIGN CHOICE, safe (log 47). -/
def powerIn (mv watts : Nat) : W64 :=
  BitVec.ofNat 64 (mv / 10 % 65536 + 65536 * (watts * 100000 / max 1 mv % 65536) + 2 ^ 32 * (watts % 65536))

/-- Rail readings: free values, 0 for an absent rail (R443). DESIGN CHOICE, safe (log 47). -/
def State.readRails (s : State) : Vector W64 8 :=
  Vector.ofFn fun (i : Fin 8) => if 6 ≤ i.val ∧ !s.fuses.lx then 0 else Config.fresh (s.free + i.val) &&& 0xffffffffffff#64

/-- A Vat die's core in service again after its reset: at LEVEL 0, unfenced (R463). -/
def Core.returned (up : Bool) : Core := { Core.zero with ctl := { Core.zero.ctl with enabled := up } }

/-- Whether a link is lost: every module of it FAILED (R359). -/
def State.linkFailed (s : State) (l : Nat) : Bool := (List.range (linkMods l)).all fun m => (s.dl.modAt (16 * l + m)).state = 4

/-- Whether a die's Vat–Cellar links and the Vat–Vat links on its routes are not lost (R15, R458). -/
def State.dieLinked (s : State) (v : VatId) : Bool :=
  (List.range 12).all fun l => !((linkDies l).1 = v.val || (linkDies l).2 = v.val) || !s.linkFailed l

/-- The modules that a test picks begin to train; what they held is discarded (R353, R361). -/
def State.trainModules (s : State) (want : Nat → Bool) : State :=
  let go := fun (d : DlSt) (i : Nat) =>
    let m := d.modAt i
    d.setMod i { DlMod.zero with state := 1, epoch := m.epoch, widthLast := m.widthLast, laneBad := m.laneBad, fuseBad := m.fuseBad, higrp := m.higrp }
  let d := { s.dl with cfgNow := s.dl.cfg, held := s.dl.held.filter fun h => !want (16 * h.1), opened := s.dl.opened.filter fun o => !want o.1,
                       fwd := s.dl.fwd.filter fun r => !want (16 * r.src) && !want (16 * r.out) }
  { s with dl := (List.range 288).foldl (fun d i => if want i && dlListed s.fuses.lx i then go d i else d) d }

/-- Modules of links 0 to 11 begin to train (R353, R428). -/
def State.trainVatLinks (s : State) : State := s.trainModules fun i => i < 192

/-- Ports with OPT_READY high begin to train (R284, R428, R453). -/
def State.trainPorts (s : State) : State :=
  (List.finRange 12).foldl (fun s p =>
    let x := s.fab.ports[p]
    let x := { x with trainFails := 0 }
    ({ s with fab := { s.fab with ports := s.fab.ports.set p x } }).portState p (if !x.optReady || !x.enable then 0 else if x.loop then 6 else 1)) s

/-- Every core as it comes back from P3 (R462, R463). DEDUCED, unsafe (log 48). -/
def State.returnedCores (s : State) : Vector Core 256 :=
  Vector.ofFn fun (c : CoreId) => Core.returned (s.cores[c].ctl.enabled && s.dieLinked (vatOf c))

/-- VCORE on in a start from P4: the Vat dies leave reset, links, ports and cave ports train (R453). -/
def State.vcoreStart (s : State) : State :=
  let s : State := { s with cores := Vector.replicate 256 Core.zero }
  (s.trainVatLinks.trainPorts.startCave).setStage 8

/-- Whether the conditions of R457 hold for a module in P0 (R459). -/
def State.readyConds (s : State) : Bool :=
  ((List.finRange 10).all fun p => !s.procHeld p) && ([12, 13, 14, 15].all fun l => !s.linkFailed l) &&
  (List.finRange 256).any fun c => s.cores[c].ctl.enabled

/-- The return from P3 (R428, R462, R463): VCORE, Vat dies reset, links and ports train, queues are read again. -/
def State.leaveP3 (s : State) : State :=
  let old := s.pstateNow
  let s : State := { s with cores := s.returnedCores }
  let s : State := { s with pwr := { s.pwr with pstate := 0, bucket := 50000, capCeil := 64, dead := 0, aux := false },
                              job := { s.job with parkLost := false, stopDispatch := false } }
  let s : State := { s.freeUnits with start := { s.start with cause := 6 } }
  let s := s.trainVatLinks.trainPorts
  let s := if s.job.phase = 0 then s.remap else s
  ((s.setReady s.readyConds).tellPower old).pumpQueues

/-- Everything the removal of input power leaves: fuses, flash, host memory, the cave's bytes and checkpoints (R426, R461). DEDUCED, unsafe (log 46). -/
def State.enterP5 (s : State) : State :=
  let t := s.enterP4 0
  { State.reset with
    pending := s.pending, free := t.free, reply := t.reply, fuses := s.fuses
    inp := { Inputs.zero with modReset := s.inp.modReset, promRoot := s.inp.promRoot, pwrEn := s.inp.pwrEn, coolOk := s.inp.coolOk }
    mem := { MemSt.zero with bytes := t.mem.bytes, uncorr := t.mem.uncorr, host := t.mem.host }
    ras := { RasSt.zero with hdrA := t.ras.hdrA, hdrB := t.ras.hdrB, jobCopy := t.ras.jobCopy, base := t.ras.base, deltas := t.ras.deltas,
                             areaBase := t.ras.areaBase, areaGib := t.ras.areaGib, hbmLost := true }
    fw := { FwSt.zero with flash := s.dropUpdate.fw.flash }
    dl := { DlSt.zero with mods := t.dl.mods }
    fab := { FabSt.zero with ports := t.fab.ports }
    cave := t.cave
    sec := { SecSt.zero with level := s.fuses.startLevel }
    pwr := { PowerSt.zero with pstate := 5 } }

/-- PWR_REQ 1: P3, with no job running (R428, R443). -/
def State.standbyReq (s : State) : State :=
  if s.running && s.pwr.protect.isNone && (s.job.state = 0 || s.job.state = 3) then ({ s with pwr := { s.pwr with standby := true } }).enterP3 else s

/-- PWR_REQ 2: the standby ends (R428, R443). -/
def State.resumeReq (s : State) : State := { s with pwr := { s.pwr with standby := false } }

/-- A write of PWR_REQ (R443). -/
def State.powerReq (s : State) (x : Nat) : State := match x % 4 with | 1 => s.standbyReq | 2 => s.resumeReq | _ => s

/-- INPUT_APPLIED (R445): J1 reaches 45 V and the management rail comes up. -/
def execInputApplied (s : State) : Res :=
  onlyIf (s.pwr.pstate = 5 || (s.pwr.pstate = 4 && s.start.coldHeld)) s fun s =>
    let old := s.pstateNow
    .next (({ s with inp := { s.inp with inputOk := true, overvolt := false, volt := 45000 }, pwr := { s.pwr with pstate := 4 },
                     cave := { s.cave with ports := s.cave.ports.map fun (x : CavePortSt) => { x with pwrOk := true } },
                     start := { s.start with coldHeld := true, nextCause := 1 } }).tellPower old)

/-- MOD_RESET_N_FALL (R27): MOD_RESET_N falls and the module enters P4 without protect. -/
def execModResetNFall (s : State) : Res :=
  onlyIf (s.pwr.pstate ≤ 4) s fun s =>
    let s := if s.pwr.protect.isSome then
        { s with ras := { s.ras with flushInc := s.ras.flushInc + 1 }, pwr := { s.pwr with flushInc := s.pwr.flushInc + 1 } }
      else s
    let s := s.enterP4 0
    .next { s with inp := { s.inp with modReset := false, thermTrip := false }, start := { s.start with coldHeld := true, nextCause := 2 } }

/-- PWR_EN_FALL (R27): PWR_EN falls, running the protect sequence at once and entering P4. -/
def execPwrEnFall (s : State) : Res :=
  let s : State := { s with inp := { s.inp with pwrEn := false }, start := { s.start with barred := false } }
  if s.starting then .next (s.abandonStart s.start.nextCause)
  else if s.running then .next ((s.startProtect true).protectAdvance)
  else if s.pwr.pstate = 3 then .next (s.enterP4 2)
  else .next s

/-- PWR_EN_RISE (R26): PWR_EN rises, permitting start-up beyond P4. -/
def execPwrEnRise (s : State) : Res :=
  .next { s with inp := { s.inp with pwrEn := true }, start := { s.start with nextCause := if s.start.coldHeld then s.start.nextCause else 3 } }

/-- OVERVOLTAGE (R25, R26): Input above the overvoltage stop, which lies from 60.5 to 61.5 V, puts the module in P4. -/
def execOvervoltage (mv : Nat) (s : State) : Res :=
  onlyIf (decide (s.pwr.pstate ≤ 4) && decide (60500 < mv)) s fun s =>
    let s := (s.event procMP 8 2 [mv]).mgmtEvent 0x0030 mv
    let s : State := { s with inp := { s.inp with overvolt := true, volt := mv } }
    .next (if s.pwr.pstate = 4 && !s.starting then s else s.enterP4 2)

/-- OVERVOLTAGE_RECOVERY (R25): Input held at or below 59 V for 100 ms clears the overvoltage stop; what it then reads is free up to there. DESIGN CHOICE, safe (log 47). -/
def execOvervoltageRecovery (s : State) : Res :=
  onlyIf s.inp.overvolt s fun s =>
    .next { s with free := s.free + 1, inp := { s.inp with overvolt := false, volt := (Config.fresh s.free).toNat % 59001 }, start := { s.start with nextCause := if s.start.coldHeld then s.start.nextCause else 4 } }

/-- SAG (R26, R438, R460): Input below 44 V for 0.5 µs starts ride-through in P1; a start is abandoned; in P3 and P4 it is told. DESIGN CHOICE, safe (log 47). -/
def execSag (mv : Nat) (s : State) : Res :=
  onlyIf (decide (s.pwr.pstate ≤ 4) && decide (mv < 44000)) s fun s =>
    let n := s.free
    let ok := s.pwr.holdupOk
    let s : State := { s with
      inp := { s.inp with inputOk := false, volt := mv }
      pwr := { s.pwr with sagCnt := s.pwr.sagCnt + 1, sagMin := mv, sagTold := false, holdupOk := ok && (Config.fresh n).getLsbD 0, holdup := Config.fresh (n + 1) &&& 0xffff#64 }
      free := n + 2 }
    let s := s.mgmtEvent 0x0030 mv
    if s.starting then .next (s.abandonStart 5)
    else if s.running then
      if s.pwr.ride || s.pwr.protect.isSome then .next s
      else
        let old := s.pstateNow
        let s : State := { s with pwr := { s.pwr with sag := true } }
        .next ((if ok then { s with pwr := { s.pwr with ride := true } } else s.sagProtect mv 0).tellPower old)
    else if s.pwr.pstate = 3 then .next { s with pwr := { s.pwr with aux := true } }
    else .next s

/-- SAG_END (R438): Input at or above 45 V for 1 ms ends the sag. DESIGN CHOICE, safe (log 47). -/
def execSagEnd (mv : Nat) (dur : Nat) (s : State) : Res :=
  onlyIf (decide (s.pwr.pstate ≤ 4) && !s.inp.inputOk && decide (45000 ≤ mv)) s fun s =>
    let s := if s.pwr.sagTold then s else s.event procMP 8 3 [s.pwr.sagMin, dur, 0]
    .next (s.withPower fun s =>
      { s with inp := { s.inp with inputOk := true, volt := mv }, pwr := { s.pwr with sag := false, sagTold := true, ride := false, aux := false } })

/-- RIDE_THROUGH_EXPIRY (R438): A sag lasting 2 ms starts the protect sequence. -/
def execRideThroughExpiry (mv : Nat) (s : State) : Res :=
  onlyIf s.pwr.ride s fun s => .next (s.withPower fun s => s.sagProtect mv 2000)

/-- PROTECT_CORE_DEADLINE (R440): After 200 µs a core still running is stopped and its work item fails. -/
def execProtectCoreDeadline (c : CoreId) (s : State) : Res :=
  onlyIf (match s.pwr.protect with | some p => !p.flushing | none => false) s fun s =>
    let x := s.cores[c]
    let s := if x.ctl.run && !x.ctl.stopped then
        let (y, ev) := x.endAbrupt.sendTel
        (s.withCore c ({ y with ctl := { y.ctl with stopped := true } }, ev)).failStep 440
      else s
    .next s.protectAdvance

/-- PROTECT_FLUSH_END (R440): The protect flush ends done or at 40 ms and the module enters P3 or P4. -/
def execProtectFlushEnd (done : Bool) (s : State) : Res :=
  onlyIf s.pwr.protect.isSome s fun s => .next (s.protectEnd done)

/-- HOLDUP_EXHAUSTED (R428, R441): With the input absent the holdup store runs out in P3 or P4 and the module enters P5. -/
def execHoldupExhausted (s : State) : Res :=
  onlyIf (!s.inp.inputOk && (s.pwr.pstate = 3 || s.pwr.pstate = 4)) s fun s => .next s.enterP5

/-- CLOCK_LOSS (R425): A root PLL loses lock or REF100 leaves range, and the Hub enters P4. -/
def execClockLoss (die : Nat) (cause : Nat) (s : State) : Res :=
  onlyIf (s.pwr.pstate ≤ 3 || s.starting) s fun s =>
    let s := s.event procMP 8 1 [die, cause]
    .next (({ s with inp := { s.inp with refOk := s.inp.refOk && cause ≠ 1 } }).enterP4 2)

/-- COOLANT (R29): Coolant outside R28 limits for 100 ms requires P1 or P3. -/
def execCoolant (inlet : Nat) (flow : Nat) (s : State) : Res :=
  onlyIf (s.pwr.pstate ≤ 4 && (450 < inlet || flow < 200)) s fun s =>
    let lvl := if 500 < inlet || flow < 150 then 3 else 1
    let s : State := { (s.setSensor 0x20 inlet).setSensor 0x22 flow with inp := { s.inp with coolOk := false } }
    if s.starting then .next (s.abandonStart s.start.nextCause)
    else if s.pwr.pstate = 4 then .next s
    else
      let old := s.pstateNow
      let s := ((s.event procMP 9 1 [inlet, flow, lvl]).mgmtEvent 0x0020 inlet).mgmtEvent 0x0022 flow
      let s : State := { s with pwr := { s.pwr with coolReq := max s.pwr.coolReq lvl } }
      .next ((if lvl = 3 then s.needP3 else s).tellPower old)

/-- COOLANT_RECOVER (R29, R31): Coolant back within limits for 1 s clears the requirement of P1 and the lower-critical reading, within the R28 limits
for 10 s that of P3. -/
def execCoolantRecover (inlet : Nat) (flow : FlowFacts) (s : State) : Res :=
  onlyIf (s.pwr.pstate ≤ 4) s fun s =>
    let warm := decide (180 ≤ inlet)
    let good := decide (inlet ≤ 450) && decide (200 ≤ flow.rate)
    let clear := good && (decide (s.pwr.coolReq ≤ 1) || (flow.long && warm))
    .next (s.withPower fun s =>
      { (s.setSensor 0x20 inlet).setSensor 0x22 flow.rate with
          inp := { s.inp with coolOk := good && warm }
          pwr := { s.pwr with coolReq := if clear then 0 else s.pwr.coolReq, coolLow := s.pwr.coolLow && !warm } })

/-- COOLANT_LOW (R29): Inlet below 18 °C for 100 ms is logged and reported. -/
def execCoolantLow (inlet : Nat) (s : State) : Res :=
  onlyIf (s.pwr.pstate ≤ 4 && inlet < 180) s fun s =>
    let s := (s.event procMP 9 2 [inlet]).mgmtEvent 0x0020 inlet
    let s : State := { s.setSensor 0x20 inlet with pwr := { s.pwr with coolLow := true }, inp := { s.inp with coolOk := false } }
    .next (if s.starting then s.abandonStart s.start.nextCause else s)

/-- DIE_TEMP (R29): A die or HBM stack at its throttle temperature requires P1. -/
def execDieTemp (sensor : Nat) (reading : Nat) (s : State) : Res :=
  let lim := if isStack sensor then 950 else 1050
  onlyIf (s.pwr.pstate ≤ 3 && isTemp s.fuses.lx sensor && lim ≤ reading) s fun s =>
    if s.pwr.hot.contains sensor then .next (s.setSensor sensor reading)
    else
      .next (((s.event procMP 9 3 [sensor, reading, 1]).mgmtEvent sensor reading).withPower fun s =>
        ({ s with pwr := { s.pwr with hot := s.pwr.hot ++ [sensor] } }).setSensor sensor reading)

/-- DIE_TEMP_RECOVER (R29): A die or stack falling below its release temperature clears its requirement. -/
def execDieTempRecover (sensor : Nat) (reading : Nat) (s : State) : Res :=
  let lim := if isStack sensor then 900 else 1000
  onlyIf (s.pwr.hot.contains sensor && reading < lim) s fun s =>
    .next ((s.mgmtEvent sensor reading).withPower fun s =>
      ({ s with pwr := { s.pwr with hot := s.pwr.hot.filter (· ≠ sensor) } }).setSensor sensor reading)

/-- TRIP (R29): A thermal trip removes rails, enters P4 and drives THERM_TRIP_N low. -/
def execTrip (sensor : Nat) (reading : Nat) (s : State) : Res :=
  let lim := if isStack sensor then 1050 else 1150
  onlyIf ((s.pwr.pstate ≤ 3 || s.starting) && isTemp s.fuses.lx sensor && lim ≤ reading) s fun s => .next ((s.setSensor sensor reading).trip sensor reading)

/-- GOVERNOR_TICK (R435, R443): Every 100 µs the readings are taken, and above P3 the governor updates its energy bucket and CAP_CEIL. -/
def execGovernorTick (watts : Nat) (s : State) : Res :=
  onlyIf s.busUp s fun s =>
    let p := { s.pwr with cfgNow := s.pwr.cfg, inp := powerIn s.inp.volt watts, rails := s.readRails }
    .next (({ s with free := s.free + 8 }).withPower fun s => { s with pwr := if s.running then p.tick watts else p })

/-- P2_DELAY_EXPIRY (R428): A Vat die without work for PWR_P2_DELAY has its ACLK gated. -/
def execP2DelayExpiry (v : VatId) (s : State) : Res :=
  let idle := (List.finRange 256).all fun c => vatOf c ≠ v || (!s.cores[c].ctl.run && s.cores[c].arr.level = 0)
  onlyIf (s.vcoreOn && !s.pwr.gated[v] && bits s.pwr.cfgNow.toNat 15 8 ≠ 0 && idle) s fun s =>
    .next (s.withPower fun s => { s with pwr := { s.pwr with gated := s.pwr.gated.set v true } })

/-- PWR_REQ_STANDBY (R443): A management request puts the module in P3. -/
def execPwrReqStandby (s : State) : Res :=
  .next s.standbyReq

/-- PWR_REQ_RESUME (R443): A management request leaves P3. -/
def execPwrReqResume (s : State) : Res :=
  .next s.resumeReq

/-- P3_RETURN (R428): With its cause cleared the module returns from P3 to P0, resetting the Vat dies. -/
def execP3Return (s : State) : Res :=
  onlyIf (s.pwr.pstate = 3 && s.pwr.coolReq ≠ 3 && !s.pwr.standby && s.inp.inputOk && s.inp.pwrEn) s fun s => .next s.leaveP3

/-- HOLDUP_OK (R439): The holdup store recharges to at least 90 %, HOLDUP_OK becomes 1, and a start from P4 waiting on
it may switch VCORE on. -/
def execHoldupOk (energy : Nat) (s : State) : Res :=
  onlyIf (s.pwr.pstate ≤ 4 && s.inp.inputOk) s fun s =>
    let s : State := { s with pwr := { s.pwr with holdupOk := true, holdup := BitVec.ofNat 64 (energy % 65536) } }
    .next (if s.start.stage = 7 then s.vcoreStart else s)

end Sys2Proof.Machine
end

