-- ==== Sys2Proof/Machine/DieLinks.lean ====
section
/-! DEFINITION. Die-to-die links: training and lane repair, retry, failure, accessory sites, loopback (R347 to R367). -/

namespace Sys2Proof.Machine

/-- Ones among bits [lo, lo + 32) of a lane mask. -/
def laneCount (m : BitVec 64) (lo : Nat) : Nat := ((List.range 32).filter fun i => m.getLsbD (lo + i)).length

/-- Width and mode that R355 gives for bad lanes: state 2, 3 or 4, the group of HALF, whether side lanes are free, redundant data lanes
used. -/
structure LinkWidth where
  state : Nat
  higrp : Bool
  sideFree : Bool
  spares : Nat

/-- The table of R355. -/
def widthFor (bad : BitVec 64) : LinkWidth :=
  let a := laneCount bad 0
  let b := laneCount bad 32
  if a ≤ 2 ∧ b ≤ 2 then ⟨2, false, decide (a + b = 0), a + b⟩
  else if b ≤ 2 then ⟨3, true, decide (b = 0), b⟩
  else if a ≤ 2 then ⟨3, false, decide (a = 0), a⟩
  else ⟨4, false, false, 0⟩

/-- HALF on a group of the lanes that are bad (R355, R360). -/
def halfOn (bad : BitVec 64) (higrp : Bool) : LinkWidth :=
  let n := laneCount bad (if higrp then 32 else 0)
  if n ≤ 2 then ⟨3, higrp, decide (n = 0), n⟩ else ⟨4, false, false, 0⟩

/-- Redundant lanes in use, two per group (R367). -/
def redundFor (bad : BitVec 64) (w : LinkWidth) : BitVec 4 :=
  let g := fun (lo : Nat) => 2 ^ min 2 (laneCount bad lo) - 1
  match w.state with
  | 2 => BitVec.ofNat 4 (g 0 + 4 * g 32)
  | 3 => BitVec.ofNat 4 (if w.higrp then 4 * g 32 else g 0)
  | _ => 0

/-- A module with a width and mode. -/
def DlMod.setWidth (m : DlMod) (bad : BitVec 64) (w : LinkWidth) (side : Bool) : DlMod :=
  { m with state := w.state, higrp := w.state = 3 && w.higrp, inband := w.state ≠ 4 && !(w.sideFree && side), spares := w.spares,
           tries := 0, nakRun := 0, laneBad := bad, redund := redundFor bad w, widthLast := if w.state = 4 then m.widthLast else w.state, l1 := false, retraining := false }

/-- The width two ends agree on after a partial reset (R360). `farNear`: at equal EPOCH the far end's group counts. DEDUCED, unsafe (log 69). -/
def agreeWidth (m : DlMod) (bad : BitVec 64) (r : UcieTrain) (farNear : Bool) : LinkWidth :=
  let w := widthFor bad
  let half := w.state = 3 || m.widthLast = 3 || r.farHalf
  if w.state = 4 || !half then w
  else
    let far := decide (m.epoch.toNat < r.farEpoch.toNat) || (decide (m.epoch = r.farEpoch) && farNear)
    let g := if w.state = 3 then w.higrp else if far then (if r.farHalf then r.farHigrp else m.higrp) else (if m.widthLast = 3 then m.higrp else r.farHigrp)
    halfOn bad g

/-- The payload rate of a module in GB/s, at the rate of DL_CFG (R348). -/
def DlMod.gbps (m : DlMod) (rate : Nat) : Nat :=
  let full := match m.state with | 2 => 256 | 3 => 128 | _ => 0
  let x := if m.inband then full * 16 / 17 else full
  match rate with | 1 => x * 3 / 4 | 2 => x / 2 | _ => x

/-- A module's record replaced. -/
def State.setDl (s : State) (i : Nat) (m : DlMod) : State := { s with dl := s.dl.setMod i m }

/-- A module's record replaced, and what it may send sent. -/
def State.putDl (s : State) (i : Nat) (m : DlMod) : State := { s with dl := s.dl.putMod i m }

/-- A site's rails removed: its modules FAILED, its window unmapped (R36, R362). DEDUCED, unsafe (log 68). -/
def State.dropSite (s : State) (site : AccId) (code : Nat) : State :=
  let l := 16 + site.val
  let d := (linkIndices l).foldl (fun (d : DlSt) i => d.setMod i { d.modAt i with state := 4, stored := [], sendq := [] }) s.dl
  { s with dl := { d with acc := d.acc.set site code, accPower := d.accPower.set site false, accReq := d.accReq.filter fun r => r.1 ≠ site.val,
                          accTags := d.accTags.set site 0, held := d.held.filter fun h => h.1 ≠ l, opened := d.opened.filter fun o => o.1 / 16 ≠ l } }

/-- The effect of a lost link; work in flight across it is abandoned (R359). -/
def State.loseLink (s : State) (l : Nat) : State :=
  let (a, b) := linkDies l
  let s : State := { s with dl := { s.dl with held := s.dl.held.filter (fun h => h.1 ≠ l), opened := s.dl.opened.filter (fun o => o.1 / 16 ≠ l),
                                              fwd := s.dl.fwd.filter fun r => r.src ≠ l && r.out ≠ l } }
  if 16 ≤ l then s.dropSite (Fin.ofNat 2 (l - 16)) 2
  else if 12 ≤ l then
    let s := { s with job := { s.job with parkLost := s.job.state = 2 } }
    let s := if s.job.state = 2 then (s.failStep 359).setJob 3 else s
    s.setReady false
  else if 8 ≤ l then (s.fenceDie (Fin.ofNat 4 a) 359).fenceDie (Fin.ofNat 4 b) 359
  else s.fenceDie (Fin.ofNat 4 a) 359

/-- The sibling with the most free credit that carries traffic (R358). -/
def DlSt.sibling (d : DlSt) (i : Nat) : Option Nat :=
  let sum := fun (j : Nat) => (d.modAt j).credit.toList.foldl (· + ·) 0
  let js := (d.carriers (i / 16)).filter fun j => j ≠ i
  js.foldl (fun (best : Option Nat) j => match best with | none => some j | some b => if sum b < sum j then some j else some b) none

/-- The processor that manages a link, or the management processor while that one is held (R347). -/
def State.linkMgr (s : State) (l : Nat) : ProcId :=
  let p : ProcId := Fin.ofNat 10 (linkProc l)
  if s.procHeld p then procMP else p

/-- A module FAILED: the flits after `last`, the last one its far end delivered in order, replay on a sibling in order; the record, and the loss of the
link if it was the last (R358, R359). DEDUCED, unsafe (log 69). -/
def State.failModule (s : State) (i last : Nat) : State :=
  let m := s.dl.modAt i
  let left := match m.stored.findIdx? fun x => x.1 = last with | some k => m.stored.drop (k + 1) | none => m.stored
  let bs := left.map (·.2) ++ m.sendq
  let d := s.dl.setMod i { m with state := 4, stored := [], sendq := [], retraining := false, l1 := false }
  let d := match d.sibling i with
    | some j => if bs.isEmpty then d else d.send j bs
    | none => if d.holds (i / 16) then { d with held := d.held ++ [(i / 16, bs)] } else d
  let s := { s with dl := d }
  let s := s.event (s.linkMgr (i / 16)) 2 2 [i, m.gbps (bits s.dl.cfgNow.toNat 1 0)]
  if s.linkFailed (i / 16) then s.loseLink (i / 16) else s

/-- A module carries traffic again: its stored flits replay, and senders send what they held (R352, R357). -/
def State.moduleUp (s : State) (i : Nat) (m : DlMod) : State := { s with dl := (s.dl.replay i m).release (i / 16) }

/-- Training of a module ended (R353, R355, R356, R360). -/
def State.trainedModule (s : State) (i : Nat) (r : UcieTrain) : State :=
  let m := s.dl.modAt i
  let p := s.linkMgr (i / 16)
  let side := s.dl.cfgNow.getLsbD 2 && r.farSide
  if !r.ok then
    let m := { m with tries := m.tries + 1 }
    let s := s.setDl i m
    if 3 ≤ m.tries then s.failModule i 4096 else s
  else
    let bad := m.fuseBad ||| r.bad ||| (if r.afterPartial then r.farBad ||| m.laneBad else 0)
    let far := match s.ras.dieResetting with
      | some v => decide (8 ≤ i / 16 ∧ i / 16 < 12) && decide (v = (linkDies (i / 16)).1)
      | none => false
    let w := if !r.control then ⟨4, false, false, 0⟩ else if r.afterPartial then agreeWidth m bad r far else widthFor bad
    let growth := ((List.range 64).filter fun k => bad.getLsbD k && !m.fuseBad.getLsbD k).length
    let s := s.event procMP 2 1 [i, bad.toNat, w.state, growth]
    let s := if r.afterPartial then s.event p 2 3 [i, m.epoch.toNat, r.farEpoch.toNat, w.state] else s
    let e := max m.epoch.toNat r.farEpoch.toNat + 1
    if w.state = 4 then (s.setDl i { m with laneBad := bad }).failModule i 4096
    else s.moduleUp i { m.setWidth bad w side with epoch := BitVec.ofNat 16 e }

/-- ACK and credit of a flit's side word (R349, R351). -/
def DlMod.sideWord (m : DlMod) (f : Flit) : DlMod :=
  let m := match m.stored.findIdx? fun x => x.1 = f.ack with
    | some k => { m with stored := m.stored.drop (k + 1), nakRun := 0 }
    | none => m
  let q : Fin 5 := Fin.ofNat 5 f.cq
  let m := if f.cq < 5 then { m with credit := m.credit.set q (m.credit[q] + f.cred) } else m
  if f.nak then { m with naks := if m.naks = 0xffff#16 then m.naks else m.naks + 1, nakRun := m.nakRun + 1 } else m

/-- Whether a transfer of some core touches a site's window. -/
def State.touchesSite (s : State) (c : CoreId) (o : Op) (site : Option AccId) : Bool :=
  match o.body with
  | .xfer raw _ _ _ _ =>
    let d := XDesc.mk raw
    let hit := fun (space w : Nat) => decide (space = 0) &&
      (match s.mem.cfg.place s.fuses.lx (bits w 47 0) with | .acc n => (match site with | some k => decide (n = k.val) | none => true) | _ => false)
    d.ok && s.cores[c].ctl.enabled && ((d.usesSrc && hit d.sspace d.src) || (d.usesDst && hit d.dspace d.dst))
  | _ => false

/-- The target of a request on the die links: its home Cellar, 4 the Hub, 5 and 6 the partner dies; 7 none (R15, R16). -/
def State.flitTarget (s : State) (m : Msg) : Nat :=
  let of := fun (a : Nat) =>
    if bit a 63 then 7
    else
      match s.place (bits a 47 0) with
      | .hbm _ _ | .pinned _ => s.mem.cfg.home s.fuses.lx (bits a 47 0)
      | .cave _ => 4
      | .acc n => 5 + n % 2
      | _ => 7
  match m with | .rdReq a _ => of a | .wr a _ _ => of a | _ => 7

/-- A whole request delivered by link `l` (R15, R16, R364): a partner die's waits to be served, one beyond the tag grant completes UNMAPPED; another goes
on along its route, and its reply will return. DESIGN CHOICE, safe (log 112). -/
def State.deliverReq (s : State) (l : Nat) (p : Packet) : State :=
  let n := match p.msg with | .rdReq _ n => n | m => m.len
  let on := onwardLink l (s.flitTarget p.msg)
  if 16 ≤ l then
    let site : AccId := Fin.ofNat 2 (l - 16)
    if 1024 < s.dl.accTags[site] + ceilDiv n 128 then
      (s.accessRecord (whoPartner site.val) stUnmapped (bits p.addr 47 0)).answerPartner site p stUnmapped (if p.msg.typ = 1 then .rdResp 0 [] else .wrAck 0) []
    else
      let d := { s.dl with accReq := s.dl.accReq ++ [(site.val, p)], accTags := s.dl.accTags.set site (s.dl.accTags[site] + ceilDiv n 128) }
      { s with dl := match on with | some k => d.sendLink k p.flits | none => d }
  else
    match on with
    | some k => { s with dl := ({ s.dl with fwd := s.dl.fwd ++ [{ utag := p.utag, src := l, out := k, n := if p.msg.typ = 1 then n else 0, got := [] }] } : DlSt).sendLink k p.flits }
    | none => s

/-- Whether a transfer of some core waits for a partner die. -/
def State.sitesWait (s : State) (l : Nat) : Bool :=
  (List.finRange 256).any fun c => s.cores[c].ops.any fun o => s.touchesSite c o (some (Fin.ofNat 2 (l - 16)))

/-- A response command: it returns along its request's route; from a partner die with a tag that nobody waits for it is counted (R15, R363). -/
def State.deliverAnswer (s : State) (l : Nat) (p : Packet) : State :=
  match s.dl.fwd.find? fun r => r.out = l && r.utag = p.utag with
  | some r => { s with dl := ({ s.dl with fwd := s.dl.fwd.erase r }).sendLink r.src p.flits }
  | none => if l < 16 || s.sitesWait l then s else { s with dl := { s.dl with unknownTag := s.dl.unknownTag + 1 } }

/-- A data unit: of a write whose command came on the same module, of a reply to a request forwarded, or of neither (R15, R350, R363). -/
def State.deliverUnit (s : State) (i : Nat) (u : Nat × List Byte) : State :=
  let l := i / 16
  match s.dl.opened.find? fun o => o.1 = i && o.2.1.utag = u.1 with
  | some o =>
    let bs := (o.2.2 ++ u.2).take o.2.1.len
    let d := { s.dl with opened := s.dl.opened.erase o }
    if bs.length < o.2.1.len then { s with dl := { d with opened := d.opened ++ [(i, o.2.1, bs)] } }
    else
      match o.2.1.msg with
      | .wr a wb _ => ({ s with dl := d }).deliverReq l { o.2.1 with msg := .wr a wb bs, part := none }
      | _ => { s with dl := d }
  | none =>
    match s.dl.fwd.find? fun r => r.out = l && r.utag = u.1 with
    | some r =>
      let bs := (r.got ++ u.2).take r.n
      let d := { s.dl with fwd := s.dl.fwd.erase r }
      if bs.length < r.n then { s with dl := { d with fwd := d.fwd ++ [{ r with got := bs }] } }
      else { s with dl := d.sendLink r.src (dataFlits r.utag bs) }
    | none => if l < 16 || s.sitesWait l then s else { s with dl := { s.dl with unknownTag := s.dl.unknownTag + 1 } }

/-- A command delivered by module `i`; a write waits for its data units (R350). -/
def State.deliverCmd (s : State) (i : Nat) (p : Packet) : State :=
  match p.msg with
  | .rdReq _ _ => s.deliverReq (i / 16) p
  | .wr a wb _ => if p.len = 0 then s.deliverReq (i / 16) { p with msg := .wr a wb [], part := none } else { s with dl := { s.dl with opened := s.dl.opened ++ [(i, p, [])] } }
  | .rdResp _ _ | .wrAck _ => s.deliverAnswer (i / 16) p
  | _ => s

/-- What a delivered flit brings (R350, R363, R364). -/
def State.deliverFlit (s : State) (i : Nat) (b : FlitBody) : State :=
  let s := { s with dl := { s.dl with deliv := s.dl.deliv ++ [(i, b)] } }
  b.units.foldl (fun s u => s.deliverUnit i u) (b.cmds.foldl (fun s p => s.deliverCmd i p) s)

/-- A flit received (R351, R354): in order it is delivered, else discarded with NAK; a NAK replays what is stored; 8 NAKs without progress retrain (R357). DEDUCED, unsafe (log 69). -/
def State.receiveFlit (s : State) (i : Nat) (f : Flit) : State :=
  let m := { s.dl.modAt i with l1 := false }
  if !f.crcOk then s.putDl i { m with nakOut := true, ackDue := true }
  else
    let m := m.sideWord f
    let idle := f.body.kind = 0
    let inOrder := decide (f.fseq = m.rxSeq)
    let m : DlMod := if idle then m
      else if inOrder then
        { m with rxSeq := (m.rxSeq + 1) % 4096, nakOut := false, ackDue := true,
                 owed := match f.body.queue with | some q => m.owed.set q (m.owed[q] + 1) | none => m.owed }
      else { m with nakOut := true, ackDue := true }
    let s := if 8 ≤ m.nakRun then
        s.setDl i { m with state := 1, retraining := true, nakRun := 0, retrains := if m.retrains = 0xffff#16 then m.retrains else m.retrains + 1 }
      else if f.nak then { s with dl := s.dl.replay i m } else s.putDl i m
    if idle || !inOrder then s else s.deliverFlit i f.body

/-- The first failing check of R362; none: admitted. -/
def admissionRefusal (f : AccFacts) (code : Nat) : Option Nat :=
  if !f.trained then some 2
  else if !f.partner || f.code ≠ code then some 3
  else if f.version ≠ 1 then some 4
  else if !f.infoOk || 64 < f.windowGib then some 5
  else if !f.tempInTime then some 6 else none

/-- A write of DL_TEST, or a LINK_TEST (R366, R367): the module goes to LOOP while no job is loaded. -/
def State.startLoop (s : State) (i ms : Nat) : Option State :=
  let m := s.dl.modAt i
  if s.jobLoaded || s.dl.looping.isSome || !dlListed s.fuses.lx i || ms < 1 || 10000 < ms || (m.state ≠ 2 && m.state ≠ 3) then none
  else some { s.setDl i { m with state := 5 } with dl := { (s.dl.setMod i { m with state := 5 }) with looping := some i, loopErrs := [] } }

/-- DL_TEST as a register (R367). -/
def State.dlTestWrite (s : State) (x : W64) : State :=
  if x.getLsbD 9 then (s.startLoop (bits x.toNat 8 0) (bits x.toNat 25 10)).getD s else s

/-- Whether a die of a module is in stand-alone test mode, its ports looped back at their own PHY (R365). -/
def State.inTest (s : State) (i : Nat) : Bool := s.tap.testMode.any fun d => d = (linkDies (i / 16)).1 || d = (linkDies (i / 16)).2

/-- UCIE_TRAIN_DONE (R353): A die-link module finishes training with lane repair and agreed width. -/
def execUcieTrainDone (i : Fin 288) (res : UcieTrain) (s : State) : Res :=
  onlyIf (dlListed s.fuses.lx i.val && (s.dl.modAt i.val).state = 1 && !(s.dl.modAt i.val).retraining) s fun s => .next (s.trainedModule i.val res)

/-- FLIT_RX (R351): A module receives a flit, delivering or discarding it with NAK. -/
def execFlitRx (i : Fin 288) (f : Flit) (s : State) : Res :=
  let m := s.dl.modAt i.val
  onlyIf (s.running && dlListed s.fuses.lx i.val && (m.state = 2 || m.state = 3) && !s.inTest i.val) s fun s => .next (s.receiveFlit i.val f)

/-- PHYRETRAIN_DONE (R357): A retrain ends in repair, half width, or FAILED with replay on a sibling of what the far end has not had (R358). DEDUCED, unsafe (log 69). -/
def execPhyretrainDone (i : Fin 288) (bad : BitVec 64) (r : RetrainEnd) (s : State) : Res :=
  let m := s.dl.modAt i.val
  onlyIf (m.state = 1 && m.retraining) s fun s =>
    let all := m.laneBad ||| bad
    let w := if m.widthLast = 3 then halfOn all m.higrp else widthFor all
    if !r.ok || w.state = 4 then .next ((s.setDl i.val { m with laneBad := all }).failModule i.val r.last)
    else .next (s.moduleUp i.val (m.setWidth all w (!m.inband || w.state = 3)))

/-- UCIE_L1_ENTRY (R354): In P2 a module idle for 1 µs enters L1. -/
def execUcieL1Entry (i : Fin 288) (s : State) : Res :=
  let m := s.dl.modAt i.val
  onlyIf (s.pstateNow = 2 && dlListed s.fuses.lx i.val && (m.state = 2 || m.state = 3)) s fun s => .next (s.setDl i.val { m with l1 := true })

/-- ACC_ADMISSION (R362): The Hub admits or refuses a partner die after training and checks. -/
def execAccAdmission (site : AccId) (f : AccFacts) (s : State) : Res :=
  onlyIf (s.fuses.lx && s.dl.accPower[site] && s.dl.acc[site] = 0) s fun s =>
    match admissionRefusal f s.fuses.accCode[site] with
    | none => .next { s with dl := { s.dl with acc := s.dl.acc.set site 1 } }
    | some k => .next ((s.dropSite site k).event procMP 2 4 [site.val, k])

/-- PARTNER_CMD_TIMEOUT (R363): A command to a partner die unanswered for 100 µs completes UNREACH. DEDUCED, unsafe (log 68). -/
def execPartnerCmdTimeout (c : CoreId) (op : Nat) (s : State) : Res :=
  match s.cores[c].opAt op with
  | some o =>
    onlyIf (s.touchesSite c o none) s fun s =>
      match o.body with
      | .xfer raw _ _ _ _ =>
        let d := XDesc.mk raw
        let bad := if d.usesSrc && d.sspace = 0 && (match s.mem.cfg.place s.fuses.lx (bits d.src 47 0) with | .acc _ => true | _ => false) then d.src else d.dst
        .next (s.setXfer c op 0 stUnreach bad)
      | _ => .next s
  | none => .next s

/-- PARTNER_TEMP_LOSS (R363): A partner die silent for 10 ms is treated as a thermal trip. DEDUCED, unsafe (log 68). -/
def execPartnerTempLoss (site : AccId) (s : State) : Res :=
  onlyIf (s.fuses.lx && s.dl.acc[site] = 1) s fun s =>
    let s := (s.drawn 1).trip (0x1a + site.val) (Config.order s.free 0 65536)
    .next { s with dl := { s.dl with acc := s.dl.acc.set site 7 } }

/-- PARTNER_OVERPOWER (R36): A partner die above its power for 10 ms has its rails removed. -/
def execPartnerOverpower (site : AccId) (s : State) : Res :=
  onlyIf (s.fuses.lx && s.dl.accPower[site]) s fun s => .next (s.dropSite site 7)

/-- DL_TEST (R367): A write to DL_TEST starts a loopback test on one module. -/
def execDlTest (x : W64) (s : State) : Res :=
  onlyIf s.running s fun s => .next (s.dlTestWrite x)

/-- LOOP_TEST_END (R366): A loopback test ends, reports errors and retrains the module. -/
def execLoopTestEnd (errs : List Nat) (margin : Nat) (res : UcieTrain) (s : State) : Res :=
  match s.dl.looping with
  | none => .next s
  | some i =>
    let m := s.dl.modAt i
    let s : State := { s with dl := { (s.dl.setMod i { m with state := 1 }) with looping := none, loopErrs := errs ++ [margin] } }
    .next ((s.trainedModule i res).endOpOf 0x0021 mbOk)

end Sys2Proof.Machine
end

