-- ==== Sys2Proof/Machine/Embedding.lean ====
section
/-! DEFINITION. Gathers, table descriptors and expert routing (R195 to R219, R522). -/

namespace Sys2Proof.Machine

/-- E_GATHER (R207): Starts an embedding gather at the lead Cellar. -/
def execEGather (c : CoreId) (g : Guard) (rs : SReg) (post : Option SemId) (s : State) : Res :=
  s.issueD c g (.async .gather rs post)

/-- E_DESC (R198): Checks and writes a table descriptor into its slot and writes a status word. -/
def execEDesc (c : CoreId) (g : Guard) (rs : SReg) (post : Option SemId) (s : State) : Res :=
  s.issueD c g (.async .desc rs post)

/-- E_DISPATCH (R218): Starts routing token rows into per-expert buffers. -/
def execEDispatch (c : CoreId) (g : Guard) (rs : SReg) (post : Option SemId) (s : State) : Res :=
  s.issueD c g (.async .dispatch rs post)

/-- E_COLLECT (R219): Starts gathering gated expert outputs back into token rows. -/
def execECollect (c : CoreId) (g : Guard) (rs : SReg) (post : Option SemId) (s : State) : Res :=
  s.issueD c g (.async .collect rs post)

/-- GATHER_COMPLETE (R207): A gather writes its outputs and response record and posts. -/
def execGatherComplete (c : CoreId) (op : Nat) (s : State) : Res :=
  onlyIf (s.storeOn c) s fun s => s.onOp c op fun o =>
    match o.body, s.gathers.find? fun g => g.core = c.val && g.op = op with
    | .gather _ _, some g => .next (if g.pend.isEmpty && g.allSent s.cores[c].store then s.finishGather c o g else s)
    | _, _ => .next s

/-- DISPATCH_COMPLETE (R218): Expert buffers and headers are visible and the dispatch posts. -/
def execDispatchComplete (c : CoreId) (op : Nat) (s : State) : Res :=
  onlyIf (s.storeOn c) s fun s => s.onOp c op fun o =>
    match o.body with
    | .dispatch raw => .next (if s.waitsNet c op then s else (s.dropReqs c op).finishDispatch c o raw (s.netResult c op).1)
    | _ => .next s

/-- COLLECT_COMPLETE (R219): The collected token rows are written and the operation posts. -/
def execCollectComplete (c : CoreId) (op : Nat) (s : State) : Res :=
  onlyIf (s.storeOn c) s fun s => s.onOp c op fun o =>
    match o.body with
    | .collect raw =>
      .next (if s.waitsNet c op then s else (s.dropReqs c op).finishCollect c o raw (s.netResult c op).1 (s.netResult c op).2)
    | _ => .next s

/-- Whether no earlier sub-request of the list waits at the same home Cellar: it serves them in arrival order (R209). -/
def firstOfCellar (ms : List GSub) (m : GSub) : Bool := ms.all fun x => x.cellar ≠ m.cellar

/-- The sub-requests among packets. -/
def gsubsOf (ps : List Packet) : List GSub := ps.filterMap fun p => match p.msg with | .gsub m => some m | _ => none

/-- GSUB (R209): A home Cellar reads and pools the rows of a gather sub-request. -/
def execGsub (remote : Bool) (k : Nat) (s : State) : Res :=
  onlyIf s.running s fun s =>
    if remote then
      match s.fab.deliv[k]? with
      | none => .next s
      | some p =>
        match p.msg with
        | .gsub m =>
          if !p.crcOk then .next (s.takeDeliv k).badPacket
          else if !firstOfCellar (gsubsOf (s.fab.deliv.take k)) m then .next s
          else
            let (r, s) := (s.takeDeliv k).serveSub m
            .next (s.sendMsg (p.respond s.fab.faddr.toNat stOk (.gpart r)))
        | _ => .next s
    else
      match s.gsubs[k]? with
      | none => .next s
      | some m =>
        if !firstOfCellar (s.gsubs.take k) m then .next s
        else
          let (r, s) := ({ s with gsubs := s.gsubs.eraseIdx k }).serveSub m
          .next { s with gparts := s.gparts ++ [r] }

/-- GPART (R207): The lead adds a partial response into its bags. -/
def execGpart (remote : Bool) (k : Nat) (s : State) : Res :=
  onlyIf s.running s fun s =>
    if remote then s.onResponse k fun m => m.typ = 0x11
    else
      match s.gparts[k]? with
      | none => .next s
      | some p =>
        .next ((({ s with gparts := s.gparts.eraseIdx k }).addPart p).freeLocal fun r =>
          match r.msg with
          | .gsub m => m.core = p.core && m.op = p.op && m.chunk = p.chunk && m.shard = p.shard && m.home = p.home && m.cellar = p.cellar
          | _ => false)

end Sys2Proof.Machine
end

