-- ==== Sys2Proof/Machine/Host.lean ====
section
/-! DEFINITION. The PCIe function, BAR4, submission-queue windows and the session (R368 to R391, R395, R427, R454, R487). -/

namespace Sys2Proof.Machine

/-- Whether the PCIe block is powered: from the ramp of VHUB on, and in P0 to P3 (R426, R453, R454). -/
def State.pciePowered (s : State) : Bool := s.pwr.pstate ≤ 3 || (decide (3 ≤ s.start.stage) && decide (s.start.stage ≤ 8))

/-- Whether the host reaches the BARs. -/
def State.hostLink (s : State) : Bool := s.pciePowered && s.hif.linkUp

/-- A reset of the function's configuration space (R371, R389). -/
def HifSt.configReset (h : HifSt) : HifSt := { h with busMaster := false, d3hot := false, roEnable := false, bar4Log := 36 }

/-- The J2 link is down. -/
def HifSt.linkLost (h : HifSt) : HifSt := { h with linkUp := false, width := 0, rate := 0 }

/-- Whether BAR4_BASE is aligned to the BAR4 size (R394, R487). -/
def HifSt.bar4Ok (h : HifSt) : Bool := h.bar4Base.toNat % 2 ^ h.bar4Log = 0

/-- Bytes of a line as a host read fills it: zeros where nothing answers, a free value where the content is uncorrectable (R164, R166,
R373). DEDUCED, safe (log 74). -/
def State.hostLine (s : State) (l : Nat) : List Byte :=
  let st := s.readStatus .host (128 * l) 128
  if st = stOk then s.readBytes (128 * l) 128
  else if st = stUncorr then (List.range 128).map fun i => BitVec.ofNat 8 (Config.order s.free i 256)
  else List.replicate 128 0

/-- A line served to the host: from the buffer, or filled; which line a full buffer gives up is free (R374). DEDUCED, safe (log 74). -/
def State.hostRead (s : State) (l : Nat) : List Byte × State :=
  match s.hif.buf.find? fun x => x.1 = l with
  | some x => (x.2, s)
  | none =>
    let bs := s.hostLine l
    let st := s.access .host (128 * l) 128
    let s := if st = stOk then s.touchLines (128 * l) 128 else s
    let b := if s.hif.buf.length < 512 then s.hif.buf else s.hif.buf.eraseIdx (Config.order s.free 0 512 % 512)
    (bs, (({ s with hif := { s.hif with buf := b ++ [(l, bs)] } }).drawn 1).accessRecord whoHost st (128 * l))

/-- Lines that a range covers read one after the other. -/
def State.hostReadLines (s : State) (ls : List Nat) : List Byte × State :=
  ls.foldl (fun a l => let (bs, s) := a.2.hostRead l; (a.1 ++ bs, s)) ([], s)

/-- Buffered lines updated by a host write (R374). -/
def HifSt.updateLines (h : HifSt) (a : Nat) (bs : List Byte) : HifSt :=
  { h with buf := h.buf.map fun x =>
      (x.1, x.2.zipIdx.map fun y => let k := 128 * x.1 + y.2; if a ≤ k && k < a + bs.length then (bs[k - a]?).getD y.1 else y.1) }

/-- A write of SQ_CFG (R380, R395). DEDUCED, safe (log 37). -/
def State.sqCfgWrite (s : State) (q : QId) (x : W64) : State :=
  if s.hif.queues[q].state = qDisabled then
    let s := s.updQueue q fun y => { y with cfg := x &&& 0x1e#64 }
    if x.getLsbD 0 then s.enableQueue q else s
  else if x.getLsbD 0 then s else s.disableQueue q

/-- PERST_ASSERT (R389): PERST_N asserted detaches the session. -/
def execPerstAssert (s : State) : Res :=
  onlyIf s.pciePowered s fun s =>
    .next (({ s with hif := { s.hif.configReset.linkLost with perstLow := true } }).detachSession 1)

/-- DLL_DOWN (R389): The PCIe data-link layer goes down and the session detaches. -/
def execDllDown (s : State) : Res :=
  onlyIf s.hostLink s fun s => .next (({ s with hif := s.hif.linkLost }).detachSession 2)

/-- FUNCTION_LEVEL_RESET (R389): A Function Level Reset detaches the session. -/
def execFunctionLevelReset (s : State) : Res :=
  onlyIf s.hostLink s fun s => .next (({ s with hif := s.hif.configReset }).detachSession 3)

/-- BUS_MASTER_ENABLE_CLEARED (R389): Bus Master Enable cleared detaches the session. -/
def execBusMasterEnableCleared (s : State) : Res :=
  onlyIf s.hostLink s fun s => .next (({ s with hif := { s.hif with busMaster := false } }).detachSession 4)

/-- D3HOT_ENTRY (R430): Entry into D3hot detaches the session. DEDUCED, safe (log 74). -/
def execD3hotEntry (s : State) : Res :=
  onlyIf s.hostLink s fun s => .next (({ s with hif := { s.hif with d3hot := true } }).detachSession 5)

/-- HEARTBEAT_EXPIRY (R389): No heartbeat within HB_TIME detaches the session. -/
def execHeartbeatExpiry (s : State) : Res :=
  onlyIf (s.hif.attached && s.hif.hbArmed && bits s.hif.hbTime.toNat 15 0 ≠ 0) s fun s => .next (s.detachSession 6)

/-- HIF_HEARTBEAT (R394): A write restarts the heartbeat time. -/
def execHifHeartbeat (s : State) : Res :=
  onlyIf s.hostLink s fun s => .next { s with hif := { s.hif with hbArmed := true } }

/-- PCIE_LINK_TRAIN (R21, R454): The J2 link trains after VHUB is up and PERST_N is high, in common-clock mode when HOST_REFCLK toggled at the release
of PERST_N, else in SRNS. DEDUCED, safe (log 74). -/
def execPcieLinkTrain (width : Nat) (rate : PcieRate) (s : State) : Res :=
  onlyIf s.pciePowered s fun s =>
    .next { s with inp := { s.inp with hostRefclk := rate.refclk }
                   hif := { s.hif with perstLow := false, linkUp := true, width := width % 32, rate := rate.gen % 8, busMaster := true, common := rate.refclk } }

/-- Address that a BAR4 request reaches: from BAR4_BASE; a free one where the placement is part-written (R373, R487). DEDUCED, safe (log 43). -/
def State.bar4Addr (s : State) (off : Nat) : Nat :=
  if s.hif.bar4Ok then s.hif.bar4Base.toNat + off else (Config.fresh s.free).toNat % 2 ^ 48

/-- BAR4_READ (R374, R487): A host read through BAR4 is served from the read buffer after earlier writes are visible. -/
def execBar4Read (off : Nat) (len : Nat) (s : State) : Res :=
  onlyIf s.hostLink s fun s =>
    if s.pwr.pstate = 3 then .next ((s.event procMP 3 6 [off, 0]).answer (List.replicate len 0))
    else if 2 ^ s.hif.bar4Log < off + len then .next s
    else
      let a := s.bar4Addr off
      let (bs, t) := (if s.hif.bar4Ok then s else s.drawn freeStep).hostReadLines (linesOf a len)
      .next (t.answer (s.openBytes (!s.hif.bar4Ok) ((bs.drop (a % 128)).take len)))

/-- BAR4_WRITE (R374, R487): A host write through BAR4 reaches device memory and updates buffered lines. -/
def execBar4Write (off : Nat) (data : List Byte) (s : State) : Res :=
  onlyIf s.hostLink s fun s =>
    if s.pwr.pstate = 3 then .next (s.event procMP 3 6 [off, 1])
    else if 2 ^ s.hif.bar4Log < off + data.length then .next s
    else
      let a := s.bar4Addr off
      let bs := s.openBytes (!s.hif.bar4Ok) data
      let t := (if s.hif.bar4Ok then s else s.drawn freeStep).writeAs .host a bs
      let st := s.access .host a data.length
      .next (if st = stOk then { t with hif := t.hif.updateLines a bs } else t.accessRecord whoHost st a)

/-- BAR4_SYNC (R388): A read of BAR4_SYNC invalidates the host read buffer. -/
def execBar4Sync (s : State) : Res :=
  onlyIf s.hostLink s fun s => .next (({ s with hif := { s.hif with buf := [] } }).answer (List.replicate 8 0))

/-- HIF_HFENCE (R388): A read of HIF_HFENCE completes after earlier host-memory writes. DEDUCED, safe (log 74). -/
def execHifHfence (s : State) : Res :=
  onlyIf s.hostLink s fun s => .next (s.answer (toLe 8 s.hif.hostWrites.toNat))

/-- SQ_SLOT_WRITE (R376): A host write places entry bytes in a submission-queue slot. DEDUCED, safe (log 43). -/
def execSqSlotWrite (q : QId) (off : Nat) (data : List Byte) (s : State) : Res :=
  onlyIf s.hostLink s fun s =>
    let x := s.hif.queues[q]
    match x.depth with
    | none => .next s
    | some d =>
      let n := min data.length (64 * d - off)
      if n = 0 then .next s
      else
        let w := { x with late := x.late ++ [(off, data.take n)] }
        .next (s.updQueue q fun _ => { w with echo := BitVec.ofNat 32 (Cells.le w.landed (64 * ((off + n - 1) / 64)) 4) })

/-- TAIL_ECHO (R381): A read of TAIL_ECHO completes after earlier slot writes have landed. -/
def execTailEcho (q : QId) (s : State) : Res :=
  onlyIf s.hostLink s fun s =>
    .next ((s.updQueue q fun y => { y with slots := y.landed, late := [] }).answer (toLe 8 s.hif.queues[q].echo.toNat))

/-- DOORBELL (R382): A doorbell makes the device read entries up to TAIL, or is ignored or errors the queue. DEDUCED, safe (log 43). -/
def execDoorbell (q : QId) (x : W64) (s : State) : Res :=
  onlyIf s.hostLink s fun s =>
    .next (s.doorbell q (x.setWidth 32))

/-- SQ_REREAD (R382): Every 1 µs an entry not yet visible is read again. -/
def execSqReread (q : QId) (s : State) : Res :=
  onlyIf s.hif.queues[q].waitVis s fun s => .next (s.pumpQueue q)

/-- SQ_STALLED (R382): An entry still not visible 100 µs after its doorbell stalls the queue. -/
def execSqStalled (q : QId) (s : State) : Res :=
  let x := s.hif.queues[q]
  onlyIf (x.state = qRunning && x.waitVis) s fun s =>
    let found := Cells.le x.landed (64 * (x.nextSeq.toNat % max 1 (x.depth.getD 1))) 4
    .next ((s.updQueue q fun y => { y with state := qStalled }).event (qpProc (s.queueQp q)) 3 2 [q.val, x.nextSeq.toNat, found])

/-- RESUME_QUEUE (R395): SQ_CTRL.RESUME restarts reading a STALLED queue. -/
def execResumeQueue (q : QId) (s : State) : Res :=
  onlyIf s.hostLink s fun s => .next (s.resumeQueue q)

/-- RESET_QUEUE (R395): SQ_CTRL.RESET leaves ERROR, aborts unstarted entries and sets NEXT_SEQ. -/
def execResetQueue (q : QId) (seq : W32) (s : State) : Res :=
  onlyIf s.hostLink s fun s => .next (s.resetQueue q seq)

/-- QUEUE_ENABLE (R380): Setting SQ_CFG.ENABLE enables a queue with fresh indices. -/
def execQueueEnable (q : QId) (x : W64) (s : State) : Res :=
  onlyIf (s.hostLink && x.getLsbD 0) s fun s => .next (s.sqCfgWrite q x)

/-- QUEUE_DISABLE (R380): Clearing SQ_CFG.ENABLE stops reads and aborts read unstarted entries. -/
def execQueueDisable (q : QId) (s : State) : Res :=
  onlyIf s.hostLink s fun s => .next (s.disableQueue q)

/-- CQ_HEAD (R386): The host reports progress, making room for further records. -/
def execCqHead (q : QId) (x : W64) (s : State) : Res :=
  onlyIf s.hostLink s fun s => .next (s.cqHeadWrite q x)

end Sys2Proof.Machine
end

