-- ==== Sys2Proof/Machine/MapSwitching.lean ====
section
/-! DEFINITION. Route maps: loading an image, the fabric's configuration, the map-switch barrier (R301 to R304, R309). -/

namespace Sys2Proof.Machine

/-- A group entry of a map image from its 128 bits (R302); none for a reserved value, a nonzero RSVD bit, or an OUT mask that holds the
IN direction. -/
def parseGroup (w : Nat) : Option McGroup :=
  let out := bits w 21 16
  let from' := bits w 25 23
  if bits w 127 26 ≠ 0 || from' = 6 || bit out from' then none else some ⟨bits w 15 0, out, bit w 22, from'⟩

/-- A map image of 4,160 bytes (R302); none: BAD. DEDUCED, unsafe (log 71). -/
def parseMap (img : List Byte) : Option RouteMap :=
  let order := fieldLe img 0 1
  let ax := fieldLe img 1 1
  let psel := fieldLe img 2 1
  let n := fieldLe img 3 1
  let gs := (List.range n).map fun g => parseGroup (fieldLe img (0x40 + 16 * g) 16)
  if 6 ≤ order || 64 ≤ ax || bits ax 1 0 = 3 || bits ax 3 2 = 3 || bits ax 5 4 = 3 || 2 ≤ psel ||
      ((img.drop 4).take 60).any (fun b => b ≠ 0#8) || gs.any (fun g => g.isNone) then none
  else some { order := order, axrule := ax, split := decide (psel = 1), groups := gs.filterMap id }

/-- FAB_MAP_LOAD (R301, R309): MAPLD becomes OK, BUSY or BAD. DEDUCED, unsafe (log 71). -/
def State.fabMapLoad (s : State) (x : W64) : State :=
  let a := bits x.toNat 47 0
  let slot := bits x.toNat 50 48
  let read := match s.place a with
    | .hbm _ _ => if a % 64 = 0 && s.readStatus .firmware a 4160 = stOk then parseMap (s.mem.read a 4160) else none
    | _ => none
  match read with
  | none => { s with fab := { s.fab with mapld := 2 } }
  | some m => { s with fab := s.fab.loadMap slot m }

/-- A write of 1 to FAB_COMMIT (R309). -/
def State.fabCommit (s : State) : State := { s with fab := { s.fab with cfg := s.fab.cfgShadow, hoplim := s.fab.hoplimShadow } }

/-- Coordinate at which the barrier tree of an axis is rooted: 0 on a ring, on a chain the line origin's, as the promenade or the JOIN told it (R295, R297, R303). DEDUCED, unsafe (log 71). -/
def FabSt.treeRoot (f : FabSt) (a : Axis) : Nat := if f.rings[a] then 0 else f.roots[a]

/-- The next coordinate toward the tree's root on an axis (R303). -/
def FabSt.towardRoot (f : FabSt) (a : Axis) (c : Nat) : Nat :=
  let n := max 1 f.dims[a]
  let r := f.treeRoot a
  if f.rings[a] then
    let k := (c + n - r) % n
    if 2 * k ≤ n then (c + n - 1) % n else (c + 1) % n
  else if r < c then c - 1 else c + 1

/-- The parent of a module on the barrier tree: along Z, then Y, then X; none at the root (R303). -/
def FabSt.parent (f : FabSt) (m : Nat) : Option Nat :=
  let c := fun (a : Axis) => f.coord m a.val
  let off := fun (a : Axis) => decide (c a ≠ f.treeRoot a)
  let go := fun (a : Axis) =>
    let g := fun (b : Axis) => if b = a then f.towardRoot a (c a) else c b
    f.addrOf (g 0) (g 1) (g 2)
  if off 2 then some (go 2) else if off 1 then some (go 1) else if off 0 then some (go 0) else none

/-- The children of this module on the barrier tree. -/
def FabSt.children (f : FabSt) : List Nat :=
  if !f.valid then []
  else
    let own := f.faddr.toNat
    let near := (List.range 6).filterMap fun d =>
      let a : Axis := Fin.ofNat 3 (d / 2)
      let c := f.coord own a.val
      let n := max 1 f.dims[a]
      let inside := f.rings[a] || (if d % 2 = 0 then decide (c + 1 < n) else decide (0 < c))
      if inside && decide (1 < n) then some (f.neighbour d) else none
    near.eraseDups.filter fun m => m ≠ own && f.parent m = some own

/-- A MAPSW packet on map 0 (R303). -/
def State.sendMapsw (s : State) (dst mseq map : Nat) (release : Bool) : State :=
  s.route { s.packet dst 0 (.mapsw mseq map release) with map := 0 } none

/-- Injection resumed: packets that a switch kept back go, under the map now current (R303, R304). -/
def State.resumeInjection (s : State) : State :=
  let ps := s.fab.held
  let rs := s.fab.reqs.map fun r => if !r.done && ps.any fun p => p.tag = r.tag && p.tagCel = r.cel && p.gen = r.gen then { r with map := s.fab.mapCur } else r
  ps.foldl (fun s p => s.inject p) { s with fab := { s.fab with held := [], reqs := rs } }

/-- A release: the new map, the number, packets kept back, the release down the tree (R303). -/
def State.release (s : State) (map mseq : Nat) : State :=
  let s := s.fab.children.foldl (fun s m => s.sendMapsw m mseq map true) s
  let f := { s.fab with mapCur := map, mseq := BitVec.ofNat 32 mseq, switch := none, mapswFail := false }
  ({ s with fab := f }).resumeInjection

/-- A module votes once it has drained and holds its children's votes; the root releases (R303). -/
def State.tryVote (s : State) : State :=
  match s.fab.switch with
  | none => s
  | some w =>
    if !w.drained || w.voted || !s.fab.children.all (fun m => w.votes.contains m) then s
    else
      match (if s.fab.valid then s.fab.parent s.fab.faddr.toNat else none) with
      | none => s.release w.map w.mseq
      | some m => ({ s with fab := { s.fab with switch := some { w with voted := true } } }).sendMapsw m w.mseq w.map false

/-- A MAPSW packet taken (R304): acted on at MSEQ = FAB_MSEQ + 1, ignored below, kept above and while no switch is requested here. -/
def State.takeMapsw (s : State) (p : Packet) : State :=
  match p.msg with
  | .mapsw mseq map rel =>
    if mseq ≤ s.fab.mseq.toNat then s
    else
      let keep : State := { s with fab := { s.fab with heldSw := s.fab.heldSw ++ [p] } }
      match s.fab.switch with
      | none => keep
      | some w =>
        if mseq ≠ w.mseq then keep
        else if rel then s.release map mseq
        else if w.votes.contains p.src then s
        else ({ s with fab := { s.fab with switch := some { w with votes := w.votes ++ [p.src] } } }).tryVote
  | _ => s

/-- MAPSW packets kept for the switch that begins. -/
def State.replayMapsw (s : State) : State :=
  let ps := s.fab.heldSw
  ps.foldl (fun s p => s.takeMapsw p) { s with fab := { s.fab with heldSw := [] } }

/-- A switch requested by the queue processors; during a promenade or a JOIN it waits (R303, R304). -/
def State.requestSwitch (s : State) (map : Nat) : State :=
  if s.fab.switch.isSome then s
  else if s.fab.prom.running || s.fab.prom.asking then { s with job := { s.job with mapWant := some map } }
  else
    let w : MapSwitch := ⟨map, s.fab.mseq.toNat + 1, false, [], false⟩
    ({ s with fab := { s.fab with switch := some w }, job := { s.job with mapWant := none } }).replayMapsw

/-- A switch that waited for the end of a promenade or a JOIN (R304). -/
def State.wantedSwitch (s : State) : State := match s.job.mapWant with | some m => s.requestSwitch m | none => s

/-- Whether everything this module injected under the current map has its response or acknowledgement, collective data included, and every request it received
is answered (R303). -/
def State.drainedNow (s : State) : Bool :=
  let f := s.fab
  let kept := fun (r : NetReq) => f.held.any fun p => p.tag = r.tag && p.tagCel = r.cel && p.gen = r.gen
  f.reqs.all (fun r => r.done || r.map ≠ f.mapCur || kept r) && (f.deliv ++ f.asm).all (fun p => p.cls ≠ 0 || p.map ≠ f.mapCur) &&
    s.coll.unacked.all fun u => f.held.any fun p => p.dst = u.2.2.1 && p.msg.typ = 0x20

/-- MAP_SWITCH_REQUEST (R303): The queue processors request a map switch and injection stops. -/
def execMapSwitchRequest (map : Fin 8) (s : State) : Res :=
  onlyIf (s.running && s.leader.isSome) s fun s => .next (s.requestSwitch map.val)

/-- MAP_SWITCH_DRAINED (R303): All packets under the old map are answered and the module votes. DEDUCED, unsafe (log 71). -/
def execMapSwitchDrained (s : State) : Res :=
  match s.fab.switch with
  | none => .next s
  | some w =>
    onlyIf (s.running && !w.drained && s.drainedNow) s fun s =>
      .next ({ s with fab := { s.fab with switch := some { w with drained := true } } }).tryVote

/-- MAPSW_VOTE (R303): A vote arrives at a barrier-tree node, which votes upward once all children have. -/
def execMapswVote (k : Nat) (s : State) : Res :=
  s.onDelivered k (fun m => match m with | .mapsw _ _ rel => !rel | _ => false) fun s p => .next (s.takeMapsw p)

/-- MAPSW_RELEASE (R303): A release switches the module to the new map and is replicated down the tree. -/
def execMapswRelease (k : Nat) (s : State) : Res :=
  s.onDelivered k (fun m => match m with | .mapsw _ _ rel => rel | _ => false) fun s p => .next (s.takeMapsw p)

/-- MAPSW_TIMEOUT (R304): A switch not released within MAPSW_TO leaves the module on its map with MAPSW_FAIL; after the backward-close barrier it is requested again (R263). DEDUCED, unsafe (log 71). -/
def execMapswTimeout (s : State) : Res :=
  match s.fab.switch with
  | none => .next s
  | some w =>
    let s := ({ s with fab := { s.fab with switch := none, mapswFail := true } }).resumeInjection
    .next (if 4 ≤ s.job.phase then s.requestSwitch w.map else s.failStep 304)

/-- FAB_MAP_LOAD (R301): A route-map image is checked and copied into a slot on all Cellar dies. -/
def execFabMapLoad (x : W64) (s : State) : Res :=
  onlyIf s.running s fun s => .next (s.fabMapLoad x)

/-- FAB_COMMIT (R309): The fabric configuration shadow is applied. -/
def execFabCommit (s : State) : Res :=
  onlyIf s.running s fun s => .next s.fabCommit

end Sys2Proof.Machine
end

