-- ==== Sys2Proof/Machine/Promenade.lean ====
section
/-! DEFINITION. The promenade and joining (R293 to R297, R455). -/

namespace Sys2Proof.Machine

/-- A PROM record sent one hop in direction `d` (R293). -/
def State.sendProm (s : State) (d : Nat) (root : W64) (m : PromMsg) : State :=
  if s.fab.dirUp d then
    let i := if s.fab.portUp (pairLow d) then pairLow d else pairLow d + 1
    { s with fab := s.fab.queueOn i ⟨s.packet 0 0 (.prom root m), none, false⟩ }
  else s

/-- A change of the promenade's state. -/
def State.updProm (s : State) (f : PromSt → PromSt) : State := { s with fab := { s.fab with prom := f s.fab.prom } }

/-- The end of a promenade or a JOIN with an outcome, the job in the cave then loaded (R481); all but DONE and JOINED leave VALID at 0 (R296). A switch that waited runs
(R304). -/
def State.endProm (s : State) (outcome : Nat) : State :=
  let ok := outcome = 2 || outcome = 7
  let f := { s.fab with promOut := outcome, valid := s.fab.valid && ok, prom := { s.fab.prom with running := false, asking := false } }
  let s := ((({ s with fab := f }).event procMP 1 4 [outcome]).endOpOf 0x0020 (if outcome = 2 then mbOk else mbFailed)).wantedSwitch
  if ok && s.ras.reloadDue then s.reloadJob else s

/-- Twice the diameter plus 16 (R295). -/
def FabSt.hopsFor (dims : Vector Nat 3) (rings : Vector Bool 3) : Nat :=
  16 + 2 * (List.finRange 3).foldl (fun a i => a + (if rings[i] then dims[i] / 2 else dims[i] - 1)) 0

/-- FAB_ADDR, dimensions, map 0 and HOP_LIMIT written (R295). -/
def State.setAddress (s : State) (pos dims : Vector Nat 3) (rings : Vector Bool 3) (wx wy wz : Nat) : State :=
  let f := { s.fab with wx := wx, wy := wy, wz := wz, dims := dims, rings := rings, valid := true }
  let hops := BitVec.ofNat 32 (FabSt.hopsFor dims rings)
  { s with fab := { f with faddr := BitVec.ofNat 24 (f.addrOf pos[0] pos[1] pos[2]), hoplim := hops, hoplimShadow := hops,
                           slots := f.slots.set 0 (some mapZero), mapCur := 0 } }

/-- ceil(log2 n), 0 for 1 (R294). -/
def clog2 (n : Nat) : Nat := ((List.range 25).find? fun w => n ≤ 2 ^ w).getD 25

/-- Walking an axis as the origin of its line (R294): a direction without a port ends at once. -/
def State.startLine (s : State) (a : Axis) : State :=
  let s := s.updProm fun p => { p with toward := p.toward.set a 2, offset := p.offset.set a 0, known := p.known.set a true }
  [0, 1].foldl (fun s k =>
    let d : Fin 6 := Fin.ofNat 6 (2 * a.val + k)
    if s.fab.dirUp d.val then
      (s.updProm fun p => { p with waiting := p.waiting.set d true, ends := p.ends.set d none }).sendProm d.val s.fab.prom.rootId (.walk a.val k 1)
    else s.updProm fun p => { p with waiting := p.waiting.set d false, ends := p.ends.set d (some (0, false)) }) s

/-- DONE taken: the address, then DONE along the same trees (R294, R295). -/
def State.takeDone (s : State) (from' : Option Nat) (nx ny nz wx wy wz : Nat) : State :=
  if !s.fab.prom.running then s
  else
    let p := s.fab.prom
    let rings := Vector.ofFn fun (i : Fin 3) => s.fab.rings[i] && decide (1 < (#v[nx, ny, nz] : Vector Nat 3)[i])
    let s := (s.setAddress p.coord #v[nx, ny, nz] rings wx wy wz).endProm 2
    let axes := if p.toward[2] ≠ 2 then [2] else if p.toward[1] ≠ 2 then [1, 2] else [0, 1, 2]
    axes.foldl (fun s a => [0, 1].foldl (fun s k =>
      if from' = some (2 * a + k) then s else s.sendProm (2 * a + k) p.rootId (.done nx ny nz wx wy wz)) s) s

/-- The root's decision once every report is in (R294, R296). -/
def State.rootDecide (s : State) : State :=
  let p := s.fab.prom
  let (nx, ys, zs) := (p.size[0], p.reportsY, p.reportsZ)
  let differ := fun (l : List Nat) => match l with | [] => false | x :: xs => xs.any (fun y => y ≠ x)
  if !p.running || p.rootId ≠ s.fuses.hubId || nx = 0 then s
  else if differ ys || differ zs then s.endProm 3
  else
    match ys, zs with
    | ny :: _, nz :: _ =>
      if ys.length < nx || zs.length < nx * ny then s
      else
        let (wx, wy, wz) := (clog2 nx, clog2 ny, clog2 nz)
        if 24 < wx + wy + wz then s.endProm 4 else s.takeDone none nx ny nz wx wy wz
    | _, _ => s

/-- A report on its way to the root: along Y to the X line, along X to the root (R294). -/
def State.passReport (s : State) (axis n : Nat) : State :=
  let p := s.fab.prom
  if p.toward[1] < 2 then s.sendProm (2 + p.toward[1]) p.rootId (.report axis n)
  else if p.toward[0] < 2 then s.sendProm p.toward[0] p.rootId (.report axis n)
  else
    (s.updProm fun p => if axis = 1 then { p with reportsY := p.reportsY ++ [n] } else { p with reportsZ := p.reportsZ ++ [n] }).rootDecide

/-- A mask of axes. -/
def axisMask (v : Vector Bool 3) : Nat := (List.finRange 3).foldl (fun a k => if v[k] then a + 2 ^ k.val else a) 0

/-- Coordinate of this module on a line of N modules: offset mod N on a ring, offset + c(−) on a chain. -/
def lineCoord (ring : Bool) (n base : Nat) (off : Int) : Nat := (if ring then off % (n : Int) else off + base).toNat

/-- The work of one axis whose line is complete at its origin, without what follows (R294): SET in both directions with the coordinates, the own
coordinate. None: the two ends are not both known. -/
def State.finishLine (s : State) (a : Axis) : Option State :=
  let p := s.fab.prom
  let d0 : Fin 6 := Fin.ofNat 6 (2 * a.val)
  let d1 : Fin 6 := Fin.ofNat 6 (2 * a.val + 1)
  match p.ends[d0], p.ends[d1] with
  | some (cp, rp), some (cm, rm) =>
    if p.size[a] ≠ 0 then none
    else
      let ring := rp || rm
      let n := if ring then (if rp then cp else cm) else cp + cm + 1
      let base := if ring then 0 else cm
      let s := s.updProm fun p => { p with size := p.size.set a n, coord := p.coord.set a (lineCoord ring n base 0) }
      let s := { s with fab := { s.fab with rings := s.fab.rings.set a ring, roots := s.fab.roots.set a base } }
      let m := PromMsg.set a.val n base ring s.fab.prom.coord s.fab.roots (axisMask s.fab.rings)
      some ((s.sendProm d0.val p.rootId m).sendProm d1.val p.rootId m)
  | _, _ => none

/-- The Z line of its origin, once complete, is reported. -/
def State.lineZ (s : State) : State :=
  match s.finishLine 2 with | some s => s.passReport 2 s.fab.prom.size[2] | none => s

/-- The Y line of its origin: the report, then the Z walk. -/
def State.lineY (s : State) : State :=
  match s.finishLine 1 with | some s => ((s.passReport 1 s.fab.prom.size[1]).startLine 2).lineZ | none => s

/-- The X line of the root: then the Y walk. -/
def State.lineX (s : State) : State :=
  match s.finishLine 0 with | some s => ((s.startLine 1).lineY).rootDecide | none => s

/-- A line completed at its origin, by axis. -/
def State.lineDone (s : State) (a : Axis) : State :=
  if s.fab.prom.toward[a] ≠ 2 then s else match a.val with | 0 => s.lineX | 1 => s.lineY | _ => s.lineZ

/-- A new promenade on this module under a root: VALID is 0 until its DONE. DEDUCED, unsafe (log 72). -/
def State.beginProm (s : State) (root : W64) : State :=
  { s with fab := { s.fab with prom := { PromSt.zero with running := true, rootId := root }, promOut := 1, valid := false,
                               rings := Vector.replicate 3 false, roots := Vector.replicate 3 0 } }

/-- The promenade of the root (R293, R455). -/
def State.runPromenade (s : State) : State := ((s.beginProm s.fuses.hubId).startLine 0).lineDone 0

/-- The end of one direction of a line found at this module: the origin keeps it, another module returns END (R294). -/
def State.lineEnd (s : State) (a : Axis) (dir c : Nat) (ring : Bool) : State :=
  let p := s.fab.prom
  let d : Fin 6 := Fin.ofNat 6 (2 * a.val + dir)
  if p.toward[a] = 2 then (s.updProm fun p => { p with ends := p.ends.set d (some (c, ring)), waiting := p.waiting.set d false }).lineDone a
  else s.sendProm (2 * a.val + (1 - dir)) p.rootId (.finish a.val dir c ring)

/-- Two roots have met: this one stops, whatever its promenade has come to, with VALID 0 (R296). -/
def State.rootConflict (s : State) : State := if s.fab.promOut = 5 then s else s.endProm 5

/-- A ROOT_CONFLICT record on its way to the root it names: along Z, Y and X (R296). DESIGN CHOICE, unsafe (log 115). -/
def State.takeConflict (s : State) (root : W64) : State :=
  let p := s.fab.prom
  if s.fab.root && root = s.fuses.hubId then s.rootConflict
  else if p.toward[2] < 2 then s.sendProm (4 + p.toward[2]) root .conflict
  else if p.toward[1] < 2 then s.sendProm (2 + p.toward[1]) root .conflict
  else if p.toward[0] < 2 then s.sendProm p.toward[0] root .conflict
  else s

/-- A WALK arriving on a port (R293, R294, R296); one of another root that reaches a root stops both. -/
def State.takeWalk (s : State) (i : Nat) (root : W64) (axis dir c : Nat) : State :=
  let a : Axis := Fin.ofNat 3 axis
  let s := s.sendPromOn i root (.walkAck axis dir)
  if s.fab.root && root ≠ s.fuses.hubId then (s.sendPromOn i root .conflict).rootConflict
  else
    let p := s.fab.prom
    let s := if p.running && p.rootId = root then s else s.beginProm root
    if s.fab.prom.toward[a] = 2 then s.lineEnd a dir c true
    else
      let off : Int := if dir = 0 then c else -(c : Int)
      let s := s.updProm fun p => { p with offset := p.offset.set a off, known := p.known.set a true, toward := p.toward.set a (1 - dir) }
      let d : Fin 6 := Fin.ofNat 6 (2 * axis + dir)
      if s.fab.dirUp d.val then (s.updProm fun p => { p with waiting := p.waiting.set d true }).sendProm d.val root (.walk axis dir (c + 1))
      else s.lineEnd a dir c false

/-- A vector whose entries before axis `a` come from another. -/
def upTo {α : Type} (a : Nat) (new old : Vector α 3) : Vector α 3 := Vector.ofFn fun (k : Fin 3) => if k.val < a then new[k] else old[k]

/-- A SET record (R294, R296): passed on, the coordinates taken, the next axis walked. -/
def State.takeSet (s : State) (i axis n base : Nat) (ring : Bool) (pos roots : Vector Nat 3) (rings : Nat) : State :=
  let a : Axis := Fin.ofNat 3 axis
  let p := s.fab.prom
  if !p.running || p.toward[a] = 2 || !p.known[a] then s
  else
    let d := portDir (Fin.ofNat 12 i)
    let s := s.sendProm (if d % 2 = 0 then d + 1 else d - 1) p.rootId (.set axis n base ring pos roots rings)
    let c := lineCoord ring n base p.offset[a]
    if p.size[a] ≠ 0 then (if p.coord[a] ≠ c || p.size[a] ≠ n then s.endProm 3 else s)
    else
      let s := s.updProm fun p => { p with size := p.size.set a n, coord := (upTo a.val pos p.coord).set a c }
      let f := s.fab
      let s := { s with fab := { f with rings := (upTo a.val (Vector.ofFn fun (k : Fin 3) => bit rings k.val) f.rings).set a ring,
                                        roots := (upTo a.val roots f.roots).set a base } }
      match axis with
      | 0 => (s.startLine 1).lineY
      | 1 => (s.startLine 2).lineZ
      | _ => s

/-- ASK on a port (R297). -/
def State.askOn (s : State) (i : Nat) : State :=
  (s.updProm fun p => { p with asking := true, asked := i :: p.asked.filter (· ≠ i) }).sendPromOn i s.fuses.hubId .ask

/-- ASK on every port that carries traffic (R297, R455). -/
def State.askAll (s : State) : State :=
  let s := s.updProm fun p => { p with answers := [], asked := [] }
  (List.range 12).foldl (fun s i => if s.fab.portUp i then s.askOn i else s) s

/-- The answer of a neighbour with a valid FADDR: coordinates, dimensions, widths, tree roots, axis and direction of the link, rings (R297). -/
def State.answerAsk (s : State) (i : Nat) (root : W64) : State :=
  if !s.fab.valid then s
  else
    let f := s.fab
    let own := f.faddr.toNat
    let d := portDir (Fin.ofNat 12 i)
    let pos : Vector Nat 3 := Vector.ofFn fun (k : Fin 3) => f.coord own k.val
    s.sendPromOn i root (.answer pos f.dims #v[f.wx, f.wy, f.wz] f.roots (d / 2) (d % 2) (axisMask f.rings))

/-- The coordinates that a joining module derives from an answer, with dimensions, widths, tree roots and rings (R297). -/
def joinCoords (pos dims widths roots : Vector Nat 3) (axis dir rings : Nat) : List Nat :=
  let n := max 1 ((dims[axis]?).getD 1)
  let step := fun c => if dir = 0 then (if bit rings axis then (c + 1) % n else c + 1) else (if bit rings axis then (c + n - 1) % n else c - 1)
  (pos.toList.zipIdx.map fun p => if p.2 = axis then step p.1 else p.1) ++ dims.toList ++ widths.toList ++ roots.toList ++ [rings]

/-- The JOIN concludes: all answers agree, or SHAPE (R296, R297). DEDUCED, unsafe (log 72). -/
def State.concludeJoin (s : State) : State :=
  match s.fab.prom.answers with
  | [] => s
  | a :: as =>
    if as.any (fun b => b ≠ a) then s.endProm 3
    else
      let g := fun i => (a[i]?).getD 0
      let rings := Vector.ofFn fun (k : Fin 3) => bit (g 12) k.val
      let s := { s with fab := { s.fab with roots := #v[g 9, g 10, g 11] } }
      let s := (s.setAddress #v[g 0, g 1, g 2] #v[g 3, g 4, g 5] rings (g 6) (g 7) (g 8)).endProm 7
      s.updProm fun p => { p with known := Vector.replicate 3 false, asked := [] }

/-- PROM record `k` of the input queue taken and handled with its port; another packet, a bad one or none changes nothing. DEDUCED, unsafe (log 72). -/
def State.onProm (s : State) (k : Nat) (want : PromMsg → Bool) (f : State → Nat → W64 → PromMsg → State) : Res :=
  onlyIf s.fabricOn s fun s =>
    match s.fab.inq[k]? with
    | some (i, p) =>
      match p.msg with
      | .prom root m => if !want m then .next s else if !p.crcOk then .next (s.takeInq k).badPacket else .next (f (s.takeInq k) i root m)
      | _ => .next s
    | none => .next s

/-- PROM_WALK (R294): A WALK record sets the module's offset and is forwarded or ended. DEDUCED, unsafe (log 72). -/
def execPromWalk (k : Nat) (s : State) : Res :=
  s.onProm k (fun m => match m with | .walk _ _ _ | .walkAck _ _ | .conflict => true | _ => false) fun s i root m =>
    match m with
    | .conflict => s.takeConflict root
    | .walk a d c => s.takeWalk i root (a % 3) (d % 2) c
    | .walkAck a d => s.updProm fun p => { p with waiting := p.waiting.set (Fin.ofNat 6 (2 * (a % 3) + d % 2)) false }
    | _ => s

/-- PROM_WALK_TIMEOUT (R293): A WALK not acknowledged within 1 ms ends that direction. -/
def execPromWalkTimeout (axis : Axis) (dir : Fin 2) (s : State) : Res :=
  let d : Fin 6 := Fin.ofNat 6 (2 * axis.val + dir.val)
  let p := s.fab.prom
  onlyIf (s.fabricOn && p.running && p.waiting[d]) s fun s =>
    .next ((s.updProm fun p => { p with waiting := p.waiting.set d false }).lineEnd axis dir.val (p.offset[axis]).natAbs false)

/-- PROM_END (R294): An END record reaches a line's origin, which computes the line size. -/
def execPromEnd (k : Nat) (s : State) : Res :=
  s.onProm k (fun m => match m with | .finish _ _ _ _ => true | _ => false) fun s _ _ m =>
    match m with | .finish a d c r => if s.fab.prom.running then s.lineEnd (Fin.ofNat 3 a) (d % 2) c r else s | _ => s

/-- PROM_SET (R294): A SET record gives the module its coordinate and starts the next axis walk. -/
def execPromSet (k : Nat) (s : State) : Res :=
  s.onProm k (fun m => match m with | .set _ _ _ _ _ _ _ => true | _ => false) fun s i _ m =>
    match m with | .set a n b r pos roots rings => s.takeSet i (a % 3) n b r pos roots rings | _ => s

/-- PROM_REPORT (R294): A line-size report reaches the root, which checks shape and sends DONE. -/
def execPromReport (k : Nat) (s : State) : Res :=
  s.onProm k (fun m => match m with | .report _ _ => true | _ => false) fun s _ _ m =>
    match m with | .report a n => if s.fab.prom.running then s.passReport a n else s | _ => s

/-- PROM_DONE (R295): DONE writes FAB_ADDR, dimensions, map 0 and HOP_LIMIT. -/
def execPromDone (k : Nat) (s : State) : Res :=
  s.onProm k (fun m => match m with | .done _ _ _ _ _ _ => true | _ => false) fun s i _ m =>
    match m with | .done nx ny nz wx wy wz => s.takeDone (some (portDir (Fin.ofNat 12 i))) nx ny nz wx wy wz | _ => s

/-- PROM_ASK (R297): A neighbour with a valid FADDR answers an ASK. -/
def execPromAsk (k : Nat) (s : State) : Res :=
  s.onProm k (fun m => match m with | .ask => true | _ => false) fun s i root _ => s.answerAsk i root

/-- PROM_ASK_ANSWER (R297): A joining module derives its coordinates from ASK answers. -/
def execPromAskAnswer (k : Nat) (s : State) : Res :=
  s.onProm k (fun m => match m with | .answer _ _ _ _ _ _ _ => true | _ => false) fun s i _ m =>
    match m with
    | .answer pos dims widths roots a d r =>
      if !s.fab.prom.asking || !s.fab.prom.asked.contains i then s
      else
        let s := s.updProm fun p =>
          { p with answers := p.answers ++ [joinCoords pos dims widths roots (a % 3) (d % 2) r], asked := p.asked.filter (· ≠ i) }
        if s.fab.prom.asked.any s.fab.portUp then s else s.concludeJoin
    | _ => s

/-- PROMENADE_TIMEOUT (R296): No DONE within 10 s of port training ends the promenade with TIMEOUT. -/
def execPromenadeTimeout (s : State) : Res :=
  onlyIf (s.fabricOn && s.start.settled && !s.fab.valid && (s.fab.prom.running || s.fab.promOut = 0)) s fun s => .next (s.endProm 6)

end Sys2Proof.Machine
end

