-- ==== Sys2Proof/Machine/Startup.lean ====
section
/-! DEFINITION. Cold start, the start from P4, readiness, Vat-die resets (R402 to R405, R444 to R464, R481, R492, R499, R503). -/

namespace Sys2Proof.Machine

/-- A boot record (R402): BOOT and the image, with their CRC-32C behind them; none when the CRC fails. DESIGN CHOICE, unsafe (log 50). -/
def FwSt.bootCopy (f : FwSt) (k : Nat) : Option Nat :=
  let b := f.flashRead (4096 * k) 12
  if crc32c (b.take 8) = leNat (b.drop 8) then some (leNat (b.take 4) % 2 ^ 20) else none

/-- The copy taken and its BOOT; without one, copy B at 0. DESIGN CHOICE, unsafe (log 50). -/
def FwSt.bootTaken (f : FwSt) : Nat × Nat :=
  match f.bootCopy 0, f.bootCopy 1 with
  | some a, some b => if a < b then (1, b) else (0, a)
  | some a, none => (0, a)
  | none, some b => (1, b)
  | none, none => (1, 0)

/-- BOOT of a start written into the other copy (R402). DESIGN CHOICE, unsafe (log 50). -/
def FwSt.putBoot (f : FwSt) (copy boot image : Nat) : FwSt :=
  let b := toLe 4 boot ++ toLe 4 image
  f.flashWrite (4096 * copy) (b ++ toLe 4 (crc32c b))

/-- A field of an image's header (R403). -/
def FwSt.imgLe (f : FwSt) (r o n : Nat) : Nat := leNat (f.flashRead (imageBase r + o) n)
def FwSt.imgVersion (f : FwSt) (r : Nat) : Nat := f.imgLe r 4 4
def FwSt.imgLength (f : FwSt) (r : Nat) : Nat := f.imgLe r 8 4

/-- Components of an image: class, offset, length. -/
def FwSt.imgComps (f : FwSt) (r : Nat) : List (Nat × Nat × Nat) :=
  (List.range (f.imgLe r 2 2)).map fun c => (f.imgLe r (0x40 + 32 * c) 1, f.imgLe r (0x44 + 32 * c) 4, f.imgLe r (0x48 + 32 * c) 4)

/-- FORMAT and LENGTH correct (R404). -/
def FwSt.imgHeaderOk (f : FwSt) (r : Nat) : Bool :=
  let n := f.imgLength r
  f.imgLe r 0 2 = 1 && decide (1 ≤ f.imgLe r 2 2) && decide (f.imgLe r 2 2 ≤ 8) && decide (4096 ≤ n) && decide (n ≤ 0x3000000) &&
  (f.imgComps r).all fun c => decide (c.2.1 + c.2.2 ≤ n)

/-- Whether an image verifies under a key (R403, R404, R495). -/
def FwSt.imgSigned (f : FwSt) (r : Nat) (pk : BitVec 512) : Bool :=
  f.imgHeaderOk r &&
  (let body := f.flashRead (imageBase r) 0x140 ++ ((f.imgComps r).map fun c => f.flashRead (imageBase r + c.2.1) c.2.2).flatten
   Config.xmssVerify pk (Config.shake256 body) (f.flashRead (imageBase r + 0x140) 2820))

/-- Whether an image is valid (R404, R495). -/
def FwSt.imgValid (f : FwSt) (r : Nat) (z : Fuses) : Bool := f.imgSigned r z.fwPk && decide (z.floor ≤ f.imgVersion r / 2 ^ 24)

/-- Selection (R404): the image, whether both are valid with equal VERSION, whether the other is valid. -/
def FwSt.select (f : FwSt) (z : Fuses) : Option Nat × Bool × Bool :=
  let (va, vb) := (f.imgVersion 0, f.imgVersion 1)
  match f.imgValid 0 z, f.imgValid 1 z with
  | true, true => (some (if va < vb then 1 else 0), decide (va = vb), true)
  | true, false => (some 0, false, false)
  | false, true => (some 1, false, false)
  | false, false => (none, false, false)

/-- Slots of the reservation region (R503) up to the first that is all ones: the highest MARK whose CRC holds, and that slot. -/
def FwSt.reservation (f : FwSt) : Nat → Nat → Nat → Nat × Nat
  | 0, k, h => (h, k)
  | n + 1, k, h =>
    let b := f.flashRead (0x6100000 + 16 * k) 16
    if b.all fun x => x = 0xff#8 then (h, k)
    else f.reservation n (k + 1) (if crc32c (b.take 12) = leNat (b.drop 12) then max h (leNat (b.take 4)) else h)

/-- The signature indices of a start begin at H, with no block reserved (R503). -/
def State.startIndex (s : State) : State :=
  let (h, _) := s.fw.reservation 65536 0 0
  { s with sec := { s.sec with index := h, mark := h } }

/-- The level of a start: the one requested, else that of R492 (R498, R499). -/
def State.levelAtStart (s : State) : State :=
  let l := if s.sec.raise then 2 else s.fuses.startLevel
  let s := ({ s with sec := { s.sec with raise := false, nonce := none, quoteWait := false } }).setLevel l
  if l = 2 then s.eraseFull else s

/-- A START record (R412, R444). DEDUCED, unsafe (log 51). -/
def State.startRecord (s : State) : State :=
  s.logRec procMP 0x0001 [s.fw.boot.toNat, s.fw.image, s.fw.version.toNat, s.start.cause]

/-- What a cold reset leaves (R426, R461): the flash, host memory, the cave while its expanders are powered, the board's inputs, lane
defects recorded in fuses. -/
def State.coldState (s : State) (z : Fuses) (root ref : Bool) : State :=
  let boot := (s.fw.bootTaken.2 + 1) % 2 ^ 20
  let m := s.mem.powerLost
  let r := s.ras
  { State.reset with
    pending := s.pending, free := s.free, reply := s.reply, fuses := z
    inp := { s.inp with modReset := true, thermTrip := false, promRoot := root, refOk := ref }
    mem := { m with cfg := { MemCfg.zero with caveMap := m.cfg.caveMap } }
    fab := { FabSt.zero with root := root, ports := s.fab.ports.map fun (x : Port) => { Port.zero with optReady := x.optReady } }
    dl := { DlSt.zero with mods := s.dl.mods.map fun (x : Nat × DlMod) => (x.1, { DlMod.zero with fuseBad := x.2.fuseBad }) }
    hif := { HifSt.zero with perstLow := s.hif.perstLow }
    cave := { CaveSt.zero with ports := s.cave.ports.map fun (x : CavePortSt) => { CavePortSt.zero with pwrOk := x.pwrOk } }
    ras := { RasSt.zero with hdrA := r.hdrA, hdrB := r.hdrB, jobCopy := r.jobCopy, base := r.base, deltas := r.deltas, areaBase := r.areaBase,
                             areaGib := r.areaGib, hbmLost := true }
    pwr := { PowerSt.zero with holdup := s.pwr.holdup, holdupOk := s.pwr.holdupOk, sagMin := s.pwr.sagMin, sagTold := s.pwr.sagTold }
    fw := { FwSt.zero with flash := s.fw.flash, boot := BitVec.ofNat 20 boot,
                           procs := Vector.replicate 10 { Proc.zero with stamp := BitVec.ofNat 64 (boot * 2 ^ 44) } }
    start := { StartSt.zero with coldHeld := false, coldDone := true, cause := if s.start.nextCause = 0 then 1 else s.start.nextCause,
                                 nextCause := s.start.nextCause }
    sec := { SecSt.zero with level := z.startLevel, pending := if z.lifecycle = 0 && z.idSk ≠ 0 then some 1 else none } }

/-- The records of image selection (R404, R412). -/
def State.imageRecords (s : State) (sel : Option Nat) (split other : Bool) : State :=
  let vs := [s.fw.imgVersion 0, s.fw.imgVersion 1]
  match sel with
  | none => s
  | some _ => if split then s.logRec procSP 0x0007 (0 :: vs) else if other then s else s.logRec procSP 0x0007 (1 :: vs)

/-- The cold phase (R402 to R404, R445 to R448): `root` is what PROM_ROOT_N shows, `ref` whether REF100 is valid. DESIGN CHOICE, unsafe (log 50). -/
def State.coldPhase (s : State) (z : Fuses) (root ref : Bool) : State :=
  let taken := s.fw.bootTaken
  let s := s.dropUpdate.coldState z root ref
  let (sel, split, other) := s.fw.select z
  let img := sel.getD 0
  let f := s.fw.putBoot (1 - taken.1) s.fw.boot.toNat img
  let f : FwSt := { f with image := img, split := split, otherValid := other, noImage := sel.isNone, selected := sel.isSome,
                           version := if sel.isSome then BitVec.ofNat 32 (f.imgVersion img) else 0,
                           store := if sel.isSome then f.flashRead (imageBase img) (f.imgLength img) else [] }
  let f : FwSt := { f with digests := if sel.isSome then (f.imgComps img).map fun c => Config.shake256 ((f.store.drop c.2.1).take c.2.2) else [] }
  let s := (({ s with fw := f }).imageRecords sel split other).startIndex
  let s := if z.startLevel = 2 then s.eraseFull else s
  let s : State := { s with start := { s.start with dur := Config.fresh s.free &&& 0xffffffff#64 }, free := s.free + 1 }
  s.startRecord.setStage 2

/-- The region table after one retirement on CELn (R173). DEDUCED, unsafe (log 51). -/
def shrinkTable (t : Vector W64 16) (n : Nat) : Vector W64 16 :=
  let top := fun (p : W64 → Bool) (g : Nat) =>
    t.toList.zipIdx.foldl (fun (best : Option (Nat × Nat)) x =>
      if rgValid x.1 && p x.1 && decide (g ≤ rgSize x.1) && (match best with | some b => decide (b.1 < rgBase x.1) | none => true)
      then some (rgBase x.1, x.2) else best) none
  let cut := fun (i g : Nat) =>
    let r := (t.toList[i]?).getD 0
    t.set (Fin.ofNat 16 i) (if rgSize r = g then 0 else rgMake (rgDomain r) (rgKind r) (rgBase r) (rgSize r - g))
  match top (fun r => rgKind r = 5 && rgDomain r = n + 1) 2 with
  | some b => cut b.2 2
  | none =>
    match top (fun r => (rgKind r = 5 || rgKind r = 6) && rgDomain r = 0) 8 with
    | some b => cut b.2 8
    | none => t

/-- The channels that a start retires: those that fail HBM training and those marked (R453, R469). DEDUCED, unsafe (log 51). -/
def State.retiring (s : State) (bad : List (Fin 1024)) : List Nat :=
  (List.range 1024).filter fun i => s.ras.pcMark.getLsbD i || bad.any fun b => b.val = i

/-- HBM trained, its channels retired, the shrunk default table committed under a new key (R167, R172, R173, R453). DEDUCED, safe (log 86). -/
def State.startHbm (s : State) (bad : List (Fin 1024)) : State :=
  let ch := s.retiring bad
  let onCel := fun (n : Nat) => ch.filter fun c => c / 256 = n
  let cap := Vector.ofFn fun (n : Fin 4) => 512 - 2 * (onCel n.val).length
  let t := ch.foldl (fun t c => shrinkTable t (c / 256)) defaultRegions
  let st := commitStatus t 0 cap false
  let key := Config.fresh s.free
  let stat := Vector.ofFn fun (n : Fin 4) =>
    let word := fun (w : Fin 4) => BitVec.ofNat 64 ((onCel n.val).foldl (fun a c => if c % 256 / 64 = w.val then a + 2 ^ (c % 64) else a) 0)
    { MemStat.zero with retired := Vector.ofFn word }
  let c := { s.mem.cfg with cap := cap, key := key, keyEpoch := 0, status := BitVec.ofNat 64 st,
                            table := if st = 0 then t else s.mem.cfg.table, shadow := if st = 0 then t else s.mem.cfg.shadow }
  { s with mem := { s.mem with cfg := c, stat := stat }, free := s.free + 1, start := { s.start with pcRetired := ch.length, capOk := decide (st = 0) },
           ras := { s.ras with pcUe := [] } }

/-- The log ring set up: the early log copied into it in POS order, what it could not hold told (R449). DEDUCED, unsafe (log 51). -/
def State.startLog (s : State) : State :=
  let es := s.log.early
  let n := s.log.earlyLost
  let s : State := { s with log := { s.log with base := s.mem.cfg.runtimeBase, ringUp := true, early := [], earlyLost := 0, suppressed := BitVec.ofNat 64 n } }
  let s := es.foldl (fun s r => s.putRecord r) s
  if n = 0 then s else s.logAlways procMP 0x000a [0, n]

/-- Held processors released, counts since start at 0 (R443, R461, R490, R514). DEDUCED, unsafe (log 46). -/
def State.freshCounts (s : State) : State :=
  let s : State := { s with fw := { s.fw with hbmBad := [], procs := s.fw.procs.map fun (p : Proc) => { p with state := 0, expiries := 0, recent := 0 } } }
  let s : State := { s with ras := { s.ras with csCe := 0, csUe := 0, hbmCe := 0, hbmUe := 0, fences := 0, rollback := 0, restores := 0, splits := 0,
                                                flushInc := 0, deltaWait := 0, dieResets := Vector.replicate 4 0 } }
  let s : State := { s with pwr := { s.pwr with sagCnt := 0, protectCnt := 0, capTicks := 0, flushInc := 0 } }
  { s with sec := { s.sec with quotes := 0, tokenFail := 0, tapDeny := 0 }, mgmt := { s.mgmt with evtLost := 0 } }

/-- A start from P4 (R453), up to the step that fails or to VCORE. DESIGN CHOICE, safe (log 49). -/
def State.startUp (s : State) (f : StartFacts) : State :=
  let old := s.pstateNow
  let cause := if s.start.nextCause = 0 then s.start.cause else s.start.nextCause
  let s := s.freshCounts
  let s : State := { s with start := { s.start with cause := cause, fail := 0, celUp := f.celUp, copyOk := f.copy1 || f.copy2, settled := false,
                                                    asking := false, cores := 0, pcRetired := 0, cavePorts := 0 } }
  let s := s.startIndex.levelAtStart
  if !f.celUp then s.setStage 3
  else
    let s : State := { s with pwr := { s.pwr with pstate := 0, bucket := 50000, capCeil := 64, dead := 0 },
                              dl := { s.dl with acc := Vector.replicate 2 0, accPower := Vector.replicate 2 s.fuses.lx } }
    let s := ((s.trainModules fun i => 192 ≤ i).startHbm f.badChannels).tellPower old
    if !s.start.capOk then s.setStage 5
    else if !s.start.copyOk then s.setStage 6
    else
      let s : State := { s with mem := { s.mem with bytes := Cells.write s.mem.bytes 0 s.fw.store } }
      let s := s.startLog.startRecord
      if s.pwr.holdupOk then s.vcoreStart else s.setStage 7

/-- A failed start (R459): P4, STAGE FAILED, the code, its record in the early log. -/
def State.failStart (s : State) (code : Nat) : State :=
  let s := s.enterP4 10
  ({ s with start := { s.start with fail := code, barred := true } }).event procMP 8 0x21 [code]

/-- Whether the last step of R453 has ended: VCORE on, no link module, fabric port or cave port still training. DESIGN CHOICE, safe (log 49). -/
def State.stepsEnded (s : State) : Bool :=
  s.start.stage = 8 && (s.start.settled || (List.finRange 12).all fun p => s.fab.ports[p].state ≠ 1) &&
  ((List.finRange 4).all fun k => s.cave.ports[k].state ≠ 1) && s.dl.mods.all fun x => x.2.state ≠ 1

/-- The first failing condition of R457; 0 when all hold. DEDUCED, unsafe (log 58). -/
def State.readyCode (s : State) : Nat :=
  if !s.start.celUp then 1
  else if [12, 13, 14, 15].any fun l => s.linkFailed l then 2
  else if !s.start.capOk then 3
  else if !s.start.copyOk then 4
  else if !(List.finRange 4).any fun v => s.dieLinked v then 5
  else if (List.finRange 10).any fun p => s.procHeld p then 6 else 0

/-- The cores enabled at a start (R458). -/
def State.startCores (s : State) : Vector Core 256 := Vector.ofFn fun (c : CoreId) => Core.returned (s.dieLinked (vatOf c))

/-- The module ready (R458, R459, R481): cores, READY, the record; the job in the cave is loaded, or waits for the module's address. DESIGN CHOICE, safe (log 49). -/
def State.becomeReady (s : State) (ms : Nat) : State :=
  let cs := s.startCores
  let n := ((List.finRange 256).filter fun c => cs[c].ctl.enabled).length
  let lo := bits s.start.dur.toNat 31 0
  let s : State := { s with cores := cs }
  let s : State := { s with start := { s.start with cores := n, dur := BitVec.ofNat 64 (lo + 2 ^ 32 * (ms % 2 ^ 32)), nextCause := 0 } }
  let s := ((s.setStage 9).setReady true).event procMP 8 0x20 [n, s.start.pcRetired, s.mem.cfg.caveSize, lo, ms]
  let d := s.serveDebug
  if d.2 then d.1.enterP4 2
  else
  let s := d.1
  let lone := match s.ras.jobCopy with | some c => decide (c.members.length ≤ 1) | none => true
  if s.fab.valid || lone || s.ras.header.isNone then s.reloadJob else { s with ras := { s.ras with reloadDue := true } }

/-- Whether every core of a Vat die in service has been fenced (R462). -/
def State.dieFenced (s : State) (v : VatId) : Bool :=
  ((List.finRange 256).any fun c => vatOf c = v && s.cores[c].ctl.fenced) &&
  (List.finRange 256).all fun c => vatOf c ≠ v || !s.cores[c].ctl.enabled || s.cores[c].ctl.fenced

/-- Whether a link module belongs to a link of a Vat die. -/
def onDie (v : VatId) (i : Nat) : Bool := decide (i < 192) && (decide ((linkDies (i / 16)).1 = v.val) || decide ((linkDies (i / 16)).2 = v.val))

/-- Steps 1 to 3 of a requested die reset (R463): dispatch held, the die's logic reset, its links retrain. -/
def State.resetDie (s : State) (v : VatId) : State :=
  let cs := Vector.ofFn fun (c : CoreId) => if vatOf c = v then s.cores[c].powerLost else s.cores[c]
  let s : State := { s with cores := cs }
  let s : State := { s with ras := { s.ras with dieResetting := some v.val, dieResets := s.ras.dieResets.set v (s.ras.dieResets[v] + 1) } }
  ({ s with job := { s.job with stopDispatch := true } }).trainModules (onDie v)

/-- The end of a die reset (R463): the cores whose links are not lost come back and join the map at the next boundary. DEDUCED, safe (log 54). -/
def State.endDieReset (s : State) (v : VatId) (ok : Bool) : State :=
  let cs := Vector.ofFn fun (c : CoreId) => if ok && vatOf c = v && s.cores[c].ctl.enabled && s.dieLinked v then Core.returned true else s.cores[c]
  let s : State := { s with cores := cs }
  let s : State := { s with ras := { s.ras with dieResetting := none } }
  { s with job := { s.job with stopDispatch := false } }

/-- COLD_RESET_RELEASE (R19, R446): Cold reset ends and the cold phase verifies and selects an image, ending in P4; PROM_ROOT_N is sampled. -/
def execColdResetRelease (f : ColdFacts) (s : State) : Res :=
  onlyIf (s.start.coldHeld && s.pwr.pstate = 4) s fun s => .next (s.coldPhase f.fuses f.root f.refOk)

/-- START_FROM_P4 (R452, R453): Once every condition of R452 holds the module powers, trains and zero-writes HBM; whether REF100 is valid is seen
now. DESIGN CHOICE, safe (log 49). -/
def execStartFromP4 (f : StartFacts) (s : State) : Res :=
  onlyIf (s.pwr.pstate = 4 && s.start.coldDone && !s.start.coldHeld && !s.start.barred && !s.starting && s.procUp procMP) s fun s =>
    let s : State := { s with inp := { s.inp with refOk := f.refOk } }
    .next (if s.waitCond = 0 then s.startUp f else s)

/-- START_STEP_TIMEOUT (R453): A start step exceeding its bound fails the start with TIMEOUT. -/
def execStartStepTimeout (s : State) : Res :=
  onlyIf s.starting s fun s => .next (s.failStart 7)

/-- READINESS_EVALUATE (R457): After the last start step the module becomes ready or fails the start. DESIGN CHOICE, safe (log 49). -/
def execReadinessEvaluate (ms : Nat) (s : State) : Res :=
  onlyIf (s.starting && (s.stepsEnded || !s.start.celUp || !s.start.capOk || !s.start.copyOk)) s fun s =>
    let k := s.readyCode
    .next (if k ≠ 0 then
      let s := s.failStart k
      { s with start := { s.start with dur := BitVec.ofNat 64 (bits s.start.dur.toNat 31 0 + 2 ^ 32 * (ms % 2 ^ 32)) } }
    else s.becomeReady ms)

/-- PORTS_SETTLED (R455): Fabric ports settle and the module sends ASK or runs the promenade. -/
def execPortsSettled (s : State) : Res :=
  onlyIf (s.running && (s.start.stage = 8 || s.start.stage = 9) && !s.start.settled) s fun s =>
    let s : State := { s with start := { s.start with settled := true } }
    if (List.range 12).any fun i => s.fab.portUp i then .next ({ s with start := { s.start with asking := true } }).askAll
    else if s.fab.root then .next s.runPromenade
    else .next s

/-- ASK_TIMEOUT (R455): No further ASK answer within 1 ms: with answers the JOIN concludes, else the root runs the promenade, others wait. -/
def execAskTimeout (s : State) : Res :=
  onlyIf (s.running && (s.start.asking || s.fab.prom.asking)) s fun s =>
    let first := s.start.asking
    let s : State := { s with start := { s.start with asking := false } }
    if s.fab.valid then .next s
    else if !s.fab.prom.answers.isEmpty then .next s.concludeJoin
    else
      let s : State := { s with fab := { s.fab with prom := { s.fab.prom with asking := false, asked := [] } } }
      .next (if first && s.fab.root && !s.fab.prom.running then s.runPromenade else s)

/-- VAT_DIE_RESET (R463): A QP-requested reset of a Vat die runs at a step boundary. -/
def execVatDieReset (v : VatId) (s : State) : Res :=
  onlyIf (s.vcoreOn && s.pwr.protect.isNone && s.job.phase = 0 && s.ras.dieResetting.isNone && s.dieFenced v && decide (s.ras.dieResets[v] < 3) &&
      ((List.finRange 256).all fun c => s.cores[c].ops.isEmpty) &&
      [12, 13, 14, 15].all fun l => !s.linkFailed l) s fun s => .next (s.resetDie v)

/-- VAT_RESET_DONE (R463): The die reset finishes, or fails after 20 ms, and dispatch resumes. DEDUCED, safe (log 54). -/
def execVatResetDone (ok : Bool) (s : State) : Res :=
  match s.ras.dieResetting with
  | none => .next s
  | some k =>
    let v : VatId := Fin.ofNat 4 k
    onlyIf (!ok || s.dl.mods.all fun x => !onDie v x.1 || x.2.state ≠ 1) s fun s => .next (s.endDieReset v ok)

end Sys2Proof.Machine
end

