-- ==== Sys2Proof/Machine/MailOps.lean ====
section
/-! DEFINITION. The mailbox: checks, admission, service of each opcode, exports and imports (R271, R272, R391, R406 to R410, R417,
R456, R507). -/

namespace Sys2Proof.Machine

/-- Payload bytes of an opcode; none when it is not listed (R409). DESIGN CHOICE, unsafe (log 55). -/
def mbLength : Nat → Option Nat
  | 0x0001 | 0x0011 | 0x0012 | 0x0013 | 0x0014 | 0x0019 | 0x0020 | 0x0031 => some 0
  | 0x0002 | 0x0003 | 0x0016 | 0x0017 | 0x0021 => some 8
  | 0x0010 => some 16
  | 0x0015 => some 24
  | 0x0018 => some 2
  | 0x0030 => some 8
  | 0x0032 => some 32
  | _ => none

/-- Opcodes that need no session (R407). -/
def noSession (op : Nat) : Bool := [0x0001, 0x0002, 0x0014, 0x0031].contains op

/-- The exclusive class (R408). -/
def exclusiveOp (op : Nat) : Bool := [0x0010, 0x0012, 0x0020, 0x0021].contains op

/-- Whether an opcode can answer ACCEPTED (R408). -/
def acceptingOp (op : Nat) : Bool := exclusiveOp op || boundaryOps.contains op || op = 0x0013

/-- A payload field. -/
def MbxReq.fld (m : MbxReq) (o n : Nat) : Nat := fieldLe m.payload o n

/-- Bytes of a response (R406). -/
def MbxResp.bytes (r : MbxResp) : List Byte :=
  toLe 1 1 ++ toLe 1 r.minor ++ toLe 2 r.op ++ toLe 4 r.payload.length ++ toLe 4 r.seq.toNat ++ toLe 4 r.status ++ r.payload

/-- The response given: the host reads it from the window, the management path receives it (R407, R408). -/
def State.respond (s : State) (ch : Chan) (r : MbxResp) : State :=
  match ch with
  | .host => { s with mbx := { s.mbx with resp := some r, state := 2, lastHost := some r } }
  | .mgmt => ({ s with mbx := { s.mbx with lastMgmt := some r } }).answer r.bytes

/-- A response to a request. -/
def State.reply' (s : State) (ch : Chan) (m : MbxReq) (status : Nat) (bs : List Byte) : State :=
  s.respond ch ⟨min m.minor 2, m.op, m.seq, status, bs⟩

/-- Whether the job state permits an opcode (R409, R456); what needs the running module is not permitted without it. DESIGN CHOICE, unsafe (log 55). -/
def State.mbPermits (s : State) (op : Nat) (cfg : Option JobConfig) : Bool :=
  let j := s.job.state
  match op with
  | 0x0010 => j = 0 && s.running && s.start.ready &&
      (s.fab.valid || match cfg with | some c => decide (c.members.length = 1) | none => true)
  | 0x0011 => j = 2
  | 0x0012 => j = 3 && s.running
  | 0x0013 | 0x0018 => j ≠ 0
  | 0x0015 | 0x0017 => (j = 2 || j = 3) && s.running
  | 0x0016 => j = 3 && s.running
  | 0x0019 => j = 2 && s.running
  | 0x0020 => j = 0 && s.running && s.fab.root
  | 0x0021 => j = 0 && s.running
  | _ => true

/-- Whether admission answers BUSY (R408). -/
def State.mbBusyNow (s : State) (op : Nat) : Bool :=
  let live := s.mbx.ops
  if op = 0x0013 then live.any fun o => o.op = 0x0013
  else if 16 ≤ live.length then true
  else if exclusiveOp op then !live.isEmpty
  else live.any fun o => o.op = op || exclusiveOp o.op

/-- The fields of the PLDM FRU record (R38, R506): part number, serial, revision, on the LX the partner die codes. DESIGN CHOICE, unsafe (log 55). -/
def State.fruRecord (s : State) : List Byte :=
  let text := fun (t : String) (n : Nat) => (t.toList.map fun c => BitVec.ofNat 8 c.toNat) ++ List.replicate (n - t.length) 0#8
  let z := s.fuses
  let dec := fun (n : Nat) => (List.range 9).reverse.map fun i => BitVec.ofNat 8 (48 + n / 10 ^ i % 10)
  text (if z.lx then "AF-OX4-2048-LX" else "AF-OX4-2048-LC") 16 ++ (text "AF4" 3 ++ dec z.serial) ++
    [BitVec.ofNat 8 (65 + z.revLetter % 26), BitVec.ofNat 8 (48 + z.revDigit % 10), 0, 0] ++
    if z.lx then (z.accCode.toList.map (toLe 4)).flatten else []

/-- GET_INFO (R38, R409): part number, serial, revision of the FRU record, running image, VERSION, BOOT. DESIGN CHOICE, unsafe (log 55). -/
def State.infoBytes (s : State) : List Byte :=
  s.fruRecord.take 32 ++ toLe 4 s.fw.image ++ toLe 4 s.fw.version.toNat ++ toLe 4 s.fw.boot.toNat

/-- JOB_STATUS (R409). DESIGN CHOICE, unsafe (log 55). -/
def State.jobBytes (s : State) : List Byte :=
  toLe 8 s.job.state ++ toLe 8 s.job.step.toNat ++ toLe 8 s.job.scale.exp ++ toLe 8 s.job.scale.probe ++ toLe 8 s.job.attempts

/-- OP_STATUS of a ticket; none when no operation is known by it (R408, R409). DESIGN CHOICE, unsafe (log 55). -/
def State.opBytes (s : State) (ch seq : Nat) : Option (List Byte) :=
  let c := if ch = 0 then Chan.host else Chan.mgmt
  let is := fun (o : AccOp) => o.ch = c && o.seq.toNat = seq
  if 2 ≤ ch then none
  else
    match s.mbx.ops.find? is, s.mbx.finished.reverse.find? is with
    | some _, _ => some [0, 0]
    | none, some o => some [1, BitVec.ofNat 8 (o.outcome.getD 0)]
    | none, none => none

/-- ATTACH (R391): the status and the state after it. -/
def State.attachSession (s : State) (id : W64) : Nat × State :=
  if id = 0 then (if s.procHeld procSP then (mbFailed, s) else (mbOk, (s.message procMP procSP).newSession.message procSP procMP))
  else if id ≠ s.hif.session then (mbSession, s)
  else if s.hif.attached then (mbOk, s)
  else (mbOk, s.resumeSession)

/-- Trace points set or cleared (R413); none out of range. -/
def State.setTrace (s : State) (first count : Nat) (on : Bool) : Option State :=
  if 4096 < first + count then none
  else
    let word := fun (w : Fin 64) =>
      (List.range 64).foldl (fun (x : W64) i =>
        let p := 64 * w.val + i
        if first ≤ p && p < first + count then (if on then x ||| BitVec.ofNat 64 (2 ^ i) else x &&& ~~~(BitVec.ofNat 64 (2 ^ i))) else x) s.log.trace[w]
    some { s with log := { s.log with trace := Vector.ofFn word } }

/-- PROMO_RESET (R156, R409): from the next step; none for a layer that does not exist. -/
def State.promoResetOf (s : State) (l : Nat) : Option State :=
  if 4096 ≤ l && l ≠ 0xffff then none
  else
    let ls := if l = 0xffff then List.range 4096 else [l]
    let s : State := { s with job := { s.job with promoReset := s.job.promoReset ++ ls } }
    some (if s.job.phase = 0 then s.resetPromo else s)

/-- LOG_MARK (R409, R415): the record, and its SRCSEQ and CSTAMP. -/
def State.logMarkOf (s : State) (stamp : W64) (text : Nat) : List Byte × State :=
  let s := s.receiveStamp procMP stamp
  let s := s.logRec procMP 0x0009 [stamp.toNat, text]
  let p := s.fw.procs[procMP]
  (toLe 8 (s.fw.boot.toNat * 2 ^ 44 + p.count.toNat) ++ toLe 8 p.stamp.toNat, s)

/-- JOB_ABORT taken at once: a load or a resume that waits in the start barrier ends with it (R408, R417). DESIGN CHOICE, safe (log 91). -/
def State.abortNow (s : State) : State :=
  if s.job.inBarrier || s.job.state = 1 then
    let s := ((s.endOpOf 0x0010 mbFailed).endOpOf 0x0012 mbFailed).endJob
    let s := s.endOpOf 0x0013 mbOk
    boundaryOps.foldl (fun s k => s.endOpOf k mbState) s
  else s.serveBoundary

/-- JOB_LOAD accepted (R417): LOADING, its checks and writes, the start barrier; NONE with ARG on a failed check. DESIGN CHOICE, unsafe (log 56). -/
def State.startLoad (s : State) (o : AccOp) : State :=
  match o.cfg with
  | none => s.finishOp o mbArg
  | some c =>
    match (s.setJob 1).loadJob c with
    | (t, false) => (t.setJob 0).finishOp o mbArg
    | (t, true) => t.startOp o

/-- JOB_RESUME accepted (R417): the start barrier again; update units and dispatch run again. -/
def State.startResume (s : State) (o : AccOp) : State :=
  let s := (s.startOp o).freeUnits
  { s with job := { s.job with inBarrier := true, parkDue := false, parkLost := false, stopDispatch := false } }

/-- LINK_TEST accepted (R366). DESIGN CHOICE, unsafe (log 55). -/
def State.startLinkTest (s : State) (o : AccOp) : State :=
  match s.startLoop (fieldLe o.payload 0 4) (fieldLe o.payload 4 4) with
  | some t => t.startOp o
  | none => s.finishOp o mbFailed

/-- An accepted operation begins, or waits for its boundary (R408). -/
def State.beginOp (s : State) (o : AccOp) : State :=
  let s := if qpServed o.op then s.message procMP (qpProc (s.leader.getD 0)) else s
  match o.op with
  | 0x0010 => s.startLoad o
  | 0x0012 => s.startResume o
  | 0x0013 => s.abortNow
  | 0x0020 => (s.startOp o).runPromenade
  | 0x0021 => s.startLinkTest o
  | _ => s.serveBoundary

/-- Whether a LINK_TEST's fields are in range (R366). -/
def State.linkArgsOk (s : State) (m : MbxReq) : Bool :=
  dlListed s.fuses.lx (m.fld 0 4) && decide (1 ≤ m.fld 4 4) && decide (m.fld 4 4 ≤ 10000)

/-- An opcode that answers at once (R409): status, payload, state. -/
def State.quickOp (s : State) (m : MbxReq) : Nat × List Byte × State :=
  match m.op with
  | 0x0001 => (mbOk, s.infoBytes, s)
  | 0x0002 =>
    let (st, t) := s.attachSession (BitVec.ofNat 64 (m.fld 0 8))
    (st, if st = mbOk then toLe 8 t.hif.session.toNat else [], t)
  | 0x0003 =>
    match s.opBytes (m.fld 0 4) (m.fld 4 4) with
    | some bs => (mbOk, bs, s)
    | none => (mbArg, [], s)
  | 0x0014 => (mbOk, s.jobBytes, s)
  | 0x0018 => match s.promoResetOf (m.fld 0 2) with | some t => (mbOk, [], t) | none => (mbArg, [], s)
  | 0x0030 => match s.setTrace (m.fld 0 2) (m.fld 2 2) (bit (m.fld 4 4) 0) with | some t => (mbOk, [], t) | none => (mbArg, [], s)
  | 0x0031 => (mbOk, toLe 8 s.log.base ++ toLe 8 s.log.head ++ toLe 8 s.log.suppressed.toNat, s)
  | _ =>
    let (bs, t) := s.logMarkOf (BitVec.ofNat 64 (m.fld 0 8)) (m.fld 8 24)
    (mbOk, bs, t)

/-- A request served by the MP: the checks of R406 to R410 and R507, then the opcode. DESIGN CHOICE, unsafe (log 55). -/
def State.mbServe (s : State) (ch : Chan) (m : MbxReq) (cfg : Option JobConfig) : State :=
  if m.major ≠ 1 then s.reply' ch m mbVersion []
  else
    match mbLength m.op with
    | none => s.reply' ch m mbOpcode []
    | some n =>
      if m.len ≠ n then s.reply' ch m mbLen []
      else if ch = .mgmt && (m.op = 0x0002 || m.op = 0x0015 || m.op = 0x0016) then s.reply' ch m mbDenied []
      else if ch = .host && !s.hif.attached && !noSession m.op then s.reply' ch m mbSession []
      else if !s.mbPermits m.op cfg then s.reply' ch m mbState []
      else if !acceptingOp m.op then
        let (st, bs, t) := s.quickOp m
        t.reply' ch m st bs
      else if s.mbBusyNow m.op then s.reply' ch m mbBusy []
      else if m.op = 0x0017 && s.procHeld procSP then s.reply' ch m mbFailed []
      else if m.op = 0x0021 && !s.linkArgsOk m then s.reply' ch m mbArg []
      else
        let o : AccOp := ⟨ch, m.seq, m.op, m.payload, cfg, false, none⟩
        let s : State := { s with mbx := { s.mbx with ops := s.mbx.ops ++ [o] } }
        (s.reply' ch m mbAccepted []).beginOp o

/-- A request while the MP is held (R400): the SP answers three opcodes on the host mailbox and FAILED to the others; the management path
goes unanswered. -/
def State.serveHeld (s : State) (ch : Chan) (m : MbxReq) : State :=
  if ch = .mgmt || !s.procUp procSP then s
  else if m.op = 0x0001 || m.op = 0x0014 || m.op = 0x0031 then
    let (st, bs, t) := s.quickOp m
    t.reply' ch m st bs
  else s.reply' ch m mbFailed []

/-- Requests that the SP works on: a new session, a re-shard (R391, R400). -/
def needsSp (m : MbxReq) : Bool := (m.op = 0x0002 && m.fld 0 8 = 0) || m.op = 0x0017

/-- A request: the held response for a SEQ served last (R407), the SP while the MP is held, held while it is reset or halted (R401). -/
def State.serve (s : State) (ch : Chan) (m : MbxReq) (cfg : Option JobConfig) : State :=
  let last := match ch with | .host => s.mbx.lastHost | .mgmt => s.mbx.lastMgmt
  match (match last with | some r => if r.seq = m.seq then some r else none | none => none) with
  | some r => s.respond ch r
  | none =>
    if s.procHeld procMP then s.serveHeld ch m
    else if !s.procUp procMP || (needsSp m && !s.procUp procSP && !s.procHeld procSP) then
      let st := match ch with | .host => 1 | .mgmt => s.mbx.state
      { s with mbx := { s.mbx with held := s.mbx.held ++ [(ch, m, cfg)], state := st } }
    else s.mbServe ch m cfg

/-- Whether a channel carries requests: BAR0 reached and no request in service, or the management path after C4 with an EID (R407, R408, R450, R451). -/
def State.chanUp (s : State) (ch : Chan) : Bool :=
  match ch with
  | .host => s.hostLink && s.mbx.state ≠ 1
  | .mgmt => s.pwr.pstate ≤ 4 && s.start.coldDone && !s.start.coldHeld && s.fw.selected && s.mgmt.eid.isSome

/-- The row of an opcode: a request of that opcode on a channel. -/
def State.mbRow (s : State) (op : Nat) (ch : Chan) (m : MbxReq) (cfg : Option JobConfig) : Res :=
  onlyIf (m.op = op && s.chanUp ch) s fun s => .next (s.serve ch m cfg)

/-- The requests held while the MP was down, in arrival order (R401). -/
def State.serveAll (s : State) (rs : List (Chan × MbxReq × Option JobConfig)) : State := rs.foldl (fun s r => s.serve r.1 r.2.1 r.2.2) s

/-- The request in MBX_REQ (R406). -/
def MbxSt.request (b : MbxSt) : MbxReq :=
  let f := fun (o n : Nat) => Cells.le b.req o n
  ⟨f 0 1, f 1 1, f 2 2, f 4 4, BitVec.ofNat 32 (f 8 4), Cells.dense b.req 16 (min (f 4 4) 4080)⟩

/-- The doorbell (R407). -/
def State.mbxDoorbell (s : State) (x : W64) (cfg : Option JobConfig) : State :=
  if !x.getLsbD 0 then s
  else
    let m := s.mbx.request
    if s.mbx.state = 1 then s.event procMP 3 7 [0, m.seq.toNat] else s.serve .host m cfg

/-- The tables of a list in memory: TABLE_IDs of 16 bits up to 0xffff, `n` at most. DESIGN CHOICE, unsafe (log 57). -/
def MemSt.tableList (m : MemSt) (a : Nat) : Nat → List Nat
  | 0 => []
  | n + 1 => let t := m.le a 2; if t = 0xffff then [] else t :: m.tableList (a + 2) n

/-- Rows of a table on this module in shard and q order: shard and address. -/
def State.ownRows (s : State) (d : TDesc) : List Nat :=
  if d.dim = 0 then []
  else ((s.mem.shardsOn d s.fab.faddr.toNat).map fun p => (List.range (d.shardRows p.1)).map fun q => d.rowAddr p.2 q).flatten

/-- The export of a table: descriptor image, HPARAM block, working rows (R271). DESIGN CHOICE, unsafe (log 57). -/
def State.exportOf (s : State) (t : Nat) : List Byte :=
  let d := s.tdesc t
  d.raw ++ s.mem.read d.hparam 64 ++ ((s.ownRows d).map fun a => s.mem.read a d.wpitch).flatten

/-- An export (R271): its outcome and the state. -/
def State.runExport (s : State) (o : AccOp) : Nat × State :=
  let ts := s.mem.tableList (fieldLe o.payload 0 8) 65536
  let bs := (ts.map fun t => s.exportOf t).flatten
  let a := fieldLe o.payload 8 8
  let bad := ts.any fun t => (s.ownRows (s.tdesc t)).any fun r => s.readStatus .firmware r (s.tdesc t).wpitch ≠ stOk
  if ts.any fun t => !(s.jobTables.any fun d => d.id = t) then (mbArg, s)
  else if fieldLe o.payload 16 8 < bs.length then (mbNospace, s)
  else if bad || !(s.hif.attached && s.hif.linkUp && s.hif.busMaster) then (mbFailed, s)
  else
    (mbOk, { s with mem := { s.mem with host := Cells.putDense s.mem.host a bs },
                    hif := { s.hif with hostWrites := s.hif.hostWrites + BitVec.ofNat 64 (ceilDiv bs.length 16) } })

/-- A working value as a master code (R135, R272). DESIGN CHOICE, unsafe (log 57). -/
def importMaster (f : Fmt) (x sc : Nat) : Nat :=
  let v := f.value x sc
  if xf40.beyond .rne v then 0x7f7fffffff + (if v.neg then 2 ^ 39 else 0) else (xf40.narrow .rne v).1

/-- The master record of a working row. DESIGN CHOICE, unsafe (log 57). -/
def importRow (d : TDesc) (bs : List Byte) : List Byte :=
  match Fmt.ofCode d.wfmt with
  | none => List.replicate (5 * d.dim) 0
  | some f =>
    let es := unpackElems f.bits d.dim bs
    let sc := bs.drop (f.rowBytes d.dim)
    encodeMasters (es.zipIdx.map fun p => importMaster f p.1 (((sc[p.2 / 32]?).getD 0#8).toNat))

/-- A table imported from `a`: rows, masters, T0, zeroed group records, every group dirty (R272). DESIGN CHOICE, unsafe (log 57). -/
def State.importTable (s : State) (d : TDesc) (a : Nat) : State :=
  let rows := ((s.mem.shardsOn d s.fab.faddr.toNat).map fun p => (List.range (d.shardRows p.1)).map fun q => (p.2, q)).flatten
  let s := rows.zipIdx.foldl (fun (s : State) (x : (Shard × Nat) × Nat) =>
    let bs := s.mem.read (a + 128 + x.2 * d.wpitch) d.wpitch
    let s := s.putThrough (d.rowAddr x.1.1 x.1.2) bs
    if d.opt = 0 then s
    else let (b, j) := d.baseOf x.1.1 x.1.2; s.putThrough (d.masterAddr b j) (importRow d bs)) s
  let s := if d.opt = 0 then s else s.putThrough (d.hparam + 0x18) (toLe 4 s.job.step.toNat)
  (s.allGroups.filter fun g => g.table = d.id).foldl (fun (s : State) (g : GroupKey) =>
    let (base, _) := d.partOf g.shard (s.mem.shard d g.shard) g.cel g.cave
    (if d.opt = 0 then s else s.putThrough (d.groupAddr base g.k) (List.replicate d.gpitch 0)).markDirty g) s

/-- The tables of an image one after the other; it ends at what is no table of the job. `seen` are those done. -/
def State.importFrom (s : State) (a : Nat) (seen : List Nat) : Nat → State × List Nat
  | 0 => (s, seen)
  | n + 1 =>
    let i := TDesc.mk (s.mem.read a 64)
    let d := s.tdesc i.id
    if seen.contains i.id || !(s.jobTables.any fun x => x.id = i.id) || d.dim = 0 || i.dim ≠ d.dim || i.wfmt ≠ d.wfmt || i.rows ≠ d.rows then (s, seen)
    else (s.importTable d a).importFrom (a + 128 + (s.ownRows d).length * d.wpitch) (seen ++ [i.id]) n

/-- An import (R272, R479): the journal is cleared, the probe phase follows, the next checkpoint is full. -/
def State.runImport (s : State) (o : AccOp) : Nat × State :=
  let (t, seen) := s.importFrom (fieldLe o.payload 0 8) [] 65536
  if seen.isEmpty then (mbArg, s)
  else
    let t := t.clearJournals
    let t : State := { t with job := { t.job with scale := t.job.scale.forget } }
    (mbOk, { t with ras := { t.ras with full := true } })

end Sys2Proof.Machine
end

