-- ==== Sys2Proof/Machine/Management.lean ====
section
/-! DEFINITION. The management path: addresses, events, sensors, effecters, firmware update (R401, R405, R450, R451, R508 to R512). -/

namespace Sys2Proof.Machine

/-- PLDM completion codes: success, invalid data, unknown sensor, update codes. PRESUMED, unsafe (log 60). -/
def pldmOk : Nat := 0x00
def pldmInvalid : Nat := 0x02
def pldmNotUpdating : Nat := 0x80
def pldmUpdating : Nat := 0x81
def pldmState : Nat := 0x84

/-- An answer: completion code, then data. -/
def State.pldm (s : State) (code : Nat) (bs : List Byte) : State := s.answer (BitVec.ofNat 8 code :: bs)

/-- Whether the block of a sensor is powered (R426, R508). -/
def State.sensorOn (s : State) (n : Nat) : Bool :=
  if n ≤ 4 then s.vcoreOn
  else if n ≤ 8 then decide (s.pwr.pstate ≤ 3)
  else if n = 9 then true
  else if n ≤ 0x19 then decide (s.pwr.pstate ≤ 3)
  else if n ≤ 0x1b then s.fuses.lx && s.running && s.dl.accPower[Fin.ofNat 2 (n - 0x1a)]
  else true

/-- A reading that the module's state or registers hold: state sensors (R509), input, rails, holdup (R443); none for the board's
sensors. DEDUCED, unsafe (log 61). -/
def State.heldReading (s : State) (n : Nat) : Option Nat :=
  if n = 0x0100 then some s.pstateNow
  else if n = 0x0101 then some (bitAt s.start.ready 0)
  else if n = 0x0102 then some s.fuses.lifecycle
  else if n = 0x0103 then some s.sec.level
  else if n = 0x0104 then some s.job.state
  else if n = 0x0105 then some (bitAt s.inp.thermTrip 0)
  else if n = 0x0106 then some s.start.stage
  else if 0x30 ≤ n ∧ n ≤ 0x32 then some (bits s.pwr.inp.toNat (16 * (n - 0x30) + 15) (16 * (n - 0x30)))
  else if 0x40 ≤ n ∧ n ≤ 0x57 then some (bits (s.pwr.rails[Fin.ofNat 8 n]).toNat (16 * ((n - 0x40) / 8) + 15) (16 * ((n - 0x40) / 8)))
  else if n = 0x58 then some (bits s.pwr.holdup.toNat 15 0)
  else none

/-- The sensors of R508 and R509. -/
def sensorListed (lx : Bool) (n : Nat) : Bool :=
  decide (1 ≤ n ∧ n ≤ 0x19) || (lx && decide (0x1a ≤ n ∧ n ≤ 0x1b)) || decide (0x20 ≤ n ∧ n ≤ 0x22) || decide (0x30 ≤ n ∧ n ≤ 0x32) ||
  decide (0x40 ≤ n ∧ n ≤ 0x58) || decide (0x0100 ≤ n ∧ n ≤ 0x0106)

/-- The threshold state of a sensor: lower critical while the inlet is below 18 °C, upper critical while a temperature requires P1, else as the free
reading lies (R29, R508). PRESUMED, unsafe (log 60). -/
def State.sensorState (s : State) (n : Nat) : Byte :=
  if n = 0x20 && s.pwr.coolLow then 6
  else if s.pwr.hot.contains n then 9
  else BitVec.ofNat 8 (Config.order s.free 1 11)

/-- GetSensorReading (R508): operational state 0 enabled, 1 unavailable, then the threshold state and the reading; what a board sensor reads is free. DEDUCED, unsafe (log 61). -/
def State.readSensor (s : State) (n : Nat) : State :=
  if !sensorListed s.fuses.lx n then s.pldm pldmNotUpdating []
  else if !s.sensorOn n then s.pldm pldmOk [1]
  else
    match s.heldReading n with
    | some v => (s.drawn 2).pldm pldmOk (0 :: s.sensorState n :: toLe 4 v)
    | none =>
      let v := Config.order s.free 0 65536 % 65536
      ((s.drawn 2).setSensor n v).pldm pldmOk (0 :: s.sensorState n :: toLe 4 v)

/-- PollForPlatformEventMessage (R510): the oldest event, which leaves the queue. -/
def State.pollEvents (s : State) : State :=
  match s.mgmt.events with
  | [] => s.pldm pldmOk [0]
  | (n, v) :: rest => ({ s with mgmt := { s.mgmt with events := rest } }).pldm pldmOk (1 :: toLe 2 n ++ toLe 4 v)

/-- A field of PWR_CFG replaced; it takes effect at the next governor tick (R443). -/
def State.setPwrField (s : State) (hi lo v : Nat) : State :=
  let x := s.pwr.cfg.toNat
  { s with pwr := { s.pwr with cfg := BitVec.ofNat 64 (x - bits x hi lo * 2 ^ lo + v * 2 ^ lo) } }

/-- The numeric effecters (R443, R509). -/
def State.setEffecter (s : State) (id v : Nat) : State :=
  let put := fun (lo hi b t : Nat) => if lo ≤ v ∧ v ≤ hi then (s.setPwrField t b v).pldm pldmOk [] else s.pldm pldmInvalid []
  match id with
  | 0x0200 => put 1500 2395 16 27
  | 0x0201 => put 27 63 0 5
  | 0x0202 => put 0 255 8 15
  | _ => s.pldm pldmInvalid []

/-- The state effecter writes PWR_REQ (R509). DEDUCED, unsafe (log 61). -/
def State.setStandby (s : State) (id v : Nat) : State :=
  if id ≠ 0x0210 || 4 ≤ v then s.pldm pldmInvalid [] else (s.powerReq v).pldm pldmOk []

/-- Set Endpoint ID (R451): the null and the broadcast EID are refused. PRESUMED, unsafe (log 60). -/
def State.assignEid (s : State) (eid : Nat) : State :=
  if eid = 0 ∨ 255 ≤ eid then s.pldm pldmInvalid [] else ({ s with mgmt := { s.mgmt with eid := some eid } }).pldm pldmOk [BitVec.ofNat 8 eid]

/-- A stage of an update told by its event (R513). Stages: 0 begun, 1 verified, 2 activated, 3 cancelled. -/
def State.updateEvent (s : State) (stage result version : Nat) : State := s.event procSP 11 6 [stage, result, version]

/-- RequestUpdate (R405, R511, R512): the image not selected is erased. DEDUCED, unsafe (log 62). -/
def State.beginUpdate (s : State) (len : Nat) : State :=
  if s.sec.update.isSome then s.pldm pldmUpdating []
  else if len = 0 ∨ 0x3000000 < len then s.pldm pldmInvalid []
  else
    let r := 1 - s.fw.image % 2
    let f := s.fw.flashErase (imageBase r) 0x3000000
    let s : State := { s with fw := { f with otherValid := false, split := false }, sec := { s.sec with update := some ⟨r, 0, len, none⟩ } }
    (s.updateEvent 0 0 0).pldm pldmOk []

/-- VerifyResult of the written image (R511); where two causes of its table hold, either is reported. DEDUCED, unsafe (log 62). -/
def State.verifyImage (s : State) (r : Nat) : Nat :=
  let v := s.fw.imgVersion r
  let old := decide (v ≤ s.fw.version.toNat)
  let low := decide (v / 2 ^ 24 < s.fuses.floor)
  if !s.fw.imgSigned r s.fuses.fwPk then 0x92
  else if old && low then (if Config.order s.free 0 2 % 2 = 0 then 0x90 else 0x91)
  else if old then 0x90 else if low then 0x91 else 0x00

/-- A block of image data programmed; the SP verifies the image after the last (R511). DEDUCED, unsafe (log 62). -/
def State.programBlock (s : State) (bs : List Byte) : State :=
  match s.sec.update with
  | none => s.pldm pldmNotUpdating []
  | some u =>
    if u.result.isSome || bs.length ≠ min 1024 (u.total - u.got) then s.pldm pldmState []
    else
      let s : State := { s with fw := s.fw.flashWrite (imageBase u.region + u.got) bs }
      let got := u.got + bs.length
      if got < u.total then ({ s with sec := { s.sec with update := some { u with got := got } } }).pldm pldmOk []
      else
        let k := s.verifyImage u.region
        let good := s.fw.imgValid u.region s.fuses
        let same := good && decide (s.fw.imgVersion u.region = s.fw.version.toNat)
        let s : State := { s with fw := { s.fw with otherValid := good, split := same },
                                  sec := { s.sec with update := some { u with got := got, result := some k } } }
        ((s.drawn 1).updateEvent 1 k (s.fw.imgVersion u.region)).pldm pldmOk [BitVec.ofNat 8 k]

/-- ActivateFirmware (R511): activation needs a cold start (method 1), and the update is over. DEDUCED, unsafe (log 62). -/
def State.activateUpdate (s : State) : State :=
  match s.sec.update with
  | none => s.pldm pldmNotUpdating []
  | some u =>
    if u.result ≠ some 0 then s.pldm pldmState []
    else (({ s with sec := { s.sec with update := none } }).updateEvent 2 0 (s.fw.imgVersion u.region)).pldm pldmOk [1]

/-- CancelUpdate (R512): the written image is left invalid. -/
def State.cancelFirmware (s : State) : State :=
  match s.sec.update with
  | none => s.pldm pldmNotUpdating []
  | some u =>
    let f := s.fw.flashErase (imageBase u.region) 4096
    let s : State := { s with fw := { f with otherValid := false, split := false }, sec := { s.sec with update := none } }
    (s.updateEvent 3 0 0).pldm pldmOk []

/-- A PLDM or MCTP control message served by the MP. -/
def State.serveMgmt (s : State) : MgmtMsg → State
  | .setEid e => s.assignEid e
  | .poll => s.pollEvents
  | .sensor n => s.readSensor n
  | .numeric id v => s.setEffecter id v
  | .state id v => s.setStandby id v
  | .requestUpdate n => s.beginUpdate n
  | .data bs => s.programBlock bs
  | .activate => s.activateUpdate
  | .cancel => s.cancelFirmware
  | .sec _ => s

/-- Whether a message is carried: after C4 (R450), addressed to the EID once set (R451); a module without an image only reports
(R404). DEDUCED, unsafe (log 61). -/
def State.mgmtTakes (s : State) (m : MgmtMsg) : Bool :=
  s.busUp &&
  match m with
  | .setEid _ => s.fw.selected
  | .poll | .sensor _ => s.mgmt.eid.isSome || s.fw.noImage
  | _ => s.fw.selected && s.mgmt.eid.isSome

/-- Whether the SP must work on a message of the MP: the image's verification after the last block (R511). -/
def State.endsUpdate (s : State) (m : MgmtMsg) : Bool :=
  match m, s.sec.update with
  | .data bs, some u => u.result.isNone && decide (u.total ≤ u.got + bs.length)
  | _, _ => false

/-- A message for the MP: unanswered while it is held (R400), kept while it or the SP it needs is reset (R401). -/
def State.mgmtMsg (s : State) (m : MgmtMsg) : State :=
  if !s.mgmtTakes m || s.procHeld procMP || (s.endsUpdate m && s.procHeld procSP) then s
  else if !s.procUp procMP || (s.endsUpdate m && !s.procUp procSP) then { s with mgmt := { s.mgmt with held := s.mgmt.held ++ [m] } }
  else s.serveMgmt m

/-- Bytes of the I3C provisioned ID as the bus carries them, then BCR and DCR (R450). DESIGN CHOICE, safe (log 94). -/
def State.i3cId (s : State) : List Byte := (toLe 6 (Config.mipiId.toNat * 2 ^ 33 + s.fuses.serial % 2 ^ 32)).reverse ++ [0x08, 0x00]

/-- I3C_ENTDAA (R450): The I3C target takes a dynamic address. PRESUMED, unsafe (log 60). -/
def execI3cEntdaa (addr : Nat) (s : State) : Res :=
  onlyIf (s.busUp && s.mgmt.i3c.isNone && decide (addr < 128)) s fun s => .next (({ s with mgmt := { s.mgmt with i3c := some addr } }).answer s.i3cId)

/-- I3C_RSTDAA (R450): The I3C dynamic address is reset. -/
def execI3cRstdaa (s : State) : Res :=
  onlyIf s.busUp s fun s => .next { s with mgmt := { s.mgmt with i3c := none } }

/-- SMBUS_ARP (R451): The SMBus target takes an address by ARP. PRESUMED, unsafe (log 60). -/
def execSmbusArp (addr : Nat) (s : State) : Res :=
  onlyIf (s.busUp && decide (addr < 128)) s fun s => .next { s with mgmt := { s.mgmt with smb := addr } }

/-- SET_ENDPOINT_ID (R451): The bus owner sets the MCTP endpoint ID. -/
def execSetEndpointId (eid : Nat) (s : State) : Res :=
  .next (s.mgmtMsg (.setEid eid))

/-- POLL_FOR_PLATFORM_EVENT_MESSAGE (R510): The controller fetches a queued sensor or state event. -/
def execPollEvent (s : State) : Res :=
  .next (s.mgmtMsg .poll)

/-- GET_SENSOR_READING (R508): The controller reads a PLDM sensor. -/
def execGetSensorReading (sensor : Nat) (s : State) : Res :=
  .next (s.mgmtMsg (.sensor sensor))

/-- SET_NUMERIC_EFFECTER_VALUE (R509): A numeric effecter writes PWR_CFG or is refused out of range. -/
def execSetNumericEffecter (id : Nat) (v : Nat) (s : State) : Res :=
  .next (s.mgmtMsg (.numeric id v))

/-- SET_STATE_EFFECTER_STATES (R509): The standby effecter writes PWR_REQ. -/
def execSetStateEffecter (id : Nat) (v : Nat) (s : State) : Res :=
  .next (s.mgmtMsg (.state id v))

/-- REQUEST_UPDATE (R512): A firmware update starts, or is refused if one is running. -/
def execRequestUpdate (len : Nat) (s : State) : Res :=
  .next (s.mgmtMsg (.requestUpdate len))

/-- REQUEST_FIRMWARE_DATA (R511): A block of image data arrives and is programmed; after the last the SP verifies. -/
def execRequestFirmwareData (data : List Byte) (s : State) : Res :=
  .next (s.mgmtMsg (.data data))

/-- ACTIVATE_FIRMWARE (R511): Activation is reported as needing a cold start. -/
def execActivateFirmware (s : State) : Res :=
  .next (s.mgmtMsg .activate)

/-- CANCEL_UPDATE (R512): An update is cancelled, leaving the written image invalid. -/
def execCancelUpdate (s : State) : Res :=
  .next (s.mgmtMsg .cancel)

end Sys2Proof.Machine
end

