-- ==== Sys2Proof/Machine/Security.lean ====
section
/-! DEFINITION. Security messages: identity, quotes, lifecycle, debug level, version floor, log entries (R491 to R505, R513). -/

namespace Sys2Proof.Machine

/-- GET_ID (R504): HUB_ID, LC, level, FLOOR, ID_PK, next index, indices left. -/
def State.idBytes (s : State) : List Byte :=
  let z := s.fuses
  toLe 8 z.hubId.toNat ++ toLe 1 z.lc.toNat ++ toLe 1 s.sec.level ++ toLe 1 z.floor ++
    toLe 64 (if z.lifecycle = 0 then 0 else z.idPk.toNat) ++ toLe 4 s.sec.index ++ toLe 4 (2 ^ 20 - s.sec.index)

/-- ACC_STATUS (R367). DEDUCED, unsafe (log 68). -/
def DlSt.accStatus (d : DlSt) : Nat := d.acc[0] % 8 + 16 * (d.acc[1] % 8)

/-- The body of a quote (R501). -/
def State.quoteBody (s : State) (index : Nat) (nonce : BitVec 256) : List Byte :=
  let digests := (s.fw.digests.map fun d => toLe 32 d.toNat).flatten
  toLe 2 1 ++ toLe 1 s.fuses.lifecycle ++ toLe 1 s.sec.level ++ toLe 1 s.pstateNow ++ toLe 1 s.job.state ++ toLe 1 s.dl.accStatus ++ [0] ++
    toLe 8 s.fuses.hubId.toNat ++ toLe 4 index ++ toLe 4 s.fw.boot.toNat ++ toLe 4 s.fw.version.toNat ++ toLe 1 s.fuses.floor ++
    toLe 1 s.fw.image ++ [0, 0] ++ toLe 4 (s.fab.faddr.toNat + bitAt s.fab.valid 31) ++ toLe 4 0 ++
    toLe 8 (if s.job.state = 0 then 0 else s.job.step.toNat) ++ toLe 32 nonce.toNat ++ toLe 32 (Config.shake256 digests).toNat ++ List.replicate 16 0

/-- A new block of indices reserved (R503); none when it would pass 2^20 or no erased slot is left. DESIGN CHOICE, safe (log 65). -/
def State.reserveIndex (s : State) : Option State :=
  let m := s.sec.mark + 256
  let k := (s.fw.reservation 65536 0 0).2
  if 2 ^ 20 < m || k = 65536 then none
  else
    let b := toLe 4 m ++ toLe 8 0
    some (({ s with fw := s.fw.flashWrite (0x6100000 + 16 * k) (b ++ toLe 4 (crc32c b)), sec := { s.sec with index := s.sec.mark, mark := m } }).event
      procSP 11 5 [m])

/-- QUOTE signed with an index (R501, R502). DESIGN CHOICE, safe (log 65). -/
def State.signQuote (s : State) (nonce : BitVec 256) : State :=
  let i := s.sec.index
  let body := s.quoteBody i nonce
  ({ s with sec := { s.sec with index := i + 1, quotes := s.sec.quotes + 1, quoteWait := true } }).secAnswer mbOk
    (body ++ Config.xmssSign s.fuses.idSk i (Config.shake256 body))

/-- QUOTE (R500 to R503): refused without a key; whether the interval since the previous quote has passed is free. DESIGN CHOICE, safe (log 65). -/
def State.takeQuote (s : State) (nonce : BitVec 256) : State :=
  if s.fuses.lifecycle = 0 then s.secDenied 2
  else if !s.fuses.hasKey then s.secDenied 3
  else
    let soon := s.sec.quoteWait && (Config.fresh s.free).getLsbD 0
    let s := s.drawn 1
    if soon then s.secAnswer mbBusy []
    else if s.sec.index < s.sec.mark then s.signQuote nonce
    else
      match s.reserveIndex with
      | some t => t.signQuote nonce
      | none => (s.event procSP 11 7 [s.sec.mark]).secDenied 4

/-- A fresh number of 64 × n bits. -/
def freshBits (free n : Nat) : Nat := (List.range n).foldl (fun a i => a * 2 ^ 64 + (Config.fresh (free + i)).toNat) 0

/-- CHALLENGE (R505): a new nonce, which ends the one before. -/
def State.challengeNonce (s : State) : State :=
  let n := BitVec.ofNat 256 (freshBits s.free 4)
  (({ s with sec := { s.sec with nonce := some n } }).drawn 4).secAnswer mbOk (toLe 32 n.toNat)

/-- Whether a lifecycle transition is one of R494, and whether it needs a token. -/
def transition (now target : Nat) : Option Bool :=
  match now, target with
  | 0, 1 => some false
  | 1, 2 => some true
  | 0, 3 => some false
  | 1, 3 | 2, 3 => some true
  | _, _ => none

/-- LIFECYCLE (R494, R512): the transition begins. DEDUCED, unsafe (log 63). -/
def State.lifecycleReq (s : State) (target : Nat) (token : List Byte) : State :=
  if 3 < target then s.secAnswer mbArg []
  else if s.sec.update.isSome || s.sec.pending.isSome then s.secAnswer mbBusy []
  else if s.job.state ≠ 0 then s.secAnswer mbState []
  else
    match transition s.fuses.lifecycle target with
    | none => s.secAnswer mbState []
    | some needs =>
      if needs && !s.tokenOk 2 target token then s.tokenFailed 2
      else
        let s := if needs then s.useToken else s
        ({ s with sec := { s.sec with pending := some target } }).secAnswer mbAccepted []

/-- FLOOR_RAISE (R496, R512). DEDUCED, unsafe (log 63). -/
def State.raiseFloor (s : State) (e : Nat) (token : List Byte) : State :=
  let old := s.fuses.floor
  let both := (List.range 2).all fun r => s.fw.imgValid r s.fuses && decide (e ≤ s.fw.imgVersion r / 2 ^ 24)
  if s.sec.update.isSome then s.secAnswer mbBusy []
  else if !(decide (old < e) && decide (e ≤ 255) && both) then s.secAnswer mbState []
  else if !s.tokenOk 3 e token then s.tokenFailed 3
  else (({ s.useToken with fuses := { s.fuses with floor := e } }).event procSP 11 4 [old, e]).secAnswer mbOk []

/-- The bytes of a log position: in the ring, or in the early log before the ring exists (R411, R449). -/
def State.logEntry (s : State) (pos : Nat) : List Byte :=
  if s.log.ringUp then s.mem.read (s.log.addr pos) 64
  else match s.log.early.find? fun r => r.pos = pos with | some r => r.bytes | none => List.replicate 64 0

/-- LOG_READ (R500, R504). DEDUCED, unsafe (log 64). -/
def State.readLog (s : State) (pos count : Nat) : State :=
  if s.sec.level = 0 then s.secDenied 5
  else if count = 0 ∨ 63 < count then s.secAnswer mbArg []
  else s.secAnswer mbOk ((List.range count).map fun i => s.logEntry (pos + i)).flatten

/-- A security message served by the SP (R504). -/
def State.serveSec (s : State) : SecMsg → State
  | .getId => s.secAnswer mbOk s.idBytes
  | .quote n => s.takeQuote n
  | .challenge => s.challengeNonce
  | .debugSet l t => let x := s.debugSet l t; if x.2 && (s.pwr.pstate ≠ 4) then x.1.enterP4 2 else x.1
  | .lifecycle g t => s.lifecycleReq g t
  | .floorRaise e t => s.raiseFloor e t
  | .logRead p n => s.readLog p n

/-- Whether a provisioning cut short by a power loss is being completed (R494). -/
def State.resuming (s : State) : Bool := s.sec.pending = some 1 && s.fuses.lifecycle = 0 && s.fuses.idSk ≠ 0

/-- A security message taken to the SP and its answer brought back, as messages between the processors (R415, R504). -/
def State.relay (s : State) (m : SecMsg) : State := ((s.message procMP procSP).serveSec m).message procSP procMP

/-- A message relayed to the SP (R400, R401, R494, R498, R504). -/
def State.toSp (s : State) (m : SecMsg) : State :=
  let full := decide (4 ≤ s.sec.queue.length + s.sec.held.length)
  if s.procHeld procSP then s.secAnswer mbFailed []
  else if !s.procUp procSP || s.resuming then
    if full then s.secAnswer mbBusy [] else { s with sec := { s.sec with queue := s.sec.queue ++ [m] } }
  else
    match m with
    | .debugSet l t =>
      if s.starting then
        (if full then s.secAnswer mbBusy [] else { s with sec := { s.sec with held := s.sec.held ++ [(l, t)] } })
      else s.relay m
    | _ => s.relay m

/-- A security message on the management path: relayed by the MP. DEDUCED, unsafe (log 64). -/
def State.secMsg (s : State) (m : SecMsg) : State :=
  if !s.mgmtTakes (.sec m) || s.procHeld procMP then s
  else if !s.procUp procMP then { s with mgmt := { s.mgmt with held := s.mgmt.held ++ [.sec m] } }
  else s.toSp m

/-- The messages the SP held, in arrival order. DEDUCED, unsafe (log 64). -/
def State.drainSp (s : State) : State :=
  let q := s.sec.queue
  q.foldl (fun (s : State) m => s.toSp m) { s with sec := { s.sec with queue := [] } }

/-- The messages the MP held, in arrival order (R401). DEDUCED, unsafe (log 61). -/
def State.drainMgmt (s : State) : State :=
  let q := s.mgmt.held
  q.foldl (fun (s : State) (m : MgmtMsg) => match m with | .sec x => s.secMsg x | m => s.mgmtMsg m) { s with mgmt := { s.mgmt with held := [] } }

/-- The fuses of a transition blown in order (R493, R494); the seeds are drawn unless ID_SK is set. -/
def State.blowFuses (s : State) (target : Nat) : State :=
  let z := s.fuses
  match target with
  | 1 =>
    let sk := if z.idSk = 0 then BitVec.ofNat 512 (freshBits s.free 8) else z.idSk
    let seed := BitVec.ofNat 256 (freshBits (s.free + 8) 4)
    ({ s with fuses := { z with idSk := sk, idPk := (Config.xmssRoot sk seed) ++ seed, lc := z.lc ||| 1 } }).drawn 12
  | 2 => { s with fuses := { z with lc := z.lc ||| 2 } }
  | _ => { s with fuses := { z with keyKill := true, lc := 7 } }

/-- The end of a transition (R494): its event, then a warm start. A raise still waiting lapses, and FULL ends in FIELD (R500). DEDUCED, unsafe (log 64). -/
def State.endLifecycle (s : State) (target : Nat) : State :=
  let old := s.fuses.lc.toNat
  let again := s.resuming
  let s := s.blowFuses target
  let s := ({ s with sec := { s.sec with pending := none, raise := false } }).event procSP 11 2 [old, s.fuses.lc.toNat, bitAt again 0]
  let s := s.mgmtEvent 0x0102 s.fuses.lifecycle
  let s := if s.fuses.lifecycle = 2 && s.sec.level = 2 then s.setLevel 0 else s
  (if s.pwr.pstate = 4 && !s.starting then s else s.enterP4 2).drainSp

/-- GET_ID (R504): Security message returning identity, lifecycle, level and index state. -/
def execGetId (s : State) : Res :=
  .next (s.secMsg .getId)

/-- QUOTE (R501): Security message returning a signed attestation quote. -/
def execQuote (nonce : BitVec 256) (s : State) : Res :=
  .next (s.secMsg (.quote nonce))

/-- CHALLENGE (R505): Security message returning a fresh nonce. -/
def execChallenge (s : State) : Res :=
  .next (s.secMsg .challenge)

/-- DEBUG_SET (R498): Security message lowering or raising the debug level. -/
def execDebugSet (level : Nat) (token : List Byte) (s : State) : Res :=
  .next (s.secMsg (.debugSet level token))

/-- LIFECYCLE (R494): Security message requesting a lifecycle transition. -/
def execLifecycle (target : Nat) (token : List Byte) (s : State) : Res :=
  .next (s.secMsg (.lifecycle target token))

/-- LIFECYCLE_COMPLETE (R494): The fuses of a transition are blown and a warm start follows. -/
def execLifecycleComplete (s : State) : Res :=
  match s.sec.pending with
  | none => .next s
  | some t => onlyIf (s.busUp && s.procUp procSP) s fun s => .next (s.endLifecycle t)

/-- FLOOR_RAISE (R496): Security message raising the version floor. -/
def execFloorRaise (e : Nat) (token : List Byte) (s : State) : Res :=
  .next (s.secMsg (.floorRaise e token))

/-- LOG_READ (R504): Security message returning log ring entries. -/
def execLogRead (pos : Nat) (count : Nat) (s : State) : Res :=
  .next (s.secMsg (.logRead pos count))

end Sys2Proof.Machine
end

