-- ==== Sys2Proof/Machine/Firmware.lean ====
section
/-! DEFINITION. Watchdogs, reloads and the end of the log's millisecond (R397 to R401, R413, R510). -/

namespace Sys2Proof.Machine

/-- Whether a processor runs: the MP and the SP from C4 on, the others from their start (R424, R446, R453). -/
def State.procOn (s : State) (p : ProcId) : Bool :=
  s.fw.selected && s.start.coldDone && !s.start.coldHeld && decide (s.pwr.pstate ≤ 4) && (p.val < 2 || s.log.ringUp)

/-- Bytes of the components of a class as the store holds them against those in HBM (R399, R403). DEDUCED, unsafe (log 58). -/
def State.copyMatches (s : State) (p : ProcId) : Bool :=
  let cls := if p.val < 6 then 2 else 3
  p.val < 2 || (List.range (leNat ((s.fw.store.drop 2).take 2))).all fun c =>
    let h := fun (o n : Nat) => leNat ((s.fw.store.drop (0x40 + 32 * c + o)).take n)
    let n := h 8 4
    h 0 1 ≠ cls ||
      (!(s.fw.hbmBad.any fun a => decide (h 4 4 ≤ a) && decide (a < h 4 4 + n)) &&
        Config.shake256 (s.mem.read (h 4 4) n) = ((s.fw.digests[c]?).getD 0))

/-- What follows when a processor is held (R400). DEDUCED, unsafe (log 58). -/
def State.takeover (s : State) (p : ProcId) : State :=
  let s := if p = procMP then
      ((if s.job.state = 2 then { s with job := { s.job with parkDue := true } } else s).setReady false).serveBoundary
    else s
  let s := if s.leader.isNone then
      ((s.failStep 400).setReady false |> fun (s : State) => { s with job := { s.job with stopDispatch := true } })
    else s
  let s := if s.starting then s.failStart 6 else s
  if 2 ≤ p.val && p.val < 6 then s.pumpQueues else s

/-- An expiry (R399 to R401): the processor is reset, or held on the third expiry in 10 s or when its copy does not match. How many
earlier expiries still lie in the window is free. DEDUCED, unsafe (log 58). -/
def State.expire (s : State) (p : ProcId) : State :=
  let x := s.fw.procs[p]
  let n := min 3 (Config.order s.free 0 (x.recent + 1) % (x.recent + 1) + 1)
  let held := decide (3 ≤ n) || !s.copyMatches p
  let w : ProcId := if p = procMP then procSP else procMP
  let s := (s.drawn 1).updProc p fun x =>
    { x with expiries := if x.expiries = 0xff#8 then x.expiries else x.expiries + 1, recent := n, state := if held then 2 else 1 }
  let s := s.logRec w 0x0002 [p.val, n, bitAt held 0]
  let seq := BitVec.ofNat 32 (s.fw.procs[w].count.toNat)
  let s := s.updProc p fun x => { x with lastSeq := seq }
  let s := if 2 ≤ p.val && p.val < 6 then s.failStep 401 else s
  if held then s.takeover p else s

/-- A processor serves again: the requests held for it (R401). -/
def State.servedAgain (s : State) (p : ProcId) : State :=
  let held := s.mbx.held
  if p.val < 2 then
    let st := if s.mbx.state = 1 && !held.isEmpty then 0 else s.mbx.state
    let s : State := { s with mbx := { s.mbx with held := [], state := st } }
    (if p = procMP then s.drainMgmt else s.drainMgmt.drainSp).serveAll held
  else s.pumpQueues

/-- WD_EXPIRY (R399): A watchdog expires, resetting its processor or holding it on a third expiry. -/
def execWdExpiry (p : ProcId) (s : State) : Res :=
  onlyIf (s.procOn p && s.fw.procs[p].state = 0 && !s.fw.procs[p].halted) s fun s => .next (s.expire p)

/-- PROC_RELOAD_DONE (R399): A reset processor finishes reloading and serves held requests. -/
def execProcReloadDone (p : ProcId) (s : State) : Res :=
  onlyIf (s.procOn p && s.fw.procs[p].state = 1) s fun s =>
    .next ((s.updProc p fun x => { x with state := 0 }).servedAgain p)

/-- SUPPRESS (R413): At the end of each millisecond a SUPPRESS record reports records beyond the limit. -/
def execSuppress (s : State) : Res :=
  onlyIf (s.start.coldDone && !s.start.coldHeld && decide (s.pwr.pstate ≤ 4)) s fun s =>
    let past := s.log.rates.filter fun x => 1000 < x.2.2
    let s : State := { s with log := { s.log with rates := [] } }
    let s := past.foldl (fun (s : State) x =>
      let n := x.2.2 - 1000
      ({ s with log := { s.log with suppressed := s.log.suppressed + BitVec.ofNat 64 n } }).logAlways (Fin.ofNat 10 x.1) 0x000a [x.2.1, n]) s
    let lost := s.mgmt.lostMs
    .next (if lost = 0 then s else ({ s with mgmt := { s.mgmt with lostMs := 0 } }).event procMP 11 8 [lost])

end Sys2Proof.Machine
end

