-- ==== Sys2Proof/Machine/Gradient.lean ====
section
/-! DEFINITION. The combiner and Press (R221 to R244). -/

namespace Sys2Proof.Machine

/-- E_SCATTER (R222): Enters sparse gradient contributions into the combiner. -/
def execEScatter (c : CoreId) (g : Guard) (rs : SReg) (post : Option SemId) (s : State) : Res :=
  s.issueD c g (.async .scatter rs post)

/-- E_FLUSH (R231): Drains combiner entries of the named tables into packets to their owners. -/
def execEFlush (c : CoreId) (g : Guard) (rs : SReg) (post : Option SemId) (s : State) : Res :=
  s.issueD c g (.async .flush rs post)

/-- CMB_CFG_WRITE (R230): A write to CMB_CFG waits for earlier combiner operations and is ignored if USED is not 0. -/
def execCmbCfgWrite (c : CoreId) (g : Guard) (rs1 : SReg) (s : State) : Res := s.issueS c g (.csrw 0x110#12 rs1)

/-- SCATTER_COMPLETE (R227): A scatter writes its response record and posts. -/
def execScatterComplete (c : CoreId) (op : Nat) (s : State) : Res :=
  onlyIf (s.storeOn c) s fun s => s.onOp c op fun o =>
    match o.body with
    | .scatter resp record => .next (if s.cores[c].cmbTurn o then (s.writeStoreOf c o.id resp record).endCmb c o else s)
    | _ => .next s

/-- FLUSH_COMPLETE (R233): A flush completes when every packet is acknowledged or timed out, writing its flush record.
-/
def execFlushComplete (c : CoreId) (op : Nat) (s : State) : Res :=
  onlyIf (s.storeOn c) s fun s => s.onOp c op fun o =>
    match o.body with
    | .flush f => .next (if f.pend = 0 && !f.auto && s.cores[c].cmbTurn o then s.finishFlush c o f else s)
    | _ => .next s

/-- FLUSH (R237): Press applies a gradient packet's entries into the step's gradient table. -/
def execFlush (remote : Bool) (k : Nat) (s : State) : Res :=
  onlyIf s.running s fun s =>
    if remote then
      match s.fab.deliv[k]? with
      | none => .next s
      | some q =>
        match q.msg with
        | .flush p =>
          if !q.crcOk then .next (s.takeDeliv k).badPacket
          else
            match s.applyGrad (Fin.ofNat 4 p.cellar) p with
            | (none, s) => .next s
            | (some r, s) => .next ((s.takeDeliv k).answerGrad p (some q) r.1 r.2)
        | _ => .next s
    else
      match s.grads[k]? with
      | none => .next s
      | some p =>
        match s.applyGrad (Fin.ofNat 4 p.cellar) p with
        | (none, s) => .next s
        | (some r, s) => .next (({ s with grads := s.grads.eraseIdx k }).answerGrad p none r.1 r.2)

/-- FLUSH_ACK (R233): A packet acknowledgement with code and rejected count reaches the flushing core. -/
def execFlushAck (remote : Bool) (k : Nat) (s : State) : Res :=
  onlyIf s.running s fun s =>
    if remote then s.onResponse k fun m => m.typ = 0x13
    else
      match s.gacks[k]? with
      | none => .next s
      | some a =>
        .next ((({ s with gacks := s.gacks.eraseIdx k }).ackGrad a).freeLocal fun r =>
          match r.msg with
          | .flush p => p.core = a.core && p.op = a.op && p.table = a.table && p.owner = a.owner && p.cellar = a.cellar
          | _ => false)

/-- BANK_CLEAR_DONE (R241): A released bank's key index finishes clearing and waiting packets proceed. -/
def execBankClearDone (n : CelId) (bank : Fin 2) (s : State) : Res :=
  onlyIf (s.running && s.press[n].banks[bank].clearing) s fun s =>
    let p := s.press[n]
    let h := p.hbmPart bank
    let m := s.mem.zeroRange h.index (16 * h.slots)
    let m := if s.spillOk n then m.zeroRange (p.cavePart bank).index (16 * (p.cavePart bank).slots) else m
    .next { s with mem := m, press := s.press.set n { p with banks := p.banks.set bank GBank.zero } }

end Sys2Proof.Machine
end

