-- ==== Sys2Proof/Machine/Items.lean ====
section
/-! DEFINITION. Work items: dispatch and end (R73 to R77, R109, R129, R161, R227, R230). -/

namespace Sys2Proof.Machine

/-- The core as a work item finds it (R75, R109, R129, R161, R230): registers, flags and counters; banks, LEVEL, generators and
the store keep their content. -/
def Core.startItem (x : Core) (w : WorkItem) (vcount : Nat) (epoch step : W64) (round : Bool) (seed : W64) : Core :=
  let regs := { CoreRegs.zero with acc := x.regs.acc, pc := w.entry.toNat }
  let r1 := ((regs.sset 1 (w.argAddr.setWidth 64)).sset 2 (BitVec.ofNat 64 w.vcid)).sset 3 (BitVec.ofNat 64 vcount)
  let sem := Vector.ofFn fun (i : Fin 64) => if i.val < 40 then 0#16 else x.regs.sem[i]
  { x with
    regs := { r1.sset 4 step with sem := sem }
    ctl := { x.ctl with run := true, waiting := false, fault := false, faultCode := 0, vcid := BitVec.ofNat 64 w.vcid,
                        vcount := BitVec.ofNat 64 vcount, mapEpoch := epoch, step := step, cycle := 0, halting := false,
                        stopped := false, item := some w }
    arr := { x.arr with rowmask := BitVec.allOnes 32, warm := false, ksteps := 0, kskip := 0, wheyCyc := 0, stallCyc := 0,
                        emptyRead := false, kclamp := false, fmtmix := false, underrun := false, ring := [] }
    vec := { x.vec with domain := false, nanOut := false, span := false, noraise := false, underrun := false, elems := 0, stallCyc := 0 }
    seg := { SegSt.zero with id := x.seg.id }
    num := { x.num.clearOvf with round := round, lfsrSeed := seed, lfsrPos := 0, sticky := false, shadowDis := false, telLayer := 0, held := [] }
    cmb := { x.cmb with merged := 0, sent := 0, auto := 0, discard := 0, cfgRej := false, sentAny := false }
    imem := { x.imem with wild := false }
    store := storePut x.store w.argAddr.toNat w.args }

/-- Mailbox values of a core put aside under a VCID, and those of another VCID loaded (R76). -/
def State.swapMailbox (s : State) (c : CoreId) (out inn : Nat) : State :=
  if out = inn then s
  else
    let r := s.cores[c].regs
    let kept : List (Nat × Nat × Nat) :=
      ((List.finRange 64).filter fun (k : Fin 64) => decide (48 ≤ k.val) && r.sem[k] ≠ 0#16).map fun k => (out, k.val, r.sem[k].toNat)
    let mine := s.job.shadow.filter fun (x : Nat × Nat × Nat) => x.1 = inn
    let rest := s.job.shadow.filter fun (x : Nat × Nat × Nat) => x.1 ≠ inn
    let s : State := { s with job := { s.job with shadow := rest ++ kept } }
    let s := s.updCore c fun x => { x with regs := { x.regs with sem := Vector.ofFn fun (i : Fin 64) => if i.val < 48 then x.regs.sem[i] else 0#16 } }
    mine.foldl (fun s m => s.postTo c (semOf m.2.1) m.2.2) s

/-- VCID that a core holds in the job's map. -/
def State.ownVcid (s : State) (c : CoreId) : Nat := s.job.vcids.idxOf c.val

/-- Whether a core may run items of a VCID: its own, or that of the fenced core it stands in for (R74, R76). -/
def State.mayRun (s : State) (c : CoreId) (v : Nat) : Bool := s.coreOfVcid v = some c || s.cores[c].ctl.standIn = some v

/-- The end of the work item of a core, its mailbox its own again (R76, R158, R227). DEDUCED, safe (log 35). -/
def State.closeItem (s : State) (c : CoreId) (y : Core) : State :=
  let v := s.cores[c].ctl.vcid.toNat
  let s := s.withCore c y.sendTel
  if s.cores[c].ctl.standIn = some v then s.swapMailbox c v (s.ownVcid c) else s

/-- WORK_ITEM_END (R227): The halted work item ends once every flush packet is acknowledged or timed out, and codes go
to the queue processor. DEDUCED, unsafe (log 20). DEDUCED, safe (log 35). -/
def execWorkItemEnd (c : CoreId) (s : State) : Res :=
  onlyIf (s.coreOn c && s.cores[c].ctl.run) s fun s =>
    let x := s.cores[c]
    if x.ctl.fault then .next (s.closeItem c x.endAbrupt)
    else if !x.ctl.halting then .next s
    else if !(x.vec.chains.isEmpty && x.arr.passes.isEmpty && x.arr.loads.isEmpty) then .next s
    else
      match x.ops with
      | [o] =>
        match o.body with
        | .flush f =>
          if f.auto && f.pend = 0 then
            let s := s.finishFlush c o f
            let x := s.cores[c]
            .next (s.closeItem c { x with
              ctl := { x.ctl with run := false, waiting := false, halting := false, item := none },
              seg := { SegSt.zero with id := x.seg.id }, arr := { x.arr with warm := false }, cmb := { x.cmb with discard := 0 } })
          else .next s
        | _ => .next s
      | _ => .next s

/-- WORK_ITEM_DISPATCH (R75): A queue processor starts a work item on a core with its registers and semaphores
initialised. -/
def execWorkItemDispatch (c : CoreId) (w : WorkItem) (s : State) : Res :=
  let x := s.cores[c]
  onlyIf (s.vcoreOn && s.pwr.protect.isNone && x.ctl.enabled && !x.ctl.fenced && !x.ctl.hung && !x.ctl.run && s.job.state = 2 &&
      !s.job.stopDispatch && s.ras.dieResetting ≠ some (vatOf c).val && s.procUp (qpProc (s.dispatchQp (vatOf c))) && s.mayRun c w.vcid) s fun s =>
    let cfg := s.job.cfg
    let seed := ((cfg.map (·.seed)).getD 0) ^^^ BitVec.ofNat 64 (w.vcid * 0x9e3779b9)
    let s : State := { s with pwr := { s.pwr with gated := s.pwr.gated.set (vatOf c) false } }
    let s : State := { s with job := { s.job with moved := s.job.moved.filter fun (m : Nat × WorkItem) => !(m.1 = c.val && m.2.id = w.id) } }
    let s := if s.cores[c].ctl.standIn = some w.vcid then s.swapMailbox c (s.ownVcid c) w.vcid else s
    .next (s.updCore c fun x =>
      let x := x.startItem w s.job.vcids.length s.job.mapEpoch s.job.step ((cfg.map (·.round)).getD false) seed
      if x.imem.image = some w.image then x
      else { x with imem := { words := Cells.putDense [] 0 w.bundles, len := w.bundles.length, bad := [], image := some w.image, wild := false } })

end Sys2Proof.Machine
end

