-- ==== Sys2Proof/Machine/Mailbox.lean ====
section
/-! DEFINITION. Commands of the mailbox (R271, R272, R406 to R410, R417). -/

namespace Sys2Proof.Machine

/-- MBX_DOORBELL (R407): A mailbox doorbell submits the request message. -/
def execMbxDoorbell (x : W64) (cfg : Option JobConfig) (s : State) : Res :=
  onlyIf s.hostLink s fun s => .next (s.mbxDoorbell x cfg)

/-- GET_INFO (R409): Mailbox request returning part, serial, revision and image details. -/
def execGetInfo (ch : Chan) (m : MbxReq) (s : State) : Res := s.mbRow 0x0001 ch m none

/-- ATTACH (R391): Mailbox request resuming a session, starting a new one, or refused. -/
def execAttach (ch : Chan) (m : MbxReq) (s : State) : Res := s.mbRow 0x0002 ch m none

/-- OP_STATUS (R409): Mailbox request returning an accepted operation's progress. -/
def execOpStatus (ch : Chan) (m : MbxReq) (s : State) : Res := s.mbRow 0x0003 ch m none

/-- JOB_LOAD (R417): Mailbox request loading a job configuration. DESIGN CHOICE, unsafe (log 56). -/
def execJobLoad (ch : Chan) (m : MbxReq) (cfg : Option JobConfig) (s : State) : Res := s.mbRow 0x0010 ch m cfg

/-- JOB_PARK (R417): Mailbox request parking the job at a step boundary. -/
def execJobPark (ch : Chan) (m : MbxReq) (s : State) : Res := s.mbRow 0x0011 ch m none

/-- JOB_RESUME (R417): Mailbox request resuming a parked job. -/
def execJobResume (ch : Chan) (m : MbxReq) (s : State) : Res := s.mbRow 0x0012 ch m none

/-- JOB_ABORT (R417): Mailbox request aborting the job. -/
def execJobAbort (ch : Chan) (m : MbxReq) (s : State) : Res := s.mbRow 0x0013 ch m none

/-- JOB_STATUS (R409): Mailbox request returning job state, step and scale. -/
def execJobStatus (ch : Chan) (m : MbxReq) (s : State) : Res := s.mbRow 0x0014 ch m none

/-- EXPORT (R271): Mailbox request exporting working rows at a step boundary. -/
def execMbxExport (ch : Chan) (m : MbxReq) (s : State) : Res := s.mbRow 0x0015 ch m none

/-- IMPORT (R272): Mailbox request importing working rows and resetting masters and state. -/
def execMbxImport (ch : Chan) (m : MbxReq) (s : State) : Res := s.mbRow 0x0016 ch m none

/-- RESHARD (R338): Mailbox request re-sharding the job in place. -/
def execReshard (ch : Chan) (m : MbxReq) (cfg : Option JobConfig) (s : State) : Res := s.mbRow 0x0017 ch m cfg

/-- PROMO_RESET (R409): Mailbox request resetting PROMO of layers. -/
def execPromoReset (ch : Chan) (m : MbxReq) (s : State) : Res := s.mbRow 0x0018 ch m none

/-- CKPT_FULL (R479): Mailbox request for a full checkpoint at the next boundary. -/
def execCkptFull (ch : Chan) (m : MbxReq) (s : State) : Res := s.mbRow 0x0019 ch m none

/-- PROMENADE (R293): Mailbox request running the promenade from the root. -/
def execPromenade (ch : Chan) (m : MbxReq) (s : State) : Res := s.mbRow 0x0020 ch m none

/-- LINK_TEST (R366): Mailbox request running a die-link loopback test. -/
def execLinkTest (ch : Chan) (m : MbxReq) (s : State) : Res := s.mbRow 0x0021 ch m none

/-- TRACE_SET (R413): Mailbox request setting or clearing trace points. -/
def execTraceSet (ch : Chan) (m : MbxReq) (s : State) : Res := s.mbRow 0x0030 ch m none

/-- LOG_INFO (R409): Mailbox request returning log ring base, head and suppression count. -/
def execLogInfo (ch : Chan) (m : MbxReq) (s : State) : Res := s.mbRow 0x0031 ch m none

/-- LOG_MARK (R415): Mailbox request writing a HOST_MARK record with the host stamp. -/
def execLogMark (ch : Chan) (m : MbxReq) (s : State) : Res := s.mbRow 0x0032 ch m none

/-- EXPORT_COMPLETE (R271): An accepted export finishes writing its tables to host memory and its outcome is written as
an OP_DONE record. -/
def execExportComplete (s : State) : Res :=
  match s.opOf 0x0015 with
  | none => .next s
  | some o =>
    onlyIf (o.started && s.running) s fun s =>
      let (code, t) := s.runExport o
      .next (t.finishOp o code).serveBoundary

/-- IMPORT_COMPLETE (R272): An accepted import finishes writing working rows, masters and zeroed state and its outcome
is written as an OP_DONE record. -/
def execImportComplete (s : State) : Res :=
  match s.opOf 0x0016 with
  | none => .next s
  | some o =>
    onlyIf (o.started && s.running) s fun s =>
      let (code, t) := s.runImport o
      .next (t.finishOp o code).serveBoundary

end Sys2Proof.Machine
end

