-- ==== Sys2Proof/Machine/Matrix.lean ====
section
/-! DEFINITION. The matrix slot and the array (R50 to R52, R82 to R109, R431, R433). -/

namespace Sys2Proof.Machine

/-- M_CFG (R50): Sets the array formats and sparsity mode for later passes. -/
def execMCfg (c : CoreId) (g : Guard) (fmta : BitVec 4) (fmtb : BitVec 4) (sparse : BitVec 2) (s : State) : Res :=
  s.issueM c g (.cfg fmta fmtb sparse)

/-- M_BLOAD (R50): Queues a b-ring load of weights through an address generator. -/
def execMBload (c : CoreId) (g : Guard) (ag : AgId) (post : Option SemId) (kreg : SReg) (s : State) : Res :=
  s.issueM c g (.bload ag post kreg)

/-- M_PASS (R50): Queues a pass over k-steps into an accumulator bank. -/
def execMPass (c : CoreId) (g : Guard) (ag : AgId) (bank : Bool) (keep : Bool) (post : Option SemId) (kreg : SReg) (s :
    State) : Res := s.issueM c g (.pass ag bank keep post kreg)

/-- PASS_FRONT_END_START (R93): A queued pass starts its front end once at the queue head and its predecessor's a-stream
is done. -/
def execPassFrontEndStart (c : CoreId) (s : State) : Res :=
  onlyIf (s.coreClocked c) s fun s => .next ((s.updCore c fun x => x.passStart s.free).drawn freeStep)

/-- ARRAY_ISSUE_SLOT (R108): In an ACLK the activity governor permits, the array issues a k-step of a pass or a whey
step. -/
def execArrayIssueSlot (c : CoreId) (s : State) : Res :=
  onlyIf (s.coreClocked c) s fun s => .next (s.withCore c s.cores[c].issueSlot)

/-- PASS_COMPLETE (R92): The pass's bank becomes readable and its completion post is applied. -/
def execPassComplete (c : CoreId) (s : State) : Res :=
  onlyIf (s.coreClocked c) s fun s => .next ((s.withCore c (s.cores[c].passComplete s.free)).drawn freeStep)

/-- BLOAD_START (R89): A b-ring load starts after issue or after the previous load's last write. -/
def execBloadStart (c : CoreId) (s : State) : Res :=
  onlyIf (s.coreClocked c) s fun s => .next ((s.updCore c fun x => x.loadStart s.free).drawn freeStep)

/-- BLOAD_SLOT_WRITE (R89): A load writes its next ring slot once ordering under R90 permits. -/
def execBloadSlotWrite (c : CoreId) (s : State) : Res :=
  onlyIf (s.coreClocked c) s fun s => .next (s.withCore c s.cores[c].loadWrite)

/-- LEVEL_STEP (R108): Every 1,024 ACLK the array activity level rises, falls or holds by one. -/
def execLevelStep (c : CoreId) (quiet : Bool) (s : State) : Res :=
  onlyIf (s.vcoreOn && s.cores[c].ctl.enabled) s fun s => .next (s.updCore c fun x => x.levelStep (s.ceiling (vatOf c)) quiet)

/-- TOPUP_DECREMENT (R433): Every 512 ns an active current top-up falls by one step and ends when it reaches the new
format. -/
def execTopupDecrement (c : CoreId) (s : State) : Res :=
  onlyIf (s.coreClocked c) s fun s => .next (s.updCore c Core.topupDecrement)

end Sys2Proof.Machine
end

