-- ==== Sys2Proof/Machine/MemEvents.lean ====
section
/-! DEFINITION. Events of the memories and of the cores' stores (R193, R194, R466 to R469). -/

namespace Sys2Proof.Machine

/-- MEM_COMMIT (R193): Applies the memory configuration shadow after the region checks. -/
def execMemCommit (s : State) : Res :=
  onlyIf (s.pwr.pstate ≤ 3) s fun s => .next (s.commitMem false)

/-- HBM_WINDOW_END (R194): A counting window ends and HBM_IMBAL is updated, logging a hot window. `ratio` and `pc` are what the spec leaves open of them. DESIGN CHOICE, safe (log 107). -/
def execHbmWindowEnd (n : CelId) (ratio pc : Nat) (s : State) : Res :=
  onlyIf s.running s fun s =>
    let t := s.mem.stat[n]
    let ratio := t.ratio (s.mem.liveChannels n.val).length ratio
    let pc := t.busyPc pc
    let hot := decide (t.hotThr.toNat < ratio)
    let used := s.fab.tagsUsed n.val
    let t := { t with imbal := BitVec.ofNat 64 (ratio + 2 ^ 16 * pc + bitAt hot 24), win := t.winNext, ltagPeak := t.ltagNow, ltagNow := used, reqs := [] }
    let s : State := { s with mem := { s.mem with stat := s.mem.stat.set n t } }
    .next (if hot then s.event procMP 0 4 [n.val, ratio, pc] else s)

/-- HBM_UNCORR (R468): An uncorrectable HBM read is handled according to its region kind. -/
def execHbmUncorr (addr : Nat) (s : State) : Res :=
  match s.place addr with
  | .hbm kind dom =>
    onlyIf s.running s fun s =>
      let s : State := { s with mem := { s.mem with uncorr := (addr / 128) :: s.mem.uncorr.filter (· ≠ addr / 128) }, ras := { s.ras with hbmUe := s.ras.hbmUe + 1 } }
      let ch := s.mem.channelAt dom addr
      let again := s.ras.pcUe.any fun x => x.1 = ch && x.2 ≠ addr / 256
      let s : State := { s with ras := { s.ras with pcUe := if s.ras.pcUe.contains (ch, addr / 256) then s.ras.pcUe else s.ras.pcUe ++ [(ch, addr / 256)] } }
      let s := if again then s.markChannel ch 0 else s
      .next (s.uncorrEffect kind addr)
  | .cave _ =>
    onlyIf s.running s fun s =>
      let s : State := { s with mem := { s.mem with uncorr := (addr / 128) :: s.mem.uncorr.filter (· ≠ addr / 128) }, cave := { s.cave with poison := s.cave.poison + 1 } }
      .next (s.uncorrEffect (s.caveKind addr) addr)
  | _ => .next s

/-- HBM_CORRECTED_ERROR (R469): A corrected HBM error counts and may mark its pseudo-channel over threshold. -/
def execHbmCorrectedError (pc : Fin 1024) (past : Bool) (s : State) : Res :=
  onlyIf (s.running && !s.mem.isRetired pc.val) s fun s =>
    let s : State := { s with ras := { s.ras with hbmCe := s.ras.hbmCe + 1 } }
    .next (if past then s.markChannel pc.val 1 else s)

/-- STORE_ECC (R466): An uncorrectable core-store error faults the core and the QP rewrites, restarts or fences. -/
def execStoreEcc (c : CoreId) (word : Nat) (passes : Bool) (s : State) : Res :=
  onlyIf (s.coreOn c) s fun s =>
    let x := s.cores[c]
    let s : State := { s with ras := { s.ras with csUe := s.ras.csUe + 1 } }
    let s := if x.ctl.run then s.eccFault c else s
    let s := s.updCore c fun y => { y with store := storePut y.store (16 * (word % (storeBytes / 16))) (List.replicate 16 0), ctl := { y.ctl with ueStep := y.ctl.ueStep + 1 } }
    if !passes || 0 < x.ctl.ueStep then .next (s.fence c true 466)
    else
      match x.ctl.item with
      | none => .next s
      | some w =>
        if w.norestart || x.cmb.sentAny then .next (s.failStep 466)
        else
          let (y, ev) := s.cores[c].endAbrupt.sendTel
          let s := s.withCore c (y, ev)
          .next { s with job := { s.job with moved := s.job.moved ++ [(c.val, w)] } }

/-- CS_CORRECTED_ERROR (R466): A corrected core-store error counts and may fence the core at the next boundary. -/
def execCsCorrectedError (c : CoreId) (past : Bool) (s : State) : Res :=
  onlyIf (s.coreOn c) s fun s =>
    let s : State := { s with ras := { s.ras with csCe := s.ras.csCe + 1 } }
    let s := s.updCore c fun y => { y with ctl := { y.ctl with ceTotal := y.ctl.ceTotal + 1 } }
    .next (if past && !s.job.fenceDue.contains c.val then { s with job := { s.job with fenceDue := s.job.fenceDue ++ [c.val] } } else s)

/-- CORE_HANG (R466): A core that answers no status read for 1 ms is fenced. -/
def execCoreHang (c : CoreId) (s : State) : Res :=
  onlyIf (s.coreOn c && s.cores[c].ctl.run) s fun s =>
    .next ((s.updCore c fun y => { y with ctl := { y.ctl with hung := true } }).fence c false 466)

end Sys2Proof.Machine
end

