-- ==== Sys2Proof/Machine/QueueCmds.lean ====
section
/-! DEFINITION. Commands of submission queues and their completions (R370, R378, R379, R385 to R388, R419). -/

namespace Sys2Proof.Machine

/-- The entry of a queue that may start now: the oldest read and not started, fewer than 256 running, its order kept under AFTER (R377
to R379). -/
def State.nextEntry (s : State) (q : QId) (seq : W32) : Option Sqe :=
  let x := s.hif.queues[q]
  let running := (x.entries.filter fun e => e.started).length
  match x.entries.find? fun e => !e.started with
  | some e =>
    if e.seq = seq && decide (running < 256) && (!e.after || running = 0) && (x.state = qRunning || x.state = qStalled) && s.running &&
        s.procUp (qpProc (s.queueQp q)) then some e
    else none
  | none => none

/-- An entry marked as started, with its outcome if it is known. -/
def State.startEntry (s : State) (q : QId) (seq : W32) (code : Option Nat) (done : Nat) (dest : List (Nat × Nat)) : State :=
  s.updQueue q fun x =>
    { x with entries := x.entries.map fun (e : Sqe) => if e.seq = seq then { e with started := true, code := code, done := done } else e,
             dests := (x.dests ++ dest).eraseDups }

/-- Starting an entry of an opcode: a bad one has outcome BAD_DESC. -/
def State.startOf (s : State) (q : QId) (seq : W32) (opc : Nat) (f : State → Sqe → Res) : Res :=
  match s.nextEntry q seq with
  | none => .next s
  | some e => if e.opc ≠ opc then .next s else if !e.ok then .next (s.startEntry q seq (some stBadDesc) 0 []) else f s e

/-- Bytes of [a, a + n) before the first line that does not answer, and that line's status (R164, R178). -/
def State.goodPrefix (s : State) (read : Bool) (a n : Nat) : Nat × Nat :=
  let one := fun l => if read then s.readStatus .host (max a (128 * l)) 1 else s.accessAt .host (max a (128 * l))
  match (linesOf a n).find? fun l => one l ≠ stOk with
  | some l => (max a (128 * l) - a, one l)
  | none => (n, stOk)

/-- Device memory written by a command: what precedes the first failing line is written (R164, R378). DEDUCED, unsafe (log 75). -/
def State.queueWrite (s : State) (q : QId) (seq : W32) (a : Nat) (bs : List Byte) : Res :=
  let (n, st) := s.goodPrefix false a bs.length
  let s := if n = 0 then s else s.writeAs .host a (bs.take n)
  .next ((s.accessRecord whoHost st (a + n)).startEntry q seq (some st) n (if n = 0 then [] else [(a, n)]))

/-- VIS actions on ranges (R388). DEDUCED, unsafe (log 75). -/
def State.visActions (s : State) (vis : Nat) (rs : List (Nat × Nat)) : State :=
  let s := if bit vis 2 then rs.foldl (fun s r => { s with mem := s.mem.writeBack r.1 r.2 }) s else s
  if bit vis 1 then rs.foldl (fun s r => { s with hif := s.hif.dropLines r.1 r.2 }) s else s

/-- Outcome of a started entry, once it is known (R378, R419). -/
def State.outcomeOf (s : State) (e : Sqe) : Option Nat :=
  match e.code with
  | some c => some c
  | none =>
    if e.opc = 6 then (if !s.jobLoaded then some 0x12 else if e.arg ≤ s.job.step.toNat then some stOk else none)
    else if e.opc = 5 && !s.jobLoaded then some 0x12 else none

/-- NOP (R378): Queue command with no effect. -/
def execQNop (q : QId) (seq : W32) (s : State) : Res :=
  s.startOf q seq 0 fun s _ => .next (s.startEntry q seq (some stOk) 0 [])

/-- FENCE (R378): Queue command applying its VIS actions after every earlier entry completes. -/
def execQFence (q : QId) (seq : W32) (s : State) : Res :=
  s.startOf q seq 1 fun s _ => .next (s.startEntry q seq (some stOk) 0 [])

/-- COPY_IN (R378): Queue command copying host memory into device memory. -/
def execQCopyIn (q : QId) (seq : W32) (s : State) : Res :=
  s.startOf q seq 2 fun s e =>
    if !s.hostUp then .next (s.startEntry q seq (some stHost) 0 [])
    else s.queueWrite q seq e.daddr (Cells.dense s.mem.host e.haddr e.len)

/-- COPY_OUT (R378): Queue command copying device memory to host memory. -/
def execQCopyOut (q : QId) (seq : W32) (s : State) : Res :=
  s.startOf q seq 3 fun s e =>
    if !s.hostUp then .next (s.startEntry q seq (some stHost) 0 [])
    else
      let (n, st) := s.goodPrefix true e.daddr e.len
      let bs := s.readBytes e.daddr n
      let s := (if n = 0 then s else s.touchLines e.daddr n).accessRecord whoHost st (e.daddr + n)
      let s := { s with mem := { s.mem with host := Cells.putDense s.mem.host e.haddr bs },
                        hif := { s.hif with hostWrites := s.hif.hostWrites + BitVec.ofNat 64 (n / 16) } }
      .next (s.startEntry q seq (some st) n [])

/-- FILL (R378): Queue command filling device memory with a pattern. -/
def execQFill (q : QId) (seq : W32) (s : State) : Res :=
  s.startOf q seq 4 fun s e => s.queueWrite q seq e.daddr ((List.replicate (e.len / 4) (toLe 4 e.arg)).flatten)

/-- BATCH (R419): Queue command handing a batch to a job input ring. DEDUCED, unsafe (log 75). -/
def execQBatch (q : QId) (seq : W32) (s : State) : Res :=
  s.startOf q seq 5 fun s e =>
    let ring := bits e.arg 15 0
    if !s.jobLoaded then .next (s.startEntry q seq (some 0x12) 0 [])
    else if 16 ≤ ring then .next (s.startEntry q seq (some stBadDesc) 0 [])
    else if 256 ≤ (s.job.rings.filter fun x => x.1 = ring).length then .next s
    else
      let s := s.startEntry q seq none 0 []
      .next { s with job := { s.job with rings := s.job.rings ++ [(ring, ⟨ring, q.val, seq, e.daddr, e.len⟩)] } }

/-- WAIT_STEP (R378): Queue command completing when the job reaches a step. -/
def execQWaitStep (q : QId) (seq : W32) (s : State) : Res :=
  s.startOf q seq 6 fun s _ => .next (s.startEntry q seq none 0 [])

/-- SQ_POST (R378): Queue command posting a mailbox semaphore of a VCID. -/
def execQPost (q : QId) (seq : W32) (s : State) : Res :=
  s.startOf q seq 7 fun s e =>
    let v := bits e.arg 15 0
    if !s.jobLoaded then .next (s.startEntry q seq (some 0x12) 0 [])
    else if s.job.vcids.length ≤ v then .next (s.startEntry q seq (some stBadDesc) 0 [])
    else .next ((s.postVcid v (bits e.arg 19 16) (bits e.arg 31 24)).2.startEntry q seq (some stOk) 0 [])

/-- COMMAND_COMPLETE (R388): A command's effects and VIS actions finish and its record enters the device ring. -/
def execCommandComplete (q : QId) (seq : W32) (s : State) : Res :=
  onlyIf (s.pwr.pstate ≤ 3 && s.procUp (qpProc (s.queueQp q))) s fun s =>
    let x := s.hif.queues[q]
    match x.entries.find? fun e => e.seq = seq with
    | none => .next s
    | some e =>
      if !e.started then
        if 8 ≤ e.opc && (s.nextEntry q seq).isSome then .next (s.complete q e stBadDesc 0) else .next s
      else
        match s.outcomeOf e with
        | none => .next s
        | some code =>
          let rs := if e.opc = 1 then x.dests else if (e.opc = 2 || e.opc = 4) && 0 < e.done then [(e.daddr, e.done)] else []
          .next ((s.visActions e.vis rs).complete q e code e.done)

/-- COMPLETION_WRITE (R386): A record is written to the host ring once there is room. -/
def execCompletionWrite (q : QId) (s : State) : Res :=
  onlyIf (s.hif.attached && s.hif.linkUp && s.hif.queues[q].state ≠ qDetached) s fun s =>
    let x := s.hif.queues[q]
    match s.nextCmpl q, x.cqLog with
    | some c, some l =>
      let a := x.cqBase.toNat / 4096 * 4096 + 64 * (c.cidx.toNat % 2 ^ l)
      let ring := s.hif.ring.map fun (y : Cmpl) => if y.q = c.q && y.cidx = c.cidx && !y.written then { y with written := true } else y
      .next { s with mem := { s.mem with host := Cells.putDense s.mem.host a (c.bytes l) },
                     hif := { s.hif with ring := ring, hostWrites := s.hif.hostWrites + 1 } }
    | _, _ => .next s

/-- HOST_COMPLETION_TIMEOUT (R370): A host-memory request unanswered for 10 ms ends its transfer with HOST. DEDUCED, unsafe (log 75). -/
def execHostCompletionTimeout (w : ReqOwner) (s : State) : Res :=
  match w with
  | .core c op =>
    let c : CoreId := Fin.ofNat 256 c
    match s.cores[c].opAt op with
    | some o =>
      match o.body with
      | .xfer raw _ _ _ _ =>
        let d := XDesc.mk raw
        onlyIf (d.op ≤ 1 && ((d.usesSrc && d.sspace = 4) || d.dspace = 4)) s fun s =>
          .next (s.setXfer c op 0 stHost (if d.dspace = 4 then d.dst else d.src))
      | _ => .next s
    | none => .next s
  | .queue q seq =>
    let q : QId := Fin.ofNat 64 q
    match s.hif.queues[q].entries.find? fun e => e.seq = BitVec.ofNat 32 seq && e.started && (e.opc = 2 || e.opc = 3) && (e.code = some stOk || e.code = none) with
    | some e =>
      let n := 16 * (Config.order s.free 0 (e.len / 16 + 1) % (e.len / 16 + 1))
      .next (((s.drawn 1).startEntry q e.seq (some stHost) n []).event (qpProc (s.queueQp q)) 3 5 [q.val, seq, Config.order s.free 1 65536])
    | none => .next s
  | .firmware _ =>
    match s.opOf 0x0015 with
    | some o => if o.started then .next (s.finishOp o mbFailed) else .next s
    | none => .next s

end Sys2Proof.Machine
end

