-- ==== Sys2Proof/Machine/RegRead.lean ====
section
/-! DEFINITION. What every register of the module reads (R78, R193, R194, R220, R244, R276, R309, R310, R345, R367, R372, R394 to R396, R422,
R443, R464, R490, R514). -/

namespace Sys2Proof.Machine

/-- An element of a vector by number; 0 words beyond its end. -/
def wordAt {n : Nat} (v : Vector W64 n) (i : Nat) : Nat := ((v.toList[i]?).getD 0).toNat

/-- Host interface block (R394), module-wide part. -/
def State.hifReg (s : State) (o : Nat) : Nat :=
  let h := s.hif
  match o with
  | 0x000 => bitAt h.ready 0 + bitAt h.attached 1 + 4 * (h.cause % 8) + 2 ^ 8 * (h.width % 32) + 2 ^ 13 * (h.rate % 8)
  | 0x010 => h.hbTime.toNat
  | 0x018 => h.hostWrites.toNat
  | 0x020 => h.bar4Base.toNat
  | 0x030 => h.session.toNat
  | 0x038 => h.lost.toNat
  | 0x040 => h.ringPos.toNat
  | 0x048 => h.telBase
  | _ => 0

/-- Registers of a queue (R395). -/
def State.queueReg (s : State) (q : QId) (o : Nat) : Nat :=
  let x := s.hif.queues[q]
  match o with
  | 0x00 => x.cfg.toNat
  | 0x08 => x.cqBase.toNat
  | 0x10 => x.cqCfg.toNat
  | 0x18 => x.cqHead.toNat
  | 0x20 => x.state % 8 + 2 ^ 8 * (s.queueQp q % 4) + 2 ^ 32 * x.nextSeq.toNat
  | 0x30 => x.cidxNext.toNat
  | 0x38 => x.reread.toNat
  | _ => 0

/-- Memory configuration block (R193): shadowed fields read their shadow. -/
def State.memReg (s : State) (o : Nat) : Nat :=
  let c := s.mem.cfg
  if o < 0x080 then wordAt c.shadow (o / 8)
  else
    match o with
    | 0x080 => c.pinShadow.toNat
    | 0x088 => c.caveShadow.toNat
    | 0x098 => c.status.toNat
    | 0x0a0 => (List.range 4).foldl (fun a n => a + (c.cap.toList[n]?).getD 0 % 2 ^ 16 * 2 ^ (16 * n)) 0
    | 0x0a8 => c.caveSize % 2 ^ 16
    | 0x0b0 => c.keyEpoch % 2 ^ 32
    | _ => 0

/-- Fabric block (R309). -/
def State.fabReg (s : State) (o : Nat) : Nat :=
  let f := s.fab
  match o with
  | 0x000 => f.faddr.toNat + 2 ^ 24 * (f.wx % 32) + 2 ^ 29 * (f.wy % 32) + 2 ^ 34 * (f.wz % 32) + bitAt f.valid 39
  | 0x008 => f.dims[0] % 2 ^ 25
  | 0x010 => f.dims[1] % 2 ^ 25
  | 0x018 => f.dims[2] % 2 ^ 25
  | 0x020 => f.promOut % 8 + bitAt f.root 3 + 2 ^ 4 * (f.mapCur % 8) + bitAt f.switch.isSome 7 + 2 ^ 8 * (f.mapld % 4) + bitAt f.mapswFail 10 +
      2 ^ 32 * f.mseq.toNat
  | 0x028 => f.cfgShadow.toNat
  | 0x040 => f.lateResp.toNat
  | 0x048 => f.noroute.toNat
  | 0x050 => f.hopDrop.toNat
  | 0x058 => f.pktBad.toNat
  | 0x060 => f.mcDetach.toNat
  | 0x068 => f.hoplimShadow.toNat
  | _ => 0

/-- Port block (R310). -/
def State.portReg (s : State) (p : PortId) (o : Nat) : Nat :=
  let x := s.fab.ports[p]
  match o with
  | 0x000 => bitAt x.enable 0 + bitAt x.half 1 + bitAt x.loop 2
  | 0x008 => x.state % 8 + bitAt x.higrp 3 + 2 ^ 4 * (x.laneBad % 256) + 2 ^ 12 * (x.peerPort % 16)
  | 0x010 => x.peer.toNat
  | 0x018 => x.fecCorr.toNat
  | 0x020 => x.fecUncorr.toNat
  | 0x028 => x.retry.toNat
  | 0x030 => x.down.toNat
  | 0x038 => x.txBytes.toNat
  | 0x040 => x.rxBytes.toNat
  | _ => 0

/-- Modules of this variant that a test picks. -/
def State.countMods (s : State) (p : DlMod → Bool) : Nat :=
  ((List.range 288).filter fun i => dlListed s.fuses.lx i && p (s.dl.modAt i)).length

/-- Links lost (R359): every module FAILED. DEDUCED, unsafe (log 69). -/
def State.linksLost (s : State) : Nat := ((List.range 18).filter fun l => dlListed s.fuses.lx (16 * l) && s.linkFailed l).length

/-- Die-link block (R367). -/
def State.dlReg (s : State) (o : Nat) : Nat :=
  if o = 0x000 then s.dl.cfg.toNat
  else if o = 0x010 then
    s.countMods (fun m => m.state = 2 && !m.inband) % 256 + 2 ^ 8 * (s.countMods (fun m => m.state = 2 && m.inband) % 256) +
      2 ^ 16 * (s.countMods (fun m => m.state = 3) % 256) + 2 ^ 24 * (s.countMods (fun m => m.state = 4) % 256) + 2 ^ 32 * (s.linksLost % 32)
  else if o = 0x018 then s.dl.accStatus
  else if 0x100 ≤ o ∧ o < 0x100 + 8 * 288 then
    let i := (o - 0x100) / 8
    let m := s.dl.modAt i
    if !dlListed s.fuses.lx i then 0
    else m.state % 8 + bitAt m.higrp 3 + bitAt m.inband 4 + 2 ^ 5 * (m.spares % 8) + 2 ^ 16 * m.epoch.toNat + 2 ^ 32 * m.retrains.toNat + 2 ^ 48 * m.naks.toNat
  else if 0x1000 ≤ o ∧ o < 0x1000 + 16 * 288 then
    let i := (o - 0x1000) / 16
    let m := s.dl.modAt i
    if !dlListed s.fuses.lx i then 0 else if o % 16 = 0 then m.laneBad.toNat else m.redund.toNat
  else 0

/-- Cave block (R396). -/
def State.caveReg (s : State) (o : Nat) : Nat :=
  if o < 0x020 then
    let x := s.cave.ports[Fin.ofNat 4 (o / 8)]
    x.state % 8 + 2 ^ 4 * (x.width % 32) + bitAt x.rate 9 + 2 ^ 10 * (x.refuse % 64) + 2 ^ 16 * (x.cap % 65536)
  else if o = 0x020 then s.cave.poison.toNat
  else if o = 0x028 then s.cave.timeout.toNat
  else 0

/-- FW_STATUS (R422). -/
def FwSt.status (f : FwSt) : Nat :=
  f.image % 2 + bitAt f.split 1 + bitAt f.otherValid 2 + bitAt f.noImage 3 + 2 ^ 4 * f.boot.toNat + 2 ^ 32 * f.version.toNat

/-- Mailbox window (R422). -/
def State.mbxReg (s : State) (o : Nat) : Nat :=
  let b := s.mbx
  if o < 0x1000 then Cells.le b.req o 8
  else if o < 0x2000 then (match b.resp with | some r => fieldLe r.bytes (o - 0x1000) 8 | none => 0)
  else if o = 0x2008 then b.state % 4 + bitAt (s.fw.procs[procMP].state ≠ 0) 2 + 2 ^ 32 * Cells.le b.req 8 4
  else if 0x3000 ≤ o ∧ o < 0x3050 then (s.fw.procs[Fin.ofNat 10 ((o - 0x3000) / 8)]).cfg.toNat
  else if 0x3080 ≤ o ∧ o < 0x30d0 then
    let p := s.fw.procs[Fin.ofNat 10 ((o - 0x3080) / 8)]
    p.expiries.toNat + 2 ^ 8 * (p.state % 4) + 2 ^ 10 * (p.recent % 4) + 2 ^ 32 * p.lastSeq.toNat
  else if o = 0x3100 then s.fw.status
  else if o = 0x3108 then s.log.base
  else if o = 0x3110 then s.log.head % 2 ^ 64
  else if o = 0x3118 then s.log.suppressed.toNat
  else if 0x3200 ≤ o ∧ o < 0x3400 then wordAt s.log.trace ((o - 0x3200) / 8)
  else 0

/-- Memory statistics (R194). -/
def MemStat.reg (t : MemStat) (o : Nat) : Nat :=
  match o with
  | 0x000 => t.winNext.toNat
  | 0x008 => t.imbal.toNat
  | 0x010 => t.hotThr.toNat
  | 0x018 | 0x020 | 0x028 | 0x030 => wordAt t.retired ((o - 0x018) / 8)
  | 0x038 => t.hit.toNat
  | 0x040 => t.miss.toNat
  | 0x048 => t.wback.toNat
  | 0x050 => t.ltagPeak % 2 ^ 15
  | _ => 0

/-- Ladle block (R220). -/
def EmbSt.reg (e : EmbSt) (o : Nat) : Nat :=
  match o with
  | 0x000 => e.descBase
  | 0x008 => e.cfgNext.toNat
  | 0x010 => e.missing.toNat
  | 0x018 => e.oorFwd.toNat
  | 0x020 => e.replHit.toNat
  | 0x028 => e.replFill.toNat
  | 0x030 => e.rows.toNat
  | 0x038 => e.busy.toNat
  | 0x040 => e.stale.toNat
  | 0x048 => e.dispDrop.toNat
  | _ => 0

/-- GT_STATE (R244). -/
def PressSt.gtState (p : PressSt) : Nat :=
  let (a, b) := (p.banks[0], p.banks[1])
  bitAt a.isSealed 0 + bitAt b.isSealed 1 + bitAt a.clearing 2 + bitAt b.clearing 3 + bitAt a.spilled 4 + bitAt b.spilled 5 + bitAt a.full 6 + bitAt b.full 7

/-- Press block (R244). -/
def PressSt.reg (p : PressSt) (o : Nat) : Nat :=
  match o with
  | 0x000 => p.base[0]
  | 0x008 => p.base[1]
  | 0x010 => p.keyLimit % 2 ^ 32 + 2 ^ 32 * (p.heapSegs % 2 ^ 32)
  | 0x018 => p.spill.toNat
  | 0x020 => p.gtState
  | 0x028 => p.banks[0].keys.length
  | 0x030 => p.banks[1].keys.length
  | 0x038 => p.adds.toNat
  | 0x040 => p.busy.toNat
  | 0x048 => p.oorDrop.toNat
  | 0x050 => p.spillKeys.toNat
  | 0x058 => p.drop.toNat
  | 0x060 => p.late.toNat
  | 0x068 => p.stale.toNat
  | 0x070 => p.ovf.toNat
  | _ => 0

/-- UPD_STATUS (R276). DEDUCED, unsafe (log 66). -/
def State.updStatus (s : State) (n : CelId) : Nat :=
  let u := s.upd[n]
  let mode := match u.run with
    | none => 0
    | some r => if r.recovery then 3 else if r.done1 < r.groups.length then 1 else 2
  let ready := (s.job.ready.filter fun e => !s.job.doneCel.contains (e.table, n.val)).length
  mode + bitAt u.stopped 2 + 2 ^ 8 * min 255 ready + 2 ^ 16 * ((match u.run with | some r => r.entry.table | none => 0) % 65536)

/-- Update block (R276). -/
def State.updReg (s : State) (n : CelId) (o : Nat) : Nat :=
  let u := s.upd[n]
  match o with
  | 0x000 => u.journal
  | 0x008 => u.cfgNext.toNat
  | 0x010 => s.updStatus n
  | 0x018 => u.elems.toNat
  | 0x020 => u.nonfin.toNat
  | 0x028 => u.uncorr.toNat
  | 0x030 => u.recover.toNat
  | 0x038 => u.suspect.toNat
  | 0x040 => u.drift.toNat
  | 0x048 => u.scrubs.toNat
  | 0x050 => u.busy.toNat
  | _ => 0

/-- COLL_STATUS (R345). -/
def State.collStatus (s : State) (n : CelId) : Nat :=
  let cs := s.coll.colls
  min 16 (cs.filter fun c => c.active).length + 2 ^ 5 * min 255 (cs.filter fun c => !c.active).length + bitAt (cs.any fun c => c.active && c.spilled) 13 +
    bitAt (s.coll.reshard || s.job.reshard.isSome) 14 + 2 ^ 15 * (s.collCel[n].leases.length % 2048)

/-- Collective block (R345). -/
def State.collReg (s : State) (n : CelId) (o : Nat) : Nat :=
  let e := s.collCel[n]
  match o with
  | 0x000 => e.cfgNext.toNat
  | 0x008 => s.collStatus n
  | 0x010 => s.coll.commBase
  | 0x018 => s.coll.permBase + 2 ^ 48 * s.coll.permGib
  | 0x020 => e.done.toNat
  | 0x028 => e.fail.toNat
  | 0x030 => e.bytes.toNat
  | 0x038 => e.ovf.toNat
  | 0x040 => e.grant.toNat
  | 0x048 => e.expired.toNat
  | 0x050 => e.full.toNat
  | 0x058 => e.basis.toNat
  | 0x060 => e.spill.toNat
  | 0x068 => e.split.toNat
  | 0x070 => e.skip.toNat
  | _ => 0

/-- The Cellar area of CELn (R372). -/
def State.cellarReg (s : State) (n : CelId) (o : Nat) : Nat :=
  if o < 0x1000 then s.mem.stat[n].reg o
  else if o < 0x2000 then s.emb[n].reg (o - 0x1000)
  else if o < 0x3000 then s.press[n].reg (o - 0x2000)
  else if o < 0x4000 then s.updReg n (o - 0x3000)
  else if o < 0x5000 then s.collReg n (o - 0x4000)
  else if 0x10000 ≤ o ∧ o < 0x13000 then s.portReg (Fin.ofNat 12 (3 * n.val + (o - 0x10000) / 0x1000)) (o % 0x1000)
  else 0

/-- The per-core block (R78, R372). -/
def State.coreReg (s : State) (c : CoreId) (o : Nat) : Nat := (s.cores[c].csrRead (s.env c) (o / 8)).toNat

/-- The device registers by offset, 8 bytes at an offset aligned to 8 (R372). -/
def State.devReg (s : State) (o : Nat) : Nat :=
  let b := o % 0x10000
  if o < 0x010000 then (if b < 0x100 then s.hifReg b else if b < 0x1100 then s.queueReg (Fin.ofNat 64 ((b - 0x100) / 0x40)) (b % 0x40) else 0)
  else if o < 0x020000 then s.memReg b
  else if o < 0x030000 then s.fabReg b
  else if o < 0x040000 then s.dlReg b
  else if o < 0x050000 then s.caveReg b
  else if o < 0x060000 then s.mbxReg b
  else if 0x100000 ≤ o ∧ o < 0x500000 then s.cellarReg (Fin.ofNat 4 (o / 0x100000 - 1)) (o % 0x100000)
  else if 0x1000000 ≤ o ∧ o < 0x2000000 then s.coreReg (Fin.ofNat 256 (o / 0x10000 - 0x100)) b
  else 0

/-- The LEVEL ceiling in force (R431, R443): the highest over the Vat dies, 0 without VCORE. DEDUCED, unsafe (log 45). -/
def State.ceilNow (s : State) : Nat := if s.running then (List.finRange 4).foldl (fun a v => max a (s.ceiling v)) 0 else 0

/-- PWR_STATUS (R443). DEDUCED, unsafe (log 44). -/
def State.pwrStatus (s : State) : Nat :=
  let p := s.pwr
  s.pstateNow % 8 + bitAt p.sag 3 + bitAt (p.coolReq ≠ 0) 4 + bitAt (!p.hot.isEmpty) 5 + bitAt (p.capCeil < 64) 6 + 2 ^ 7 * (s.ceilNow % 128) +
    ((List.finRange 4).foldl (fun a v => a + bitAt p.gated[v] (14 + v.val)) 0) + bitAt p.ride 18 + bitAt p.protect.isSome 19 + bitAt p.aux 20

/-- START_STATUS (R464). -/
def State.startStatus (s : State) : Nat :=
  let x := s.start
  let wait := if s.pwr.pstate = 4 && x.coldDone && !s.starting then s.waitCond else 0
  x.stage % 16 + 2 ^ 4 * (x.cause % 16) + bitAt x.ready 8 + bitAt s.fab.valid 9 + bitAt s.hif.linkUp 10 + 2 ^ 12 * wait + 2 ^ 16 * (x.fail % 256) +
    2 ^ 24 * (x.cores % 512) + 2 ^ 33 * (x.pcRetired % 2048) + 2 ^ 44 * (x.cavePorts % 16)

/-- CKPT_STATUS (R490). -/
def State.ckptStatus (s : State) : Nat :=
  let r := s.ras
  bitAt (s.jobLoaded && (s.buddyOf s.fab.faddr.toNat).isSome) 0 + bitAt (s.jobLoaded && r.caveOn) 1 + bitAt r.inflight 2 + bitAt r.full 3 +
    bitAt (r.caveOn && r.caveOk) 4 + bitAt r.buddyOk 5 + bitAt r.denseCave 6 + bitAt r.recovering 7 + 2 ^ 16 * r.epoch.toNat

/-- SEC_STATUS (R514). -/
def State.secStatus (s : State) : Nat :=
  s.fuses.lifecycle + 2 ^ 2 * (s.sec.level % 4) + 2 ^ 4 * (s.fuses.floor % 256) + bitAt s.fuses.hasKey 12 + bitAt s.sec.update.isSome 13 +
    bitAt s.sec.nonce.isSome 14 + bitAt s.sec.pending.isSome 15

/-- The MP's private register space (R443, R464, R490, R514). -/
def State.privReg (s : State) (o : Nat) : Nat :=
  if 0x030 ≤ o ∧ o < 0x070 then wordAt s.pwr.rails ((o - 0x030) / 8)
  else if 0x280 ≤ o ∧ o < 0x300 then bits s.ras.pcMark.toNat (64 * ((o - 0x280) / 8) + 63) (64 * ((o - 0x280) / 8))
  else
    match o with
    | 0x000 => s.pwrStatus
    | 0x008 => s.pwr.cfg.toNat
    | 0x018 => s.pwr.inp.toNat
    | 0x020 => s.pwr.bucket / 10 % 2 ^ 13 + 2 ^ 13 * (s.pwr.capCeil % 128)
    | 0x028 => bits s.pwr.holdup.toNat 15 0 + bitAt s.pwr.holdupOk 16
    | 0x080 => s.pwr.sagCnt.toNat
    | 0x088 => s.pwr.protectCnt.toNat
    | 0x090 => s.pwr.capTicks.toNat
    | 0x098 => s.pwr.flushInc.toNat
    | 0x100 => s.startStatus
    | 0x108 => s.start.dur.toNat
    | 0x200 => s.ras.cfgNext.toNat
    | 0x208 => s.ckptStatus
    | 0x210 => s.ras.areaBase + 2 ^ 48 * s.ras.areaGib
    | 0x218 => s.ras.newest.getD (2 ^ 64 - 1)
    | 0x220 => s.ras.merged
    | 0x228 => s.ras.csCe.toNat
    | 0x230 => s.ras.csUe.toNat
    | 0x238 => s.ras.hbmCe.toNat
    | 0x240 => s.ras.hbmUe.toNat
    | 0x248 => s.ras.fences.toNat
    | 0x250 => s.ras.rollback.toNat
    | 0x258 => s.ras.restores.toNat
    | 0x260 => s.ras.splits.toNat
    | 0x268 => s.ras.flushInc.toNat
    | 0x270 => s.ras.deltaWait.toNat
    | 0x300 => s.secStatus
    | 0x308 => s.sec.index % 2 ^ 21 + 2 ^ 21 * (s.sec.mark % 2 ^ 21)
    | 0x310 => s.sec.cfg.toNat
    | 0x318 => s.sec.quotes.toNat
    | 0x320 => s.sec.tokenFail.toNat
    | 0x328 => s.sec.tapDeny.toNat
    | 0x330 => s.mgmt.evtLost.toNat
    | _ => 0

/-- A register of 64 bits as a space shows it. -/
def State.reg64 (s : State) (sp : RegSpace) (o : Nat) : Nat := match sp with | .priv => s.privReg o | _ => s.devReg o

/-- Whether an access has a form that registers accept (R372): 4 or 8 bytes, naturally aligned. -/
def regForm (off size : Nat) : Bool := (size = 4 || size = 8) && off % size = 0

/-- The bytes that an accepted read returns. -/
def State.regBytes (s : State) (sp : RegSpace) (off size : Nat) : List Byte := ((toLe 8 (s.reg64 sp (off / 8 * 8))).drop (off % 8)).take size

end Sys2Proof.Machine
end

