-- ==== Sys2Proof/Machine/Registers.lean ====
section
/-! DEFINITION. Writes of registers on every path (R8, R168, R193, R194, R220, R276, R309, R310, R345, R367, R372, R380, R394 to R396, R422,
R443, R486, R490, R514). -/

namespace Sys2Proof.Machine

/-- Who writes a register: the host through BAR0, firmware, the TAP. -/
inductive RegPath where
  | host | firmware | tap
  deriving DecidableEq, Repr

/-- Number of a path in REG_SIZE records. DEDUCED, unsafe (log 66). -/
def RegPath.code : RegPath → Nat
  | .host => 0 | .firmware => 1 | .tap => 2

/-- A write of the host interface block (R394). -/
def State.writeHif (s : State) (o : Nat) (x : W64) : State :=
  match o with
  | 0x008 => { s with hif := { s.hif with hbArmed := true } }
  | 0x010 => { s with hif := { s.hif with hbTime := x &&& 0xffff#64 } }
  | 0x020 => { s with hif := { s.hif with bar4Base := x.setWidth 48 } }
  | _ => s

/-- A write of a queue's registers (R380, R395). -/
def State.writeQueue (s : State) (q : QId) (o : Nat) (x : W64) : State :=
  let st := s.hif.queues[q].state
  let open' := decide (st = qDisabled) || decide (st = qDetached)
  match o with
  | 0x00 => s.sqCfgWrite q x
  | 0x08 => if open' then s.updQueue q fun y => { y with cqBase := x &&& ~~~0xfff#64 } else s
  | 0x10 => if open' then s.updQueue q fun y => { y with cqCfg := x &&& 0x1f#64 } else s
  | 0x18 => s.cqHeadWrite q x
  | 0x28 =>
    let s := if x.getLsbD 0 then s.resumeQueue q else s
    if x.getLsbD 1 then s.resetQueue q (BitVec.ofNat 32 (x.toNat / 2 ^ 32)) else s
  | _ => s

/-- A write of the memory configuration block: the shadow, or a commit that becomes PENDING (R193). -/
def State.writeMem (s : State) (o : Nat) (x : W64) : State :=
  let c := s.mem.cfg
  let put := fun (c : MemCfg) => { s with mem := { s.mem with cfg := c } }
  if 0x008 ≤ o ∧ o < 0x080 then put { c with shadow := c.shadow.set (Fin.ofNat 16 (o / 8)) (x &&& 0xffffffff#64) }
  else
    match o with
    | 0x080 => put { c with pinShadow := x &&& 0xffff#64 }
    | 0x088 => put { c with caveShadow := x &&& 0xf#64 }
    | 0x090 => if x.getLsbD 0 then put { c with status := 1 } else s
    | _ => s

/-- A write of the fabric block (R309). -/
def State.writeFab (s : State) (o : Nat) (x : W64) : State :=
  match o with
  | 0x028 => { s with fab := { s.fab with cfgShadow := x &&& ~~~(BitVec.ofNat 64 (0xffff * 2 ^ 36)) } }
  | 0x030 => if x.getLsbD 0 then s.fabCommit else s
  | 0x038 => s.fabMapLoad x
  | 0x068 => { s with fab := { s.fab with hoplimShadow := x.setWidth 32 } }
  | _ => s

/-- A write of the die-link block (R367). -/
def State.writeDl (s : State) (o : Nat) (x : W64) : State :=
  match o with
  | 0x000 => { s with dl := { s.dl with cfg := x &&& 7#64 } }
  | 0x008 => if s.running then s.dlTestWrite x else s
  | _ => s

/-- A write of the mailbox window but for the doorbell (R413, R422); `n` bytes reach MBX_REQ. -/
def State.writeMbx (s : State) (o : Nat) (x : W64) : State :=
  if 0x3000 ≤ o ∧ o < 0x3050 then
    if s.jobLoaded then s else s.updProc (Fin.ofNat 10 ((o - 0x3000) / 8)) fun p => { p with cfg := x &&& 0xffff#64 }
  else if 0x3200 ≤ o ∧ o < 0x3400 then { s with log := { s.log with trace := s.log.trace.set (Fin.ofNat 64 ((o - 0x3200) / 8)) x } }
  else s

/-- A write of a port block (R310). -/
def State.writePort (s : State) (p : PortId) (o : Nat) (x : W64) : State :=
  if o ≠ 0 then s
  else
    let y := { s.fab.ports[p] with enable := x.getLsbD 0, half := x.getLsbD 1, loop := x.getLsbD 2 }
    let s : State := { s with fab := { s.fab with ports := s.fab.ports.set p y } }
    if x.getLsbD 3 && s.running then s.trainPort p else s

/-- A write of the Cellar area (R194, R220, R276, R310, R345); `locked` tells of a host write while a job is loaded. -/
def State.writeCellar (s : State) (n : CelId) (o : Nat) (x : W64) (locked : Bool) : State :=
  if o = 0x0000 then { s with mem := { s.mem with stat := s.mem.stat.set n { s.mem.stat[n] with winNext := x.setWidth 32 } } }
  else if o = 0x0010 then { s with mem := { s.mem with stat := s.mem.stat.set n { s.mem.stat[n] with hotThr := x.setWidth 16 } } }
  else if o = 0x1008 then { s with emb := s.emb.set n { s.emb[n] with cfgNext := x &&& 0xffff07#64 } }
  else if o = 0x3008 then { s with upd := s.upd.set n { s.upd[n] with cfgNext := x &&& 0x3ffff#64 } }
  else if o = 0x4000 then
    if locked then s else { s with collCel := s.collCel.set n { s.collCel[n] with cfgNext := x &&& 0xffffffffffff#64 } }
  else if 0x10000 ≤ o ∧ o < 0x13000 then s.writePort (Fin.ofNat 12 (3 * n.val + (o - 0x10000) / 0x1000)) (o % 0x1000) x
  else s

/-- A write of a 64-bit device register (R372). Host writes of the memory, fabric, die-link and collective blocks are ignored while a job
is loaded. -/
def State.writeDev (s : State) (path : RegPath) (o : Nat) (x : W64) : State :=
  let b := o % 0x10000
  let locked := path = .host && s.jobLoaded
  if o < 0x010000 then (if b < 0x100 then s.writeHif b x else if b < 0x1100 then s.writeQueue (Fin.ofNat 64 ((b - 0x100) / 0x40)) (b % 0x40) x else s)
  else if o < 0x020000 then (if locked then s else s.writeMem b x)
  else if o < 0x030000 then (if locked then s else s.writeFab b x)
  else if o < 0x040000 then (if locked then s else s.writeDl b x)
  else if o < 0x050000 then s
  else if o < 0x060000 then s.writeMbx b x
  else if 0x100000 ≤ o ∧ o < 0x500000 then s.writeCellar (Fin.ofNat 4 (o / 0x100000 - 1)) (o % 0x100000) x locked
  else s

/-- A write of the MP's private register space (R443, R490, R514). DEDUCED, unsafe (log 66). -/
def State.writePriv (s : State) (o : Nat) (x : W64) : State :=
  match o with
  | 0x008 => { s with pwr := { s.pwr with cfg := x &&& 0xfffff3f#64 } }
  | 0x010 => s.powerReq (x.toNat % 4)
  | 0x200 => { s with ras := { s.ras with cfgNext := x &&& 0xffffffff#64 } }
  | 0x310 => { s with sec := { s.sec with cfg := x &&& 0xffff#64 } }
  | _ => s

/-- The 64 bits that a write carries to a register: a 4-byte access reaches one half of it, over what the register reads (R372). DEDUCED, unsafe (log 66). -/
def State.writeWord (s : State) (sp : RegSpace) (off size : Nat) (x : W64) : W64 :=
  if size = 8 then x
  else
    let old := s.reg64 sp (off / 8 * 8)
    let v := x.toNat % 2 ^ 32
    BitVec.ofNat 64 (if off % 8 = 0 then old / 2 ^ 32 * 2 ^ 32 + v else old % 2 ^ 32 + v * 2 ^ 32)

/-- Whether the block at an offset is powered (R426, R500): the Cellar dies' areas in P0 to P3, those of the cores with VCORE. -/
def State.blockOn (s : State) (sp : RegSpace) (off : Nat) : Bool :=
  match sp with
  | .priv => true
  | _ => if off < 0x100000 then true else if off < 0x1000000 then decide (s.pwr.pstate ≤ 3) else s.vcoreOn

/-- MBX_REQ and MBX_DOORBELL (R407, R422): bytes of the request, or its submission. -/
def mbxOffset (sp : RegSpace) (off : Nat) : Option Nat :=
  if sp ≠ .priv && decide (0x050000 ≤ off ∧ off < 0x060000) then some (off - 0x050000) else none

/-- A write of a register on a path (R372): of another size or alignment it is discarded and told. DEDUCED, unsafe (log 66). -/
def State.regWrite (s : State) (path : RegPath) (sp : RegSpace) (off size : Nat) (x : W64) : State :=
  if 0x4000000 ≤ off then s
  else if !regForm off size then s.event procMP 3 1 [path.code, off, size, 1]
  else if !s.blockOn sp off then s
  else
    let y := s.writeWord sp off size x
    match mbxOffset sp off with
    | some o =>
      if o < 0x1000 then { s with mbx := { s.mbx with req := Cells.write s.mbx.req o (toLe size x.toNat) } }
      else if o / 8 * 8 = 0x2000 then s.mbxDoorbell y none
      else s.writeMbx (o / 8 * 8) y
    | none => match sp with | .priv => s.writePriv (off / 8 * 8) y | _ => s.writeDev path (off / 8 * 8) y

/-- A read of a register by the TAP (R372, R500): an absent block, or another size or alignment, returns zeros; a read of BAR4_SYNC drops
the host read buffer; a later read of CYCLE shows no less (R78). -/
def State.regRead (s : State) (path : RegPath) (sp : RegSpace) (off size : Nat) : List Byte × State :=
  if 0x4000000 ≤ off then (List.replicate size 0, s)
  else if !regForm off size then (List.replicate size 0, s.event procMP 3 1 [path.code, off, size, 0])
  else if !s.blockOn sp off then (List.replicate size 0, s)
  else
    let bs := s.regBytes sp off size
    let s := if sp ≠ .priv && 0x1000000 ≤ off && off / 8 % 0x2000 = 0x00a then
        (s.updCore (Fin.ofNat 256 (off / 0x10000 - 0x100)) fun c => { c with ctl := { c.ctl with cycle := aclkCount c.ctl.cycle s.free } }).drawn 1
      else s
    (bs, if sp ≠ .priv && off / 8 * 8 = 0x028 then { s with hif := { s.hif with buf := [] } } else s)

/-- Whether a writer reaches a space: the host over BAR0, firmware the device range, the MP its private space. -/
def State.regReach (s : State) (sp : RegSpace) : Bool :=
  match sp with
  | .bar0 => s.hostLink
  | .fw => s.busUp && s.fw.selected
  | .priv => s.busUp && s.procUp procMP

/-- REGISTER_WRITE (R372): A write to a device or control register with no behaviour of its own updates the field. -/
def execRegisterWrite (sp : RegSpace) (off : Nat) (size : Nat) (x : W64) (s : State) : Res :=
  onlyIf (s.regReach sp) s fun s => .next (s.regWrite (if sp = .bar0 then .host else .firmware) sp off size x)

end Sys2Proof.Machine
end

