-- ==== Sys2Proof/Machine/Scalar.lean ====
section
/-! DEFINITION. The scalar slot and the fetch (R43 to R49, R78): a command issues, at the PC of a core, a bundle whose other slots are
no-ops; BUNDLE_FETCH takes the bundle of the instruction memory. -/

namespace Sys2Proof.Machine

/-- BUNDLE_FETCH (R45): The sequencer fetches the bundle at the PC and issues its four slots together, or stalls the
whole bundle. DEDUCED, unsafe (log 5). DEDUCED, safe (log 23). -/
def execBundleFetch (c : CoreId) (s : State) : Res := s.fetch c

/-- SLOT_NOP (R43): Opcode 0x00 in any slot completes with no effect. -/
def execSlotNop (c : CoreId) (g : Guard) (s : State) : Res := s.issueS c g .nop

/-- S_ADD (R48): rd receives rs1 plus rs2. -/
def execSAdd (c : CoreId) (g : Guard) (rd : SReg) (rs1 : SReg) (rs2 : SReg) (s : State) : Res :=
  s.issueS c g (.alu .add rd rs1 rs2)

/-- S_SUB (R48): rd receives rs1 minus rs2. -/
def execSSub (c : CoreId) (g : Guard) (rd : SReg) (rs1 : SReg) (rs2 : SReg) (s : State) : Res :=
  s.issueS c g (.alu .sub rd rs1 rs2)

/-- S_AND (R48): rd receives rs1 AND rs2. -/
def execSAnd (c : CoreId) (g : Guard) (rd : SReg) (rs1 : SReg) (rs2 : SReg) (s : State) : Res :=
  s.issueS c g (.alu .and rd rs1 rs2)

/-- S_OR (R48): rd receives rs1 OR rs2. -/
def execSOr (c : CoreId) (g : Guard) (rd : SReg) (rs1 : SReg) (rs2 : SReg) (s : State) : Res :=
  s.issueS c g (.alu .or rd rs1 rs2)

/-- S_XOR (R48): rd receives rs1 XOR rs2. -/
def execSXor (c : CoreId) (g : Guard) (rd : SReg) (rs1 : SReg) (rs2 : SReg) (s : State) : Res :=
  s.issueS c g (.alu .xor rd rs1 rs2)

/-- S_SHL (R48): rd receives rs1 shifted left by rs2[5:0]. -/
def execSShl (c : CoreId) (g : Guard) (rd : SReg) (rs1 : SReg) (rs2 : SReg) (s : State) : Res :=
  s.issueS c g (.alu .shl rd rs1 rs2)

/-- S_SHR (R48): rd receives rs1 shifted right logically by rs2[5:0]. -/
def execSShr (c : CoreId) (g : Guard) (rd : SReg) (rs1 : SReg) (rs2 : SReg) (s : State) : Res :=
  s.issueS c g (.alu .shr rd rs1 rs2)

/-- S_SRA (R48): rd receives rs1 shifted right arithmetically by rs2[5:0]. -/
def execSSra (c : CoreId) (g : Guard) (rd : SReg) (rs1 : SReg) (rs2 : SReg) (s : State) : Res :=
  s.issueS c g (.alu .sra rd rs1 rs2)

/-- S_MUL (R48): rd receives the low 64 bits of rs1 times rs2. -/
def execSMul (c : CoreId) (g : Guard) (rd : SReg) (rs1 : SReg) (rs2 : SReg) (s : State) : Res :=
  s.issueS c g (.alu .mul rd rs1 rs2)

/-- S_MIN (R48): rd receives the signed minimum of rs1 and rs2. -/
def execSMin (c : CoreId) (g : Guard) (rd : SReg) (rs1 : SReg) (rs2 : SReg) (s : State) : Res :=
  s.issueS c g (.alu .min rd rs1 rs2)

/-- S_MAX (R48): rd receives the signed maximum of rs1 and rs2. -/
def execSMax (c : CoreId) (g : Guard) (rd : SReg) (rs1 : SReg) (rs2 : SReg) (s : State) : Res :=
  s.issueS c g (.alu .max rd rs1 rs2)

/-- S_ADDI (R48): rd receives rs1 plus the signed IMM12. -/
def execSAddi (c : CoreId) (g : Guard) (rd : SReg) (rs1 : SReg) (imm : BitVec 12) (s : State) : Res :=
  s.issueS c g (.addi rd rs1 imm)

/-- S_LI (R48): rd receives the sign-extended IMM17. -/
def execSLi (c : CoreId) (g : Guard) (rd : SReg) (imm : BitVec 17) (s : State) : Res := s.issueS c g (.li rd imm)

/-- S_SLI (R48): rd receives rd shifted left 16 ORed with IMM16. -/
def execSSli (c : CoreId) (g : Guard) (rd : SReg) (imm : BitVec 16) (s : State) : Res := s.issueS c g (.sli rd imm)

/-- S_CMP (R48): A predicate receives the comparison of rs1 and rs2 selected by FN. -/
def execSCmp (c : CoreId) (g : Guard) (pd : PReg) (rs1 : SReg) (rs2 : SReg) (fn : BitVec 7) (s : State) : Res :=
  s.issueS c g (.cmp pd rs1 rs2 fn)

/-- S_CMPI (R48): A predicate receives the comparison of rs1 against IMM12 selected by FN. -/
def execSCmpi (c : CoreId) (g : Guard) (pd : PReg) (rs1 : Fin 16) (imm : BitVec 12) (fn : BitVec 3) (s : State) : Res :=
  s.issueS c g (.cmpi pd rs1 imm fn)

/-- S_POP (R48): A predicate receives a logical combination of two predicates. -/
def execSPop (c : CoreId) (g : Guard) (pd : PReg) (pa : PReg) (pb : PReg) (fn : BitVec 4) (s : State) : Res :=
  s.issueS c g (.pop pd pa pb fn)

/-- S_LD (R48): rd receives 64 bits from the core store. -/
def execSLd (c : CoreId) (g : Guard) (rd : SReg) (rs1 : SReg) (imm : BitVec 12) (s : State) : Res :=
  s.issueS c g (.ld rd rs1 imm)

/-- S_ST (R48): 64 bits of a register are stored to the core store. -/
def execSSt (c : CoreId) (g : Guard) (rd : SReg) (rs1 : SReg) (imm : BitVec 12) (s : State) : Res :=
  s.issueS c g (.st rd rs1 imm)

/-- S_FADD (R48): FP32 addition of two register low words into rd. -/
def execSFadd (c : CoreId) (g : Guard) (rd : SReg) (rs1 : SReg) (rs2 : SReg) (s : State) : Res :=
  s.issueS c g (.fp .fadd rd rs1 rs2)

/-- S_FMUL (R48): FP32 multiplication of two register low words into rd. -/
def execSFmul (c : CoreId) (g : Guard) (rd : SReg) (rs1 : SReg) (rs2 : SReg) (s : State) : Res :=
  s.issueS c g (.fp .fmul rd rs1 rs2)

/-- S_FMA (R48): FP32 fused multiply-add into rd. -/
def execSFma (c : CoreId) (g : Guard) (rd : SReg) (rs1 : SReg) (rs2 : SReg) (s : State) : Res :=
  s.issueS c g (.fp .fma rd rs1 rs2)

/-- S_FCVT (R48): Conversion between signed 64-bit integer and FP32 selected by FN. -/
def execSFcvt (c : CoreId) (g : Guard) (rd : SReg) (rs1 : SReg) (fn : BitVec 7) (s : State) : Res :=
  s.issueS c g (.fcvt rd rs1 fn)

/-- S_CSRR (R78): rd receives a core control register. -/
def execSCsrr (c : CoreId) (g : Guard) (rd : SReg) (n : BitVec 12) (s : State) : Res := s.issueS c g (.csrr rd n)

/-- S_CSRW (R78): A core control register is written from rs1. -/
def execSCsrw (c : CoreId) (g : Guard) (n : BitVec 12) (rs1 : SReg) (s : State) : Res := s.issueS c g (.csrw n rs1)

/-- S_JMP (R48): The PC moves by a signed bundle offset. -/
def execSJmp (c : CoreId) (g : Guard) (off : BitVec 22) (s : State) : Res := s.issueS c g (.jmp off)

/-- S_CALL (R48): s31 receives the return address and the PC moves by an offset. -/
def execSCall (c : CoreId) (g : Guard) (off : BitVec 22) (s : State) : Res := s.issueS c g (.call off)

/-- S_RET (R48): The PC is set from s31. -/
def execSRet (c : CoreId) (g : Guard) (s : State) : Res := s.issueS c g (.ret)

/-- S_LOOP (R49): A loop entry is pushed to run the next END bundles rs1 times. -/
def execSLoop (c : CoreId) (g : Guard) (rs1 : SReg) (body : BitVec 12) (s : State) : Res := s.issueS c g (.loop rs1 body)

/-- S_HALT (R227): The work item begins to end: the combiner flushes every remaining entry and halt waits for
asynchronous operations. -/
def execSHalt (c : CoreId) (g : Guard) (s : State) : Res := s.issueS c g (.halt)

end Sys2Proof.Machine
end

