-- ==== Sys2Proof/Machine/StepProgram.lean ====
section
/-! DEFINITION. Commands of the step program (R328, R417, R420). -/

namespace Sys2Proof.Machine

/-- START_BARRIER_DONE (R417): Every member has loaded and the job becomes RUNNING. -/
def execStartBarrierDone (s : State) : Res :=
  onlyIf (s.job.inBarrier && (s.job.state = 1 || s.job.state = 3)) s fun s =>
    let op := if s.job.state = 1 then 0x0010 else 0x0012
    let s := ({ s with job := { s.job with inBarrier := false, attempts := 0 } }).setJob 2
    .next ((s.endOpOf op mbOk).serveBoundary)

/-- STEP_START (R420): The leader claims batches and starts a step, raising STEP, invalidating replicas and splitting
micro-batches. DEDUCED, unsafe (log 87). -/
def execStepStart (s : State) : Res :=
  onlyIf (s.job.state = 2 && !s.job.inBarrier && s.job.phase = 0 && !s.ras.recovering && s.ras.restoring.isNone && s.job.reshard.isNone &&
      !s.boundaryBusy && !s.interrupted && s.leader.isSome && s.vcoreOn && s.pwr.protect.isNone && !s.job.stopDispatch) s fun s =>
    let (ready, s) := s.claimAll
    if !ready then .next s
    else
      let s := s.applyConfigs.healFirmware
      let s := if s.job.retry then s else s.setMicros
      .next { s with job := { s.job with phase := 1, failed := false } }

/-- BACKWARD_CLOSE_BARRIER (R328): The backward-close barrier completes and the step fails or enters its update phase. DEDUCED, unsafe (log 87). -/
def execBackwardCloseBarrier (govf : Bool) (fail : Bool) (s : State) : Res :=
  onlyIf (s.job.state = 2 && 1 ≤ s.job.phase && s.job.phase ≤ 3 && s.leader.isSome &&
      (s.job.failed || fail || (List.finRange 256).all fun c => !s.cores[c].ctl.run)) s fun s =>
    let g := govf || s.job.govf
    if s.job.failed || fail then .next (s.failNow g true)
    else
      let step := s.job.step.toNat
      let s := s.dropAllReplicas.sealBanks step
      let us := byTable (s.job.upds.filter fun e => e.src = 0)
      let s : State := { s with job := { s.job with phase := 4, ready := s.job.ready ++ us } }
      .next s.commitStep.payState

/-- STEP_END_BARRIER (R328): The step-end barrier completes, updating scale, telemetry, dirty bitmaps and serving
boundary requests. DEDUCED, unsafe (log 87). -/
def execStepEndBarrier (govf : Bool) (ftz : Nat) (total : Nat) (s : State) : Res :=
  onlyIf (s.job.state = 2 && s.job.phase = 5 && !s.ras.inflight && !s.ras.stateDue && s.leader.isSome) s fun s =>
    let (f, t) := s.backSums
    .next (s.endStep (govf || s.job.govf) (ftz + f) (total + t))

end Sys2Proof.Machine
end

