-- ==== Sys2Proof/Machine/Sync.lean ====
section
/-! DEFINITION. Semaphores, remote posts and segments (R60 to R71, R104). -/

namespace Sys2Proof.Machine

/-- Whether an operation of a core still writes into the store of VCID `v` (R64). -/
def State.writesVcid (s : State) (c : CoreId) (v : Nat) (o : Op) : Bool :=
  let own := s.cores[c].ctl.vcid.toNat = v && !o.writes.isEmpty
  match o.body with
  | .xfer raw _ _ _ _ =>
    let d := XDesc.mk raw
    own || (d.dspace = 2 && d.dstExt = s.fab.faddr.toNat && bits d.dst 39 24 = v)
  | .dispatch raw =>
    let d := RDesc.mk raw
    own || ((d.writes s.cores[c].store).any fun w => w.1.faddr = s.fab.faddr.toNat && w.1.vcid = v)
  | .coll id =>
    own || s.coll.colls.any fun k => k.id = id && (CDesc.mk k.desc).dvcid && bits (CDesc.mk k.desc).dst 39 24 = v
  | _ => own

/-- Whether a remote post may arrive: earlier writes into the target's store and earlier posts to it are done (R64). DEDUCED, safe (log 24). -/
def State.postrReady (s : State) (c : CoreId) (op v : Nat) : Bool :=
  !(s.cores[c].ops.any fun o => o.id < op && (s.writesVcid c v o || match o.body with | .postr w _ _ => w = v | _ => false)) &&
  !(s.cores[c].ctl.vcid.toNat = v && s.cores[c].vec.chains.any fun ch => ch.seq < op)

/-- Y_WAIT (R62): Issues once a semaphore reaches N and subtracts N. -/
def execYWait (c : CoreId) (g : Guard) (sem : SemId) (n : BitVec 8) (s : State) : Res := s.issueD c g (.wait sem n)

/-- Y_POST (R62): Adds N to a semaphore. -/
def execYPost (c : CoreId) (g : Guard) (sem : SemId) (n : BitVec 8) (s : State) : Res := s.issueD c g (.post sem n)

/-- Y_POSTR (R64): Sends a remote post to a mailbox semaphore of another virtual core. -/
def execYPostr (c : CoreId) (g : Guard) (rv : SReg) (msem : Fin 16) (n : BitVec 8) (s : State) : Res :=
  s.issueD c g (.postr rv msem n)

/-- Y_SEG (R67): Opens a replayable segment, snapshotting state and recording the rewind point. -/
def execYSeg (c : CoreId) (g : Guard) (rs : SReg) (s : State) : Res := s.issueD c g (.seg rs)

/-- Y_COMMIT (R70): After the segment's operations complete, commits, rewinds or faults SEG_LIMIT. -/
def execYCommit (c : CoreId) (g : Guard) (s : State) : Res := s.issueD c g .commit

/-- REMOTE_POST_DELIVER (R64): A remote post arrives at its target after the sender's earlier writes are visible. -/
def execRemotePostDeliver (c : CoreId) (op : Nat) (s : State) : Res :=
  onlyIf (s.storeOn c) s fun s => s.onOp c op fun o =>
    match o.body with
    | .postr v sem n => if s.postrReady c op v then .next (((s.updCore c fun x => x.dropOp op).postVcid v sem n).2) else .next s
    | _ => .next s

/-- REWIND_ACC_CLEAR (R104): At a rewind, both banks are cleared once every pass issued before y.seg has completed. DEDUCED, safe (log 23). -/
def execRewindAccClear (c : CoreId) (s : State) : Res :=
  onlyIf (s.coreOn c && s.cores[c].seg.accClear && s.cores[c].accClearReady) s fun s =>
    .next (s.updCore c fun x => { x with regs := { x.regs with acc := [] }, seg := { x.seg with accClear := false } })

/-- CORE_STALL (R65): A y.wait stalled beyond SEM_STALL_LIMIT raises a logged core-stall event. -/
def execCoreStall (c : CoreId) (sem : SemId) (s : State) : Res :=
  onlyIf (s.coreOn c && s.cores[c].ctl.run && s.cores[c].ctl.waiting) s fun s =>
    let x := s.cores[c]
    .next ((s.event (qpProc (s.dispatchQp (vatOf c))) 13 2
      [x.ctl.vcid.toNat, sem.val, x.regs.pc, (Config.fresh s.free).toNat]).drawn 1)

end Sys2Proof.Machine
end

