-- ==== Sys2Proof/Machine/Tap.lean ====
section
/-! DEFINITION. The Hub's TAP: instruction classes, boundary scan, register and memory access, halting, test modes, the boot flash (R19,
R365, R372, R497 to R500). -/

namespace Sys2Proof.Machine

/-- Instruction register codes; BYPASS is 0. DESIGN CHOICE, unsafe (log 67). -/
def irIdcode : Nat := 1
def irSample : Nat := 2
def irExtest : Nat := 3
def irRegRead : Nat := 4
def irMemRead : Nat := 5
def irTraceRead : Nat := 6
def irHalt : Nat := 7
def irResume : Nat := 8
def irStep : Nat := 9
def irRegWrite : Nat := 10
def irMemWrite : Nat := 11
def irWrapper : Nat := 12
def irTestMode : Nat := 13
def irFlash : Nat := 14

/-- An instruction selected with nothing to scan yet. -/
def State.tapSelect (s : State) (ir : Nat) : State := { s with tap := { s.tap with ir := ir, out := [], driving := false } }

/-- What a scan returns. -/
def State.tapOut (s : State) (bs : List Byte) : State := ({ s with tap := { s.tap with out := bs } }).answer bs

/-- An instruction under the matrix (R497, R500): one whose class is not permitted selects BYPASS and is counted; nothing answers in
P5. -/
def State.tapTake (s : State) (ir : Nat) (allowed : Bool) (f : State → Res) : Res :=
  if 4 < s.pwr.pstate then .next s
  else if allowed then f (s.tapSelect ir)
  else .next { s.tapSelect 0 with sec := { s.sec with tapDeny := s.sec.tapDeny + 1 } }

/-- Whether the OBSERVE and the FULL class are permitted (R500). -/
def State.mayObserve (s : State) : Bool := decide (1 ≤ s.sec.level)
def State.mayFull (s : State) : Bool := decide (s.sec.level = 2)

/-- Status of a TAP access to a local address (R162, R163, R497); none when the block is not powered (R500). -/
def State.tapStatus (s : State) (a : Nat) : Option Nat :=
  let full := s.mayFull
  match s.place a with
  | .unmapped => some stUnmapped
  | .hbm k _ => if !full && k = 0 then some stUnmapped else if s.running then some stOk else none
  | .store _ _ => if !full then some stUnmapped else if s.vcoreOn then some stOk else none
  | .dev _ => some stOk
  | .cave k => if !full then some stUnmapped else if !s.running then none else some (if s.cave.ports[k].state = 2 then stOk else stCaveDown)
  | _ => if !full then some stUnmapped else if s.running then some stOk else none

/-- Register accesses of a span [lo, hi) of the device range (R372): 8 bytes each, 4 bytes at an end aligned to 4 and not to 8. -/
def devAccesses (lo hi : Nat) : List (Nat × Nat) :=
  let a := roundUp lo 4
  let b := hi / 4 * 4
  if b ≤ a then []
  else
    let a8 := roundUp a 8
    let b8 := b / 8 * 8
    (if a < a8 then [(a, 4)] else []) ++ ((List.range ((b8 - a8) / 8)).map fun i => (a8 + 8 * i, 8)) ++ (if b8 < b && a8 ≤ b8 then [(b8, 4)] else [])

/-- The first address of a span that fails, with its status, for one record (R164). -/
def State.tapFailure (s : State) (a n : Nat) : Option (Nat × Nat) :=
  ((linesOf a n).map fun l => (max a (128 * l), s.tapStatus (max a (128 * l)))).findSome? fun x =>
    match x.2 with | some c => if c = stOk then none else some (x.1, c) | none => none

/-- The record of a failing access. -/
def State.tapRecord (s : State) (a n : Nat) : State :=
  match s.tapFailure a n with
  | some (b, c) => s.accessRecord whoTap c b
  | none => s

/-- The part [lo, hi) of a span that lies in the device range. -/
def devSpan (a n : Nat) : Nat × Nat := (max a devBase - devBase, min (a + n) (devBase + 0x4000000) - devBase)

/-- MEM_READ: device registers through their accesses, every other byte from memory where the TAP reaches it, else zeros. DESIGN CHOICE, unsafe (log 67). -/
def State.tapRead (s : State) (a n : Nat) : List Byte × State :=
  let (lo, hi) := devSpan a n
  let regs := if devBase < a + n && a < devBase + 0x4000000 then devAccesses lo hi else []
  let (cells, t) := regs.foldl (fun (x : Cells 8 × State) r =>
    let (bs, t) := x.2.regRead .tap .bar0 r.1 r.2
    (Cells.write x.1 (devBase + r.1) bs, t)) ([], s)
  let byte := fun (b : Nat) =>
    match s.place b, s.tapStatus b with
    | .dev _, _ => Cells.get cells b
    | _, some c => if c = stOk then (s.readBytes b 1).headD 0 else 0
    | _, none => 0
  ((List.range n).map fun i => byte (a + i),
    (linesOf a n).foldl (fun t l => if s.tapStatus (max a (128 * l)) = some stOk then t.touchLines (128 * l) 1 else t) (t.tapRecord a n))

/-- MEM_WRITE of what a line holds outside the device range, with the undefined cases of R488. -/
def State.tapWriteLine (s : State) (a : Nat) (bs : List Byte) : State :=
  if s.tapStatus a ≠ some stOk then s
  else match s.place a with | .dev _ => s | _ => s.writeOpen .remote a bs

/-- The lines of a MEM_WRITE in order. -/
def State.tapWriteLines (s : State) (a : Nat) (bs : List Byte) (ls : List Nat) : State :=
  ls.foldl (fun s l =>
    let lo := max a (128 * l)
    let hi := min (a + bs.length) (128 * l + 128)
    s.tapWriteLine lo ((bs.drop (lo - a)).take (hi - lo))) s

/-- The register accesses of a MEM_WRITE in order. -/
def State.tapWriteRegs (s : State) (a : Nat) (bs : List Byte) (rs : List (Nat × Nat)) : State :=
  rs.foldl (fun s r => s.regWrite .tap .bar0 r.1 r.2 (BitVec.ofNat 64 (leNat ((bs.drop (devBase + r.1 - a)).take r.2)))) s

/-- MEM_WRITE (R372, R497). DESIGN CHOICE, unsafe (log 67). -/
def State.tapWrite (s : State) (a : Nat) (bs : List Byte) : State :=
  let n := bs.length
  let (lo, hi) := devSpan a n
  let regs := if devBase < a + n && a < devBase + 0x4000000 then devAccesses lo hi else []
  ((s.tapWriteLines a bs (linesOf a n)).tapRecord a n).tapWriteRegs a bs regs

/-- TRACE_READ: the newest entries of the log ring in POS order; zeros without HBM (R411, R497, R500). DESIGN CHOICE, unsafe (log 67). -/
def State.traceBytes (s : State) (count : Nat) : List Byte :=
  if !s.running || !s.log.ringUp then List.replicate (64 * count) 0
  else
    let n := min count s.log.head
    ((List.range n).map fun i => s.mem.read (s.log.addr (s.log.head - n + i)) 64).flatten

/-- Whether the TAP reaches a processor: any that runs but the SP (R497). DESIGN CHOICE, safe (log 59). -/
def State.tapProc (s : State) (p : ProcId) : Bool := p ≠ procSP && s.procOn p

/-- HALT (R497). DESIGN CHOICE, unsafe (log 67). -/
def State.haltTarget (s : State) (t : TapTarget) : State :=
  match t with
  | .proc p => if s.tapProc p then s.updProc p fun x => { x with halted := true } else s
  | .core c => if s.vcoreOn then s.updCore c fun x => { x with ctl := { x.ctl with tapHalt := true } } else s

/-- RESUME (R497): a processor serves again what was held for it (R401). -/
def State.resumeTarget (s : State) (t : TapTarget) : Res :=
  match t with
  | .proc p =>
    if s.tapProc p && s.fw.procs[p].halted then .next ((s.updProc p fun x => { x with halted := false }).servedAgain p) else .next s
  | .core c => .next (s.updCore c fun x => { x with ctl := { x.ctl with tapHalt := false } })

/-- STEP (R497): one bundle of a halted core; firmware code is not part of the state. DESIGN CHOICE, safe (log 59). -/
def State.stepTarget (s : State) (t : TapTarget) : Res :=
  match t with
  | .proc _ => .next s
  | .core c =>
    if !s.cores[c].ctl.tapHalt then .next s
    else
      match (s.updCore c fun x => { x with ctl := { x.ctl with tapHalt := false } }).fetch c with
      | .next t => .next (t.updCore c fun x => { x with ctl := { x.ctl with tapHalt := true } })
      | r => r

/-- Whether a die is powered (R426): 0 to 3 VAT, 4 to 7 CEL, 8 HUB, 9 and 10 ACC. -/
def State.dieOn (s : State) (die : Nat) : Bool :=
  if die < 4 then s.vcoreOn
  else if die < 8 then decide (s.pwr.pstate ≤ 3)
  else if die = 8 then true
  else decide (die ≤ 10) && s.running && s.dl.accPower[Fin.ofNat 2 (die - 9)]

/-- IDCODE (R368, R497): bit 0 is 1, manufacturer, part number, revision digit. DESIGN CHOICE, safe (log 94). -/
def State.idcode (s : State) : Nat :=
  1 + 2 * Config.jedecId.toNat + 2 ^ 12 * (if s.fuses.lx then 0x0401 else 0x0400) + 2 ^ 28 * (s.fuses.revDigit % 16)

/-- Whether FLASH is accepted (R499): FULL in MANUFACTURE and RETURN. -/
def State.mayFlash (s : State) : Bool := s.mayFull && (s.fuses.lifecycle = 0 || s.fuses.lifecycle = 3)

/-- A range of the boot flash cut to its 128 MiB (R402). -/
def flashLen (off n : Nat) : Nat := min n (0x8000000 - off)

/-- BYPASS (R497): TAP instruction selecting the bypass register. -/
def execTapBypass (s : State) : Res :=
  s.tapTake 0 true fun s => .next s

/-- IDCODE (R497): TAP instruction returning the identification code. -/
def execTapIdcode (s : State) : Res :=
  s.tapTake irIdcode true fun s => .next (s.tapOut (toLe 4 s.idcode))

/-- SAMPLE_PRELOAD (R497): TAP instruction sampling or preloading boundary scan. -/
def execTapSamplePreload (pins : List Bool) (load : Option (List Bool)) (s : State) : Res :=
  s.tapTake irSample true fun s => .next { s with tap := { s.tap with pins := pins, drive := load.getD s.tap.drive } }

/-- EXTEST (R497): TAP instruction driving boundary scan, accepted only in P4. -/
def execTapExtest (s : State) : Res :=
  s.tapTake irExtest (s.pwr.pstate = 4) fun s => .next { s with tap := { s.tap with driving := true } }

/-- REG_READ (R497): TAP instruction reading device registers. -/
def execTapRegRead (sp : RegSpace) (off : Nat) (size : Nat) (s : State) : Res :=
  s.tapTake irRegRead s.mayObserve fun s => let (bs, s) := s.regRead .tap sp off size; .next (s.tapOut bs)

/-- MEM_READ (R497): TAP instruction reading memory. -/
def execTapMemRead (addr : Nat) (len : Nat) (s : State) : Res :=
  s.tapTake irMemRead s.mayObserve fun s => let (bs, s) := s.tapRead addr len; .next (s.tapOut bs)

/-- TRACE_READ (R497): TAP instruction reading trace data. -/
def execTapTraceRead (count : Nat) (s : State) : Res :=
  s.tapTake irTraceRead s.mayObserve fun s => .next (s.tapOut (s.traceBytes count))

/-- HALT (R497): TAP instruction halting a processor or core. -/
def execTapHalt (t : TapTarget) (s : State) : Res :=
  s.tapTake irHalt s.mayFull fun s => .next (s.haltTarget t)

/-- RESUME (R497): TAP instruction resuming a halted processor or core. -/
def execTapResume (t : TapTarget) (s : State) : Res :=
  s.tapTake irResume s.mayFull fun s => s.resumeTarget t

/-- STEP (R497): TAP instruction single-stepping a halted processor or core. -/
def execTapStep (t : TapTarget) (s : State) : Res :=
  s.tapTake irStep s.mayFull fun s => s.stepTarget t

/-- REG_WRITE (R497): TAP instruction writing device registers. -/
def execTapRegWrite (sp : RegSpace) (off : Nat) (size : Nat) (x : W64) (s : State) : Res :=
  s.tapTake irRegWrite s.mayFull fun s => .next (s.regWrite .tap sp off size x)

/-- MEM_WRITE (R497): TAP instruction writing memory. -/
def execTapMemWrite (addr : Nat) (data : List Byte) (s : State) : Res :=
  s.tapTake irMemWrite s.mayFull fun s => .next (s.tapWrite addr data)

/-- IEEE_1500_ACCESS (R365): TAP access to a die's IEEE 1500 wrappers over the sideband. -/
def execTapIeee1500 (die : Nat) (s : State) : Res :=
  s.tapTake irWrapper (s.mayFull && s.fuses.lifecycle ≠ 2) fun s =>
    .next ((s.drawn 1).tapOut (if s.dieOn die then toLe 8 (Config.fresh s.free).toNat else List.replicate 8 0))

/-- STAND_ALONE_TEST_MODE (R365): TAP instruction placing a die in stand-alone test mode. -/
def execTapStandAlone (die : Nat) (s : State) : Res :=
  s.tapTake irTestMode (s.mayFull && s.fuses.lifecycle ≠ 2) fun s =>
    .next (if s.dieOn die && !s.tap.testMode.contains die then { s with tap := { s.tap with testMode := s.tap.testMode ++ [die] } } else s)

/-- FLASH (R499): TAP instruction reading or writing the boot flash. -/
def execTapFlash (off : Nat) (len : Nat) (data : Option (List Byte)) (s : State) : Res :=
  s.tapTake irFlash s.mayFlash fun s =>
    match data with
    | none => .next (s.tapOut (s.fw.flashRead off (flashLen off len)))
    | some bs => .next { s with fw := s.fw.flashWrite off (bs.take (flashLen off bs.length)) }

end Sys2Proof.Machine
end

