-- ==== Sys2Proof/Machine/Update.lean ====
section
/-! DEFINITION. Commands of the update units (R255 to R270). -/

namespace Sys2Proof.Machine

/-- Whether the update unit of a Cellar may take up new work (R257). -/
def State.unitRuns (s : State) (n : CelId) : Bool := s.vcoreOn && !s.upd[n].stopReq && !s.upd[n].stopped

/-- WORKLIST_READY (R265): A sealed bank's key walk and sort finish and the embedding sweeps may start. -/
def execWorklistReady (n : CelId) (s : State) : Res :=
  let b := bankOf s.job.step.toNat
  let bk := s.press[n].banks[b]
  onlyIf (s.vcoreOn && s.job.phase = 4 && bk.isSealed && !s.upd[n].workReady) s fun s =>
    let ks := s.sortedKeys n s.job.step.toNat
    .next { s with mem := s.mem.write s.upd[n].workBase ((ks.map workBytes).flatten),
                   upd := s.upd.set n { s.upd[n] with workReady := true, work := ks.length } }

/-- UPDATE_TENSOR_START (R260): An update unit takes the next ready tensor and writes its journal record. -/
def execUpdateTensorStart (n : CelId) (s : State) : Res :=
  onlyIf (s.unitRuns n && s.job.state = 2 && 1 ≤ s.job.phase && s.upd[n].run.isNone && s.procUp (qpProc (s.servingQp n.val))) s fun s =>
    match s.nextTensor n with
    | none => .next s
    | some e =>
      let step := s.job.step.toNat
      let fresh := !(s.updating e.table && s.journalStep e.table = step % 2 ^ 32)
      let s := if fresh then s.openJournal e step s.job.scale.exp else s
      let run : UpdRun := { entry := e, step := step, scale := s.header (s.journalAt e.table) 8 1, groups := s.runGroups n e step, done1 := 0, done2 := 0,
                            w2 := 0, r2 := 0, recovery := false }
      let s := { s with upd := s.upd.set n { s.upd[n] with run := some run } }
      if !run.groups.isEmpty then .next s
      else if s.wideTrust e.table then .next (s.formNorms e.table)
      else .next (s.finishTensor n e.table).payState

/-- UPD_SWEEP1 (R255): A group's new optimizer state is written and MTAG raised. -/
def execUpdSweep1 (n : CelId) (s : State) : Res :=
  match s.upd[n].run with
  | none => .next s
  | some r =>
    let wide := s.wideTrust r.entry.table
    onlyIf (s.unitRuns n && (wide || r.done1 = r.done2)) s fun s =>
      match r.groups[r.done1]? with
      | none => .next s
      | some g =>
        let c := s.updCtx n r
        let (s, ws, rs) := s.sweep1 c g
        let r := { r with done1 := r.done1 + 1,
                          w2 := if wide then fadd r.w2 (sumSq ws) else r.w2,
                          r2 := if wide then fadd r.r2 (sumSq rs) else r.r2 }
        let s := ({ s with upd := s.upd.set n { s.upd[n] with run := some r, busy := Config.fresh s.free } }).drawn 2
        .next (if wide then s.formNorms r.entry.table else s)

/-- UPD_SWEEP2 (R255): A group's masters and working rows are written and WTAG raised. -/
def execUpdSweep2 (n : CelId) (s : State) : Res :=
  match s.upd[n].run with
  | none => .next s
  | some r =>
    let t := r.entry.table
    onlyIf (s.unitRuns n && (!s.wideTrust t || s.journalState t = 2)) s fun s =>
      match r.groups[r.done2]? with
      | none => .next (if s.wideTrust t && r.groups.isEmpty then (s.finishTensor n t).payState else s)
      | some g =>
        if r.done1 ≤ r.done2 then .next s
        else
          let s := s.sweep2 (s.updCtx n r) g (s.widePhi t)
          let r := { r with done2 := r.done2 + 1 }
          let s := ({ s with upd := s.upd.set n { s.upd[n] with run := some r, busy := Config.fresh s.free } }).drawn 1
          .next (if r.done2 = r.groups.length then (s.finishTensor n t).payState else s)

/-- UPDATE_STOP (R257): A stop request ends sweeps in flight and reports STOPPED. -/
def execUpdateStop (n : CelId) (s : State) : Res :=
  onlyIf (s.upd[n].stopReq && !s.upd[n].stopped) s fun s =>
    .next { s with upd := s.upd.set n { s.upd[n] with stopped := true, stopReq := false } }

/-- Banks still sealed once no update is unfinished: their step's update has committed, and they are released (R241, R262, R267). -/
def State.releaseRecovered (s : State) : State :=
  if s.job.phase ≠ 0 || s.interrupted then s
  else (List.finRange 2).foldl (fun s b => if s.press.toList.any fun p => p.banks[b].isSealed && !p.banks[b].clearing then s.clearBank b else s) s

/-- JOURNAL_RECOVERY (R267): After a restart with HBM intact, interrupted updates are completed from their tags. -/
def execJournalRecovery (n : CelId) (s : State) : Res :=
  onlyIf (s.vcoreOn && s.jobLoaded && !s.upd[n].stopReq && s.upd[n].run.isNone) s fun s =>
    let ts := s.job.upds.map (·.table)
    .next ((ts.foldl (fun s t => s.recoverTensor n t) s).releaseRecovered).payState

/-- SCRUB_GROUP (R269): The drift scrub compares a group's working rows with their masters and rewrites mismatches. -/
def execScrubGroup (n : CelId) (s : State) : Res :=
  let u := s.upd[n]
  let ts := s.scrubTables
  onlyIf (s.unitRuns n && s.jobLoaded && bits u.cfg.toNat 15 0 ≠ 0 && !ts.isEmpty) s fun s =>
    let i := u.scrubTab % max 1 ts.length
    let t := (ts[i]?).getD 0
    let gs := s.scrubGroups n t
    let ahead : State := { s with upd := s.upd.set n { u with scrubTab := (i + 1) % max 1 ts.length, scrubGrp := 0, scrubHits := 0 } }
    if s.openTensor t then .next ahead
    else
      match gs[u.scrubGrp]? with
      | none => .next ahead
      | some g =>
        let (k, s) := s.scrubGroup n t g
        let x := s.upd[n]
        let hits := u.scrubHits + k
        if u.scrubGrp + 1 < gs.length then
          .next { s with upd := s.upd.set n { x with scrubGrp := u.scrubGrp + 1, scrubHits := hits } }
        else
          let s : State := { s with upd := s.upd.set n { x with scrubTab := (i + 1) % max 1 ts.length, scrubGrp := 0, scrubHits := 0 } }
          .next (if hits = 0 then s else s.event (qpProc (s.servingQp n.val)) 6 4 [t, hits])

end Sys2Proof.Machine
end

