-- ==== Sys2Proof/Machine/VectorOps.lean ====
section
/-! DEFINITION. The vector slot and the chains (R53, R110 to R129). -/

namespace Sys2Proof.Machine

/-- The fault of a chain that cannot start (R115, R127); a core that has already stopped keeps its first fault. DEDUCED, unsafe (log 20). -/
def State.chainFault (s : State) (c : CoreId) (pc : Nat) (x : Core) : State :=
  let s := s.setCore c x
  if x.ctl.fault || !x.ctl.run then s else s.coreFault c fIllegal pc

/-- V_CHAIN (R111): Queues a fused vector chain named by a descriptor. -/
def execVChain (c : CoreId) (g : Guard) (rs : SReg) (post : Option SemId) (s : State) : Res := s.issueV c g (.chain rs post)

/-- V_LD (R53): A vector register receives the next access of an address-generator stream. -/
def execVLd (c : CoreId) (g : Guard) (vd : VReg) (ag : AgId) (s : State) : Res := s.issueV c g (.ld vd ag)

/-- V_ST (R53): A vector register is written to the next access of a stream. -/
def execVSt (c : CoreId) (g : Guard) (vs : VReg) (ag : AgId) (s : State) : Res := s.issueV c g (.st vs ag)

/-- V_ACC (R53): A vector register receives half a row of an accumulator bank. -/
def execVAcc (c : CoreId) (g : Guard) (vd : VReg) (bank : Bool) (half : Bool) (r : Fin 32) (s : State) : Res :=
  s.issueV c g (.acc vd bank half r)

/-- V_RED (R124): Element 0 of a register receives a tree reduction of another register. -/
def execVRed (c : CoreId) (g : Guard) (vd : VReg) (va : VReg) (fn : BitVec 4) (s : State) : Res :=
  s.issueV c g (.red vd va fn)

/-- V_MVS (R53): A scalar register receives one element of a vector register. -/
def execVMvs (c : CoreId) (g : Guard) (sd : SReg) (va : VReg) (idx : Fin 64) (s : State) : Res :=
  s.issueV c g (.mvs sd va idx)

/-- V_SPL (R53): Every element of a vector register receives a scalar. -/
def execVSpl (c : CoreId) (g : Guard) (vd : VReg) (rs : SReg) (s : State) : Res := s.issueV c g (.spl vd rs)

/-- V_OP (R122): A single catalogue stage is applied to two vector registers. -/
def execVOp (c : CoreId) (g : Guard) (code : BitVec 9) (vd : VReg) (va : VReg) (vb : VReg) (s : State) : Res :=
  s.issueV c g (.op code vd va vb)

/-- CHAIN_START (R120): A queued chain starts once its sources, bank and predecessors permit, reading its descriptor
checks. -/
def execChainStart (c : CoreId) (s : State) : Res :=
  onlyIf (s.coreClocked c) s fun s =>
    match s.cores[c].chainStart (s.env c) with
    | .none => .next s
    | .illegal pc x => .next (s.chainFault c pc x)
    | .started x => .next ((s.setCore c x).drawn freeStep)

/-- CHAIN_COMPLETE (R121): A chain finishes its last write and reductions and applies its completion post. DESIGN CHOICE, safe (log 100). -/
def execChainComplete (c : CoreId) (s : State) : Res :=
  onlyIf (s.coreClocked c) s fun s =>
    match s.cores[c].endingChain s.free with
    | none => .next s
    | some ch =>
      match ch.out with
      | none => .next s
      | some o =>
        let o := if ch.spoilt then o.wild s.free else o
        let s := s.withCore c (((s.cores[c].writeAll s.free ch.seq o.stores)).chainFinish ch o)
        .next ((s.drawn freeStep).completionPost c ch.post)

end Sys2Proof.Machine
end

