-- ==== Sys2Proof/Machine/Dispatch.lean ====
section
/-! DEFINITION. The meaning of every command: one arm per constructor. -/

namespace Sys2Proof.Machine

/-- The effect of a command on everything but the queue. -/
def exec (i : Instr) (s : State) : Host.Outcome State Fault Refusal :=
  match i with
  | .bundleFetch c => Sys2Proof.Machine.execBundleFetch c s
  | .slotNop c g => Sys2Proof.Machine.execSlotNop c g s
  | .sAdd c g rd rs1 rs2 => Sys2Proof.Machine.execSAdd c g rd rs1 rs2 s
  | .sSub c g rd rs1 rs2 => Sys2Proof.Machine.execSSub c g rd rs1 rs2 s
  | .sAnd c g rd rs1 rs2 => Sys2Proof.Machine.execSAnd c g rd rs1 rs2 s
  | .sOr c g rd rs1 rs2 => Sys2Proof.Machine.execSOr c g rd rs1 rs2 s
  | .sXor c g rd rs1 rs2 => Sys2Proof.Machine.execSXor c g rd rs1 rs2 s
  | .sShl c g rd rs1 rs2 => Sys2Proof.Machine.execSShl c g rd rs1 rs2 s
  | .sShr c g rd rs1 rs2 => Sys2Proof.Machine.execSShr c g rd rs1 rs2 s
  | .sSra c g rd rs1 rs2 => Sys2Proof.Machine.execSSra c g rd rs1 rs2 s
  | .sMul c g rd rs1 rs2 => Sys2Proof.Machine.execSMul c g rd rs1 rs2 s
  | .sMin c g rd rs1 rs2 => Sys2Proof.Machine.execSMin c g rd rs1 rs2 s
  | .sMax c g rd rs1 rs2 => Sys2Proof.Machine.execSMax c g rd rs1 rs2 s
  | .sAddi c g rd rs1 imm => Sys2Proof.Machine.execSAddi c g rd rs1 imm s
  | .sLi c g rd imm => Sys2Proof.Machine.execSLi c g rd imm s
  | .sSli c g rd imm => Sys2Proof.Machine.execSSli c g rd imm s
  | .sCmp c g pd rs1 rs2 fn => Sys2Proof.Machine.execSCmp c g pd rs1 rs2 fn s
  | .sCmpi c g pd rs1 imm fn => Sys2Proof.Machine.execSCmpi c g pd rs1 imm fn s
  | .sPop c g pd pa pb fn => Sys2Proof.Machine.execSPop c g pd pa pb fn s
  | .sLd c g rd rs1 imm => Sys2Proof.Machine.execSLd c g rd rs1 imm s
  | .sSt c g rd rs1 imm => Sys2Proof.Machine.execSSt c g rd rs1 imm s
  | .sFadd c g rd rs1 rs2 => Sys2Proof.Machine.execSFadd c g rd rs1 rs2 s
  | .sFmul c g rd rs1 rs2 => Sys2Proof.Machine.execSFmul c g rd rs1 rs2 s
  | .sFma c g rd rs1 rs2 => Sys2Proof.Machine.execSFma c g rd rs1 rs2 s
  | .sFcvt c g rd rs1 fn => Sys2Proof.Machine.execSFcvt c g rd rs1 fn s
  | .sCsrr c g rd n => Sys2Proof.Machine.execSCsrr c g rd n s
  | .sCsrw c g n rs1 => Sys2Proof.Machine.execSCsrw c g n rs1 s
  | .sJmp c g off => Sys2Proof.Machine.execSJmp c g off s
  | .sCall c g off => Sys2Proof.Machine.execSCall c g off s
  | .sRet c g => Sys2Proof.Machine.execSRet c g s
  | .sLoop c g rs1 body => Sys2Proof.Machine.execSLoop c g rs1 body s
  | .sHalt c g => Sys2Proof.Machine.execSHalt c g s
  | .workItemEnd c => Sys2Proof.Machine.execWorkItemEnd c s
  | .workItemDispatch c w => Sys2Proof.Machine.execWorkItemDispatch c w s
  | .mCfg c g fmta fmtb sparse => Sys2Proof.Machine.execMCfg c g fmta fmtb sparse s
  | .mBload c g ag post kreg => Sys2Proof.Machine.execMBload c g ag post kreg s
  | .mPass c g ag bank keep post kreg => Sys2Proof.Machine.execMPass c g ag bank keep post kreg s
  | .passFrontEndStart c => Sys2Proof.Machine.execPassFrontEndStart c s
  | .arrayIssueSlot c => Sys2Proof.Machine.execArrayIssueSlot c s
  | .passComplete c => Sys2Proof.Machine.execPassComplete c s
  | .bloadStart c => Sys2Proof.Machine.execBloadStart c s
  | .bloadSlotWrite c => Sys2Proof.Machine.execBloadSlotWrite c s
  | .levelStep c quiet => Sys2Proof.Machine.execLevelStep c quiet s
  | .topupDecrement c => Sys2Proof.Machine.execTopupDecrement c s
  | .vChain c g rs post => Sys2Proof.Machine.execVChain c g rs post s
  | .vLd c g vd ag => Sys2Proof.Machine.execVLd c g vd ag s
  | .vSt c g vs ag => Sys2Proof.Machine.execVSt c g vs ag s
  | .vAcc c g vd bank half r => Sys2Proof.Machine.execVAcc c g vd bank half r s
  | .vRed c g vd va fn => Sys2Proof.Machine.execVRed c g vd va fn s
  | .vMvs c g sd va idx => Sys2Proof.Machine.execVMvs c g sd va idx s
  | .vSpl c g vd rs => Sys2Proof.Machine.execVSpl c g vd rs s
  | .vOp c g code vd va vb => Sys2Proof.Machine.execVOp c g code vd va vb s
  | .chainStart c => Sys2Proof.Machine.execChainStart c s
  | .chainComplete c => Sys2Proof.Machine.execChainComplete c s
  | .xferCopy c g rs post => Sys2Proof.Machine.execXferCopy c g rs post s
  | .xferFill c g rs post => Sys2Proof.Machine.execXferFill c g rs post s
  | .xferWback c g rs post => Sys2Proof.Machine.execXferWback c g rs post s
  | .xferWarm c g rs post => Sys2Proof.Machine.execXferWarm c g rs post s
  | .xferComplete c op => Sys2Proof.Machine.execXferComplete c op s
  | .dCopy c g rsrc rdst rlen post => Sys2Proof.Machine.execDCopy c g rsrc rdst rlen post s
  | .dCopyComplete c op => Sys2Proof.Machine.execDCopyComplete c op s
  | .dAgld c g ag rs => Sys2Proof.Machine.execDAgld c g ag rs s
  | .dImem c g rs post => Sys2Proof.Machine.execDImem c g rs post s
  | .imemLoadComplete c op => Sys2Proof.Machine.execImemLoadComplete c op s
  | .allreduce src => Sys2Proof.Machine.execAllreduce src s
  | .reduceScatter src => Sys2Proof.Machine.execReduceScatter src s
  | .allgather src => Sys2Proof.Machine.execAllgather src s
  | .alltoall src => Sys2Proof.Machine.execAlltoall src s
  | .alltoallv src => Sys2Proof.Machine.execAlltoallv src s
  | .permute src => Sys2Proof.Machine.execPermute src s
  | .multicast src => Sys2Proof.Machine.execMulticast src s
  | .barrier src => Sys2Proof.Machine.execBarrier src s
  | .sgather src => Sys2Proof.Machine.execSgather src s
  | .collComplete id => Sys2Proof.Machine.execCollComplete id s
  | .eGather c g rs post => Sys2Proof.Machine.execEGather c g rs post s
  | .gatherComplete c op => Sys2Proof.Machine.execGatherComplete c op s
  | .eDesc c g rs post => Sys2Proof.Machine.execEDesc c g rs post s
  | .eScatter c g rs post => Sys2Proof.Machine.execEScatter c g rs post s
  | .scatterComplete c op => Sys2Proof.Machine.execScatterComplete c op s
  | .eFlush c g rs post => Sys2Proof.Machine.execEFlush c g rs post s
  | .flushComplete c op => Sys2Proof.Machine.execFlushComplete c op s
  | .eDispatch c g rs post => Sys2Proof.Machine.execEDispatch c g rs post s
  | .dispatchComplete c op => Sys2Proof.Machine.execDispatchComplete c op s
  | .eCollect c g rs post => Sys2Proof.Machine.execECollect c g rs post s
  | .collectComplete c op => Sys2Proof.Machine.execCollectComplete c op s
  | .yWait c g sem n => Sys2Proof.Machine.execYWait c g sem n s
  | .yPost c g sem n => Sys2Proof.Machine.execYPost c g sem n s
  | .yPostr c g rv msem n => Sys2Proof.Machine.execYPostr c g rv msem n s
  | .remotePostDeliver c op => Sys2Proof.Machine.execRemotePostDeliver c op s
  | .ySeg c g rs => Sys2Proof.Machine.execYSeg c g rs s
  | .yCommit c g => Sys2Proof.Machine.execYCommit c g s
  | .rewindAccClear c => Sys2Proof.Machine.execRewindAccClear c s
  | .coreStall c sem => Sys2Proof.Machine.execCoreStall c sem s
  | .cmbCfgWrite c g rs1 => Sys2Proof.Machine.execCmbCfgWrite c g rs1 s
  | .registerWrite sp off size x => Sys2Proof.Machine.execRegisterWrite sp off size x s
  | .hbmWindowEnd n ratio pc => Sys2Proof.Machine.execHbmWindowEnd n ratio pc s
  | .hbmUncorr addr => Sys2Proof.Machine.execHbmUncorr addr s
  | .hbmCorrectedError pc past => Sys2Proof.Machine.execHbmCorrectedError pc past s
  | .storeEcc c word passes => Sys2Proof.Machine.execStoreEcc c word passes s
  | .csCorrectedError c past => Sys2Proof.Machine.execCsCorrectedError c past s
  | .coreHang c => Sys2Proof.Machine.execCoreHang c s
  | .gsub remote k => Sys2Proof.Machine.execGsub remote k s
  | .gpart remote k => Sys2Proof.Machine.execGpart remote k s
  | .flush remote k => Sys2Proof.Machine.execFlush remote k s
  | .flushAck remote k => Sys2Proof.Machine.execFlushAck remote k s
  | .bankClearDone n bank => Sys2Proof.Machine.execBankClearDone n bank s
  | .worklistReady n => Sys2Proof.Machine.execWorklistReady n s
  | .updateTensorStart n => Sys2Proof.Machine.execUpdateTensorStart n s
  | .updSweep1 n => Sys2Proof.Machine.execUpdSweep1 n s
  | .updSweep2 n => Sys2Proof.Machine.execUpdSweep2 n s
  | .updateStop n => Sys2Proof.Machine.execUpdateStop n s
  | .journalRecovery n => Sys2Proof.Machine.execJournalRecovery n s
  | .scrubGroup n => Sys2Proof.Machine.execScrubGroup n s
  | .collJoin k => Sys2Proof.Machine.execCollJoin k s
  | .collData k => Sys2Proof.Machine.execCollData k s
  | .collAck k => Sys2Proof.Machine.execCollAck k s
  | .collShardRequest remote k => Sys2Proof.Machine.execCollShardRequest remote k s
  | .collShardReply remote k => Sys2Proof.Machine.execCollShardReply remote k s
  | .leaseDeadline n table step => Sys2Proof.Machine.execLeaseDeadline n table step s
  | .collJoinTimeout id => Sys2Proof.Machine.execCollJoinTimeout id s
  | .streamStall n room => Sys2Proof.Machine.execStreamStall n room s
  | .backwardCloseBarrier govf fail => Sys2Proof.Machine.execBackwardCloseBarrier govf fail s
  | .stepEndBarrier govf ftz total => Sys2Proof.Machine.execStepEndBarrier govf ftz total s
  | .mapSwitchRequest map => Sys2Proof.Machine.execMapSwitchRequest map s
  | .mapswVote k => Sys2Proof.Machine.execMapswVote k s
  | .mapswRelease k => Sys2Proof.Machine.execMapswRelease k s
  | .fabMapLoad x => Sys2Proof.Machine.execFabMapLoad x s
  | .frameRx p f => Sys2Proof.Machine.execFrameRx p f s
  | .laneSignalFail p lane => Sys2Proof.Machine.execLaneSignalFail p lane s
  | .optReadyRise p => Sys2Proof.Machine.execOptReadyRise p s
  | .optReadyFall p => Sys2Proof.Machine.execOptReadyFall p s
  | .portTrainingDone p res => Sys2Proof.Machine.execPortTrainingDone p res s
  | .retrain p => Sys2Proof.Machine.execRetrain p s
  | .packetForward k => Sys2Proof.Machine.execPacketForward k s
  | .rdReq site k => Sys2Proof.Machine.execRdReq site k s
  | .rdResp k => Sys2Proof.Machine.execRdResp k s
  | .wr site k => Sys2Proof.Machine.execWr site k s
  | .wrAck k => Sys2Proof.Machine.execWrAck k s
  | .post k => Sys2Proof.Machine.execPost k s
  | .requestTimeout k => Sys2Proof.Machine.execRequestTimeout k s
  | .promWalkTimeout axis dir => Sys2Proof.Machine.execPromWalkTimeout axis dir s
  | .ucieTrainDone m res => Sys2Proof.Machine.execUcieTrainDone m res s
  | .flitRx m f => Sys2Proof.Machine.execFlitRx m f s
  | .phyretrainDone m bad r => Sys2Proof.Machine.execPhyretrainDone m bad r s
  | .ucieL1Entry m => Sys2Proof.Machine.execUcieL1Entry m s
  | .dlTest x => Sys2Proof.Machine.execDlTest x s
  | .pcieLinkTrain width rate => Sys2Proof.Machine.execPcieLinkTrain width rate s
  | .bar4Read off len => Sys2Proof.Machine.execBar4Read off len s
  | .bar4Write off data => Sys2Proof.Machine.execBar4Write off data s
  | .sqSlotWrite q off data => Sys2Proof.Machine.execSqSlotWrite q off data s
  | .tailEcho q => Sys2Proof.Machine.execTailEcho q s
  | .doorbell q x => Sys2Proof.Machine.execDoorbell q x s
  | .sqReread q => Sys2Proof.Machine.execSqReread q s
  | .sqStalled q => Sys2Proof.Machine.execSqStalled q s
  | .resumeQueue q => Sys2Proof.Machine.execResumeQueue q s
  | .resetQueue q seq => Sys2Proof.Machine.execResetQueue q seq s
  | .queueEnable q x => Sys2Proof.Machine.execQueueEnable q x s
  | .queueDisable q => Sys2Proof.Machine.execQueueDisable q s
  | .cqHead q x => Sys2Proof.Machine.execCqHead q x s
  | .qNop q seq => Sys2Proof.Machine.execQNop q seq s
  | .qFence q seq => Sys2Proof.Machine.execQFence q seq s
  | .qCopyIn q seq => Sys2Proof.Machine.execQCopyIn q seq s
  | .qCopyOut q seq => Sys2Proof.Machine.execQCopyOut q seq s
  | .qFill q seq => Sys2Proof.Machine.execQFill q seq s
  | .qBatch q seq => Sys2Proof.Machine.execQBatch q seq s
  | .qWaitStep q seq => Sys2Proof.Machine.execQWaitStep q seq s
  | .qPost q seq => Sys2Proof.Machine.execQPost q seq s
  | .commandComplete q seq => Sys2Proof.Machine.execCommandComplete q seq s
  | .completionWrite q => Sys2Proof.Machine.execCompletionWrite q s
  | .hostCompletionTimeout w => Sys2Proof.Machine.execHostCompletionTimeout w s
  | .cavePortTimeout k => Sys2Proof.Machine.execCavePortTimeout k s
  | .cxlLinkDown k => Sys2Proof.Machine.execCxlLinkDown k s
  | .wdExpiry p => Sys2Proof.Machine.execWdExpiry p s
  | .procReloadDone p => Sys2Proof.Machine.execProcReloadDone p s
  | .mbxDoorbell x cfg => Sys2Proof.Machine.execMbxDoorbell x cfg s
  | .getInfo ch m => Sys2Proof.Machine.execGetInfo ch m s
  | .attach ch m => Sys2Proof.Machine.execAttach ch m s
  | .opStatus ch m => Sys2Proof.Machine.execOpStatus ch m s
  | .jobLoad ch m cfg => Sys2Proof.Machine.execJobLoad ch m cfg s
  | .jobPark ch m => Sys2Proof.Machine.execJobPark ch m s
  | .jobResume ch m => Sys2Proof.Machine.execJobResume ch m s
  | .jobAbort ch m => Sys2Proof.Machine.execJobAbort ch m s
  | .jobStatus ch m => Sys2Proof.Machine.execJobStatus ch m s
  | .mbxExport ch m => Sys2Proof.Machine.execMbxExport ch m s
  | .mbxImport ch m => Sys2Proof.Machine.execMbxImport ch m s
  | .reshard ch m cfg => Sys2Proof.Machine.execReshard ch m cfg s
  | .promoReset ch m => Sys2Proof.Machine.execPromoReset ch m s
  | .ckptFull ch m => Sys2Proof.Machine.execCkptFull ch m s
  | .promenade ch m => Sys2Proof.Machine.execPromenade ch m s
  | .linkTest ch m => Sys2Proof.Machine.execLinkTest ch m s
  | .traceSet ch m => Sys2Proof.Machine.execTraceSet ch m s
  | .logInfo ch m => Sys2Proof.Machine.execLogInfo ch m s
  | .logMark ch m => Sys2Proof.Machine.execLogMark ch m s
  | .coldResetRelease f => Sys2Proof.Machine.execColdResetRelease f s
  | .overvoltage mv => Sys2Proof.Machine.execOvervoltage mv s
  | .sag mv => Sys2Proof.Machine.execSag mv s
  | .sagEnd mv dur => Sys2Proof.Machine.execSagEnd mv dur s
  | .rideThroughExpiry mv => Sys2Proof.Machine.execRideThroughExpiry mv s
  | .protectCoreDeadline c => Sys2Proof.Machine.execProtectCoreDeadline c s
  | .protectFlushEnd done => Sys2Proof.Machine.execProtectFlushEnd done s
  | .clockLoss die cause => Sys2Proof.Machine.execClockLoss die cause s
  | .coolant inlet flow => Sys2Proof.Machine.execCoolant inlet flow s
  | .coolantRecover inlet flow => Sys2Proof.Machine.execCoolantRecover inlet flow s
  | .coolantLow inlet => Sys2Proof.Machine.execCoolantLow inlet s
  | .dieTemp sensor reading => Sys2Proof.Machine.execDieTemp sensor reading s
  | .dieTempRecover sensor reading => Sys2Proof.Machine.execDieTempRecover sensor reading s
  | .trip sensor reading => Sys2Proof.Machine.execTrip sensor reading s
  | .governorTick watts => Sys2Proof.Machine.execGovernorTick watts s
  | .p2DelayExpiry v => Sys2Proof.Machine.execP2DelayExpiry v s
  | .startFromP4 f => Sys2Proof.Machine.execStartFromP4 f s
  | .readinessEvaluate ms => Sys2Proof.Machine.execReadinessEvaluate ms s
  | .vatDieReset v => Sys2Proof.Machine.execVatDieReset v s
  | .vatResetDone ok => Sys2Proof.Machine.execVatResetDone ok s
  | .ckptData k => Sys2Proof.Machine.execCkptData k s
  | .ckptAck k => Sys2Proof.Machine.execCkptAck k s
  | .ckptHold k => Sys2Proof.Machine.execCkptHold k s
  | .ckptState k => Sys2Proof.Machine.execCkptState k s
  | .ckptGo k => Sys2Proof.Machine.execCkptGo k s
  | .i3cEntdaa addr => Sys2Proof.Machine.execI3cEntdaa addr s
  | .smbusArp addr => Sys2Proof.Machine.execSmbusArp addr s
  | .setEndpointId eid => Sys2Proof.Machine.execSetEndpointId eid s
  | .getSensorReading sensor => Sys2Proof.Machine.execGetSensorReading sensor s
  | .setNumericEffecter id v => Sys2Proof.Machine.execSetNumericEffecter id v s
  | .setStateEffecter id v => Sys2Proof.Machine.execSetStateEffecter id v s
  | .requestUpdate len => Sys2Proof.Machine.execRequestUpdate len s
  | .requestFirmwareData data => Sys2Proof.Machine.execRequestFirmwareData data s
  | .quote nonce => Sys2Proof.Machine.execQuote nonce s
  | .debugSet level token => Sys2Proof.Machine.execDebugSet level token s
  | .lifecycle target token => Sys2Proof.Machine.execLifecycle target token s
  | .floorRaise e token => Sys2Proof.Machine.execFloorRaise e token s
  | .logRead pos count => Sys2Proof.Machine.execLogRead pos count s
  | .tapSamplePreload pins load => Sys2Proof.Machine.execTapSamplePreload pins load s
  | .tapRegRead sp off size => Sys2Proof.Machine.execTapRegRead sp off size s
  | .tapMemRead addr len => Sys2Proof.Machine.execTapMemRead addr len s
  | .tapTraceRead count => Sys2Proof.Machine.execTapTraceRead count s
  | .tapHalt t => Sys2Proof.Machine.execTapHalt t s
  | .tapResume t => Sys2Proof.Machine.execTapResume t s
  | .tapStep t => Sys2Proof.Machine.execTapStep t s
  | .tapRegWrite sp off size x => Sys2Proof.Machine.execTapRegWrite sp off size x s
  | .tapMemWrite addr data => Sys2Proof.Machine.execTapMemWrite addr data s
  | .tapFlash off len data => Sys2Proof.Machine.execTapFlash off len data s
  | .cavePwrOkFall k => Sys2Proof.Machine.execCavePwrOkFall k s
  | .cavePortTrainingDone k f => Sys2Proof.Machine.execCavePortTrainingDone k f s
  | .holdupOk energy => Sys2Proof.Machine.execHoldupOk energy s
  | .detach k => Sys2Proof.Machine.execDetach k s
  | .promWalk k => Sys2Proof.Machine.execPromWalk k s
  | .promEnd k => Sys2Proof.Machine.execPromEnd k s
  | .promSet k => Sys2Proof.Machine.execPromSet k s
  | .promReport k => Sys2Proof.Machine.execPromReport k s
  | .promDone k => Sys2Proof.Machine.execPromDone k s
  | .promAsk k => Sys2Proof.Machine.execPromAsk k s
  | .promAskAnswer k => Sys2Proof.Machine.execPromAskAnswer k s
  | .accAdmission site f => Sys2Proof.Machine.execAccAdmission site f s
  | .partnerCmdTimeout c op => Sys2Proof.Machine.execPartnerCmdTimeout c op s
  | .partnerTempLoss site => Sys2Proof.Machine.execPartnerTempLoss site s
  | .partnerOverpower site => Sys2Proof.Machine.execPartnerOverpower site s
  | .loopTestEnd errs margin res => Sys2Proof.Machine.execLoopTestEnd errs margin res s
  | .cxlEvent k data => Sys2Proof.Machine.execCxlEvent k data s
  | .overvoltageRecovery => Sys2Proof.Machine.execOvervoltageRecovery s
  | .tapIeee1500 die => Sys2Proof.Machine.execTapIeee1500 die s
  | .tapStandAlone die => Sys2Proof.Machine.execTapStandAlone die s
  | .restoreComplete => Sys2Proof.Machine.execRestoreComplete s
  | .memCommit => Sys2Proof.Machine.execMemCommit s
  | .startBarrierDone => Sys2Proof.Machine.execStartBarrierDone s
  | .stepStart => Sys2Proof.Machine.execStepStart s
  | .mapSwitchDrained => Sys2Proof.Machine.execMapSwitchDrained s
  | .mapswTimeout => Sys2Proof.Machine.execMapswTimeout s
  | .fabCommit => Sys2Proof.Machine.execFabCommit s
  | .promenadeTimeout => Sys2Proof.Machine.execPromenadeTimeout s
  | .perstAssert => Sys2Proof.Machine.execPerstAssert s
  | .dllDown => Sys2Proof.Machine.execDllDown s
  | .functionLevelReset => Sys2Proof.Machine.execFunctionLevelReset s
  | .busMasterEnableCleared => Sys2Proof.Machine.execBusMasterEnableCleared s
  | .d3hotEntry => Sys2Proof.Machine.execD3hotEntry s
  | .heartbeatExpiry => Sys2Proof.Machine.execHeartbeatExpiry s
  | .hifHeartbeat => Sys2Proof.Machine.execHifHeartbeat s
  | .bar4Sync => Sys2Proof.Machine.execBar4Sync s
  | .hifHfence => Sys2Proof.Machine.execHifHfence s
  | .suppress => Sys2Proof.Machine.execSuppress s
  | .inputApplied => Sys2Proof.Machine.execInputApplied s
  | .modResetNFall => Sys2Proof.Machine.execModResetNFall s
  | .pwrEnFall => Sys2Proof.Machine.execPwrEnFall s
  | .pwrEnRise => Sys2Proof.Machine.execPwrEnRise s
  | .holdupExhausted => Sys2Proof.Machine.execHoldupExhausted s
  | .pwrReqStandby => Sys2Proof.Machine.execPwrReqStandby s
  | .pwrReqResume => Sys2Proof.Machine.execPwrReqResume s
  | .p3Return => Sys2Proof.Machine.execP3Return s
  | .startStepTimeout => Sys2Proof.Machine.execStartStepTimeout s
  | .portsSettled => Sys2Proof.Machine.execPortsSettled s
  | .askTimeout => Sys2Proof.Machine.execAskTimeout s
  | .deltaComplete => Sys2Proof.Machine.execDeltaComplete s
  | .deltaMergeDone => Sys2Proof.Machine.execDeltaMergeDone s
  | .i3cRstdaa => Sys2Proof.Machine.execI3cRstdaa s
  | .pollEvent => Sys2Proof.Machine.execPollEvent s
  | .activateFirmware => Sys2Proof.Machine.execActivateFirmware s
  | .cancelUpdate => Sys2Proof.Machine.execCancelUpdate s
  | .getId => Sys2Proof.Machine.execGetId s
  | .challenge => Sys2Proof.Machine.execChallenge s
  | .lifecycleComplete => Sys2Proof.Machine.execLifecycleComplete s
  | .tapBypass => Sys2Proof.Machine.execTapBypass s
  | .tapIdcode => Sys2Proof.Machine.execTapIdcode s
  | .tapExtest => Sys2Proof.Machine.execTapExtest s
  | .exportComplete => Sys2Proof.Machine.execExportComplete s
  | .importComplete => Sys2Proof.Machine.execImportComplete s

end Sys2Proof.Machine
end

