-- ==== Sys2Proof/Safety.lean ====
section
/-! DEFINITION. The words the statements use: invariants of a run, and the states that commands of the core leave. -/

namespace Sys2Proof.Machine

/-- Every memory of the module is in its canonical form. -/
def State.memOk (s : State) : Prop := Cells.wf s.mem.bytes = true ∧ Cells.wf s.mem.host = true

/-- The debug level is a level, and lifecycle FIELD has neither level FULL nor a raise of it waiting (R497, R500). -/
def State.secOk (s : State) : Prop :=
  s.sec.level ≤ 2 ∧ (s.fuses.lifecycle = 2 → s.sec.level ≠ 2 ∧ s.sec.raise = false)

/-- A guarded slot of core `c` executes in a bundle that may be fetched (R44, R45). -/
def State.runs (s : State) (c : CoreId) (g : Guard) : Prop := s.mayFetch c = true ∧ g.holds s.cores[c].regs = true

/-- The state after a bundle issues on core `c`: its slots left the core as `x`, the PC goes as `f` says, and a free value may have
been read. -/
def State.issued (s : State) (c : CoreId) (x : Core) (f : Flow) : State :=
  (s.setCore c { x with regs := x.regs.advance f, ctl := { x.ctl with waiting := false, halting := f = .halt } }).drawn freeStep

/-- The state after a bundle whose only effect is on the registers of core `c`. -/
def State.setsRegs (s : State) (c : CoreId) (r : CoreRegs) : State := s.issued c { s.cores[c] with regs := r } .seq

/-- The state after a bundle that writes a scalar register; s0 discards the write (R40). -/
def State.setsReg (s : State) (c : CoreId) (rd : SReg) (v : W64) : State := s.setsRegs c (s.cores[c].regs.sset rd v)

/-- The state after a bundle that writes a predicate register; p0 discards the write (R40). -/
def State.setsPred (s : State) (c : CoreId) (pd : PReg) (v : Bool) : State := s.setsRegs c (s.cores[c].regs.pset pd v)

/-- The state after a bundle of which one slot leaves its effect to the module. -/
def State.atIssue (s : State) (c : CoreId) : State := s.issued c s.cores[c] .seq

/-- The state after a bundle that stalls on something else than a semaphore (R45). -/
def State.stalled (s : State) (c : CoreId) : State :=
  s.setCore c { s.cores[c] with ctl := { s.cores[c].ctl with waiting := false } }

/-- An asynchronous move/sync operation with completion post `post` may start on core `c`: its slot executes, no segment is open, the
post is of the right class and a place is free (R55, R61, R68). -/
def State.mayStart (s : State) (c : CoreId) (g : Guard) (post : Option SemId) : Prop :=
  s.runs c g ∧ s.cores[c].seg.isOpen = false ∧ semClassOk false post = true ∧ s.cores[c].outstanding < 32

/-- The core-store address of the descriptor that a move/sync slot names (R41, R54). -/
def State.descAddr (s : State) (c : CoreId) (rs : SReg) : Nat := storeAddr (s.cores[c].regs.sget rs).toNat

/-- The transfer descriptor at the address a slot names (R187). -/
def State.xdesc (s : State) (c : CoreId) (rs : SReg) : XDesc := XDesc.mk (storeRead s.cores[c].store (s.descAddr c rs) 64)

/-- The state with a transfer entered among the operations of its core, nothing moved yet (R54, R55, R187). -/
def State.entersXfer (s : State) (c : CoreId) (addr : Nat) (post : Option SemId) : State :=
  let raw := storeRead s.cores[c].store addr 64
  let d := XDesc.mk raw
  let live := d.ok && decide (d.total ≠ 0)
  let rd := if live && d.usesSrc then s.ownRanges c d false else []
  let wr := (if live && d.op ≤ 1 then s.ownRanges c d true else []) ++ (if d.statusw then spanCut d.statusAddr 16 else [])
  s.updCore c fun x => x.addOp post rd wr (.xfer raw addr 0 (if d.ok then stOk else stBadDesc) addr)

/-- A packet that place `k` of the delivered packets holds, its body undamaged (R287). -/
def State.holdsPacket (s : State) (k : Nat) (p : Packet) : Prop := s.fab.deliv[k]? = some p ∧ p.crcOk = true

/-- The command of a mailbox opcode (R409). -/
def mailRow (op : Nat) (ch : Chan) (m : MbxReq) (cfg : Option JobConfig) : Option Instr :=
  match op with
  | 0x0001 => some (.getInfo ch m) | 0x0002 => some (.attach ch m) | 0x0003 => some (.opStatus ch m)
  | 0x0010 => some (.jobLoad ch m cfg) | 0x0011 => some (.jobPark ch m) | 0x0012 => some (.jobResume ch m) | 0x0013 => some (.jobAbort ch m)
  | 0x0014 => some (.jobStatus ch m) | 0x0015 => some (.mbxExport ch m) | 0x0016 => some (.mbxImport ch m)
  | 0x0017 => some (.reshard ch m cfg) | 0x0018 => some (.promoReset ch m) | 0x0019 => some (.ckptFull ch m)
  | 0x0020 => some (.promenade ch m) | 0x0021 => some (.linkTest ch m) | 0x0030 => some (.traceSet ch m)
  | 0x0031 => some (.logInfo ch m) | 0x0032 => some (.logMark ch m)
  | _ => none

/-- The last response on a channel (R407). -/
def State.lastMail (s : State) (ch : Chan) : Option MbxResp :=
  match ch with
  | .host => s.mbx.lastHost
  | .mgmt => s.mbx.lastMgmt

/-- A request is served by the MP now: its channel is up, the processors it needs run or are held, and its SEQ is not that of the last
request (R400, R401, R407). -/
def State.servesMail (s : State) (ch : Chan) (m : MbxReq) : Prop :=
  s.chanUp ch = true ∧ s.procUp procMP = true ∧ s.procHeld procMP = false ∧
  (needsSp m = true → s.procUp procSP = true ∨ s.procHeld procSP = true) ∧ ∀ r, s.lastMail ch = some r → r.seq ≠ m.seq

/-- A request on the management path for which the matrix has no grant (R507). -/
def mailDenied (ch : Chan) (op : Nat) : Prop := ch = .mgmt ∧ (op = 0x0002 ∨ op = 0x0015 ∨ op = 0x0016)

/-- A request on the host mailbox that lacks the session it needs (R407). -/
def State.mailUnattached (s : State) (ch : Chan) (op : Nat) : Prop := ch = .host ∧ s.hif.attached = false ∧ noSession op = false

/-- A request that is served and passes the checks before its own work (R406 to R409, R507). -/
def State.passesMail (s : State) (ch : Chan) (m : MbxReq) (cfg : Option JobConfig) : Prop :=
  s.servesMail ch m ∧ m.major = 1 ∧ mbLength m.op = some m.len ∧ ¬ mailDenied ch m.op ∧ ¬ s.mailUnattached ch m.op ∧
  s.mbPermits m.op cfg = true

/-- The state in which an accepted operation has been answered and is outstanding (R408). -/
def State.accepted (s : State) (ch : Chan) (m : MbxReq) (cfg : Option JobConfig) : State :=
  ({ s with mbx := { s.mbx with ops := s.mbx.ops ++ [(⟨ch, m.seq, m.op, m.payload, cfg, false, none⟩ : AccOp)] } } : State).reply' ch m mbAccepted []

/-- A message on the management path is served by the MP now (R400, R401, R450, R451). -/
def State.servesMgmt (s : State) (m : MgmtMsg) : Prop :=
  s.mgmtTakes m = true ∧ s.procUp procMP = true ∧ s.procHeld procMP = false ∧
  (s.endsUpdate m = true → s.procUp procSP = true ∧ s.procHeld procSP = false)

/-- A security message is relayed to the SP and served now (R400, R401, R494, R498, R504). -/
def State.servesSec (s : State) (m : SecMsg) : Prop :=
  s.mgmtTakes (.sec m) = true ∧ s.procUp procMP = true ∧ s.procHeld procMP = false ∧ s.procUp procSP = true ∧
  s.procHeld procSP = false ∧ s.resuming = false ∧ s.starting = false

/-- The state of a TAP whose instruction register holds `ir`, the instruction accepted (R497). -/
def State.tapIr (s : State) (ir : Nat) : State := { s with tap := { s.tap with ir := ir } }

end Sys2Proof.Machine
end

