-- ==== Sys2Proof/Certificates/Slice0/Obligations.lean ====
section
/-! DEFINITION. Statements about the model for the provers. -/

open Sys2Proof Sys2Proof.Machine

/-- A step runs the command at the front of the queue on the queue's rest, the model's choice in log 29 (spec/INDEX.md). -/
def Obligations.StepTakesFront : Prop :=
  (∀ (i : Instr) (rest : List Instr) (s : State), step { s with pending := i :: rest } = exec i { s with pending := rest }) ∧
  (∀ s : State, s.pending = [] → step s = .next s)

/-- Scalar arithmetic writes the stated result to rd (R48, R40). -/
def Obligations.ScalarArithmetic : Prop :=
  ∀ (s : State) (c : CoreId) (g : Guard) (rd a b : SReg), s.runs c g →
    let x := s.cores[c].regs.sget a
    let y := s.cores[c].regs.sget b
    let n := y.toNat % 64
    exec (.sAdd c g rd a b) s = .next (s.setsReg c rd (x + y)) ∧
    exec (.sSub c g rd a b) s = .next (s.setsReg c rd (x - y)) ∧
    exec (.sAnd c g rd a b) s = .next (s.setsReg c rd (x &&& y)) ∧
    exec (.sOr c g rd a b) s = .next (s.setsReg c rd (x ||| y)) ∧
    exec (.sXor c g rd a b) s = .next (s.setsReg c rd (x ^^^ y)) ∧
    exec (.sShl c g rd a b) s = .next (s.setsReg c rd (x <<< n)) ∧
    exec (.sShr c g rd a b) s = .next (s.setsReg c rd (x >>> n)) ∧
    exec (.sSra c g rd a b) s = .next (s.setsReg c rd (x.sshiftRight n)) ∧
    exec (.sMul c g rd a b) s = .next (s.setsReg c rd (x * y)) ∧
    exec (.sMin c g rd a b) s = .next (s.setsReg c rd (if y.slt x then y else x)) ∧
    exec (.sMax c g rd a b) s = .next (s.setsReg c rd (if x.slt y then y else x)) ∧
    (∀ imm : BitVec 12, exec (.sAddi c g rd a imm) s = .next (s.setsReg c rd (x + imm.signExtend 64))) ∧
    (∀ imm : BitVec 17, exec (.sLi c g rd imm) s = .next (s.setsReg c rd (imm.signExtend 64))) ∧
    (∀ imm : BitVec 16, exec (.sSli c g rd imm) s =
      .next (s.setsReg c rd ((s.cores[c].regs.sget rd <<< 16) ||| imm.setWidth 64)))

/-- Comparisons, predicate logic and FP32 operations of the scalar slot (R48, R47, R79). -/
def Obligations.ScalarPredicatesAndFloat : Prop :=
  ∀ (s : State) (c : CoreId) (g : Guard) (rd a b : SReg) (pd pa pb : PReg), s.runs c g →
    let r := s.cores[c].regs
    let x := r.sget a
    let y := r.sget b
    (∀ fn : BitVec 7, exec (.sCmp c g pd a b fn) s =
      .next (if fn.toNat ≤ 7 then s.setsPred c pd (cmpEval fn.toNat x y) else s.coreFault c 1 r.pc)) ∧
    (∀ (i : Fin 16) (imm : BitVec 12) (fn : BitVec 3), exec (.sCmpi c g pd i imm fn) s =
      .next (s.setsPred c pd (cmpEval fn.toNat (r.sget (sregOf i.val))
        (if fn.toNat < 6 then imm.signExtend 64 else (intToF32 imm.toInt).setWidth 64)))) ∧
    (∀ fn : BitVec 4, exec (.sPop c g pd pa pb fn) s =
      .next (if fn.toNat ≤ 3 then s.setsPred c pd (popEval fn.toNat (r.pget pa) (r.pget pb)) else s.coreFault c 1 r.pc)) ∧
    exec (.sFadd c g rd a b) s = .next (s.setsReg c rd ((fadd (x.setWidth 32) (y.setWidth 32)).setWidth 64)) ∧
    exec (.sFmul c g rd a b) s = .next (s.setsReg c rd ((fmul (x.setWidth 32) (y.setWidth 32)).setWidth 64)) ∧
    exec (.sFma c g rd a b) s =
      .next (s.setsReg c rd ((ffma ((r.sget rd).setWidth 32) (x.setWidth 32) (y.setWidth 32)).setWidth 64)) ∧
    (∀ fn : BitVec 7, exec (.sFcvt c g rd a fn) s =
      .next (if fn.toNat = 0 then s.setsReg c rd ((intToF32 x.toInt).setWidth 64)
        else if fn.toNat = 1 then s.setsReg c rd (f32ToInt (x.setWidth 32)) else s.coreFault c 1 r.pc))

/-- Scalar loads and stores, control registers and the combiner configuration (R48, R41, R78, R81, R72, R229, R120, R230). -/
def Obligations.ScalarLoadStoreAndControlRegisters : Prop :=
  ∀ (s : State) (c : CoreId) (g : Guard) (rd a : SReg), s.runs c g →
    let k := s.cores[c]
    let r := k.regs
    (∀ imm : BitVec 12, exec (.sLd c g rd a imm) s =
      .next (s.setsReg c rd (BitVec.ofNat 64 (storeLe k.store (r.sget a + 8 * imm.signExtend 64).toNat 8)))) ∧
    (∀ imm : BitVec 12,
      let at' := (r.sget a + 8 * imm.signExtend 64).toNat
      let bs := toLe 8 (r.sget rd).toNat
      exec (.sSt c g rd a imm) s = .next (s.issued c (k.writeStore s.free 0 false at' bs) .seq) ∧
      (k.races 0 (spanCut at' 8) = false → (k.cmb.entries = [] ∨ spansMeet (spanCut at' 8) k.cmb.area = false) →
        (k.seg.isOpen = false ∨ spansMeet (spanCut at' 8) k.seg.regions = false) →
        exec (.sSt c g rd a imm) s = .next (s.issued c { k with store := storePut k.store at' bs } .seq))) ∧
    (∀ n : BitVec 12, csrListed n.toNat = true →
      let x := k.csrRead (s.env c) n.toNat
      exec (.sCsrr c g rd n) s = .next (if k.stallS (some (.csrr rd n)) then s.stalled c
        else if n.toNat = 0x00a then s.issued c { k with ctl := { k.ctl with cycle := x }, regs := r.sset rd x } .seq
        else s.setsReg c rd x)) ∧
    (∀ n : BitVec 12, csrListed n.toNat = true →
      exec (.sCsrw c g n a) s = .next (if k.stallS (some (.csrw n a)) then s.stalled c
        else s.issued c (k.csrWrite n.toNat (r.sget a)) .seq)) ∧
    (exec (.cmbCfgWrite c g a) s = .next (if k.ops.any Op.isCombiner then s.stalled c
      else s.issued c (k.csrWrite 0x110 (r.sget a)) .seq)) ∧
    (∀ n : BitVec 12, csrListed n.toNat = false →
      exec (.sCsrr c g rd n) s = .next (s.coreFault c 1 r.pc) ∧ exec (.sCsrw c g n a) s = .next (s.coreFault c 1 r.pc))

/-- Jumps, calls, loops, halts and the fetch of a bundle (R45, R48, R49, R68, R73, R79, R227). -/
def Obligations.ScalarControlFlow : Prop :=
  (∀ (s : State) (c : CoreId) (g : Guard), s.mayFetch c = false → exec (.bundleFetch c) s = .next s ∧ exec (.slotNop c g) s = .next s ∧
    exec (.sHalt c g) s = .next s) ∧
  (∀ (s : State) (c : CoreId) (g : Guard) (a : SReg), s.runs c g →
    let k := s.cores[c]
    let r := k.regs
    exec (.slotNop c g) s = .next (s.issued c k .seq) ∧
    (∀ off : BitVec 22, exec (.sJmp c g off) s = .next (s.issued c k (.jump (jumpTarget r.pc off)))) ∧
    (∀ off : BitVec 22, exec (.sCall c g off) s =
      .next (s.issued c { k with regs := r.sset 31 (BitVec.ofNat 64 (r.pc + 1)) } (.jump (jumpTarget r.pc off)))) ∧
    exec (.sRet c g) s = .next (s.issued c k (.jump ((r.sget 31).toNat % 2 ^ 14))) ∧
    (∀ body : BitVec 12, exec (.sLoop c g a body) s =
      .next (if body.toNat = 0 then s.coreFault c 1 r.pc
        else if (r.sget a).toNat ≠ 0 ∧ 4 ≤ r.loops.length then s.coreFault c 3 r.pc
        else s.issued c k (.loop (r.sget a).toNat body.toNat))) ∧
    exec (.sHalt c g) s = .next (if k.seg.isOpen then s.coreFault c 9 r.pc else (s.issued c k .halt).startHalt c)) ∧
  ∀ (s : State) (c : CoreId), s.mayFetch c = true →
    let k := s.cores[c]
    let pc := k.regs.pc
    let free := k.imem.wild || k.imemPending pc
    let tries := fun (s : State) (b : Bundle) => match s.cores[c].tryIssue (s.env c) b with
      | .stall y => s.setCore c y
      | .fault code => s.coreFault c code pc
      | .issued y evs req halt =>
        let t := ((s.withCore c (y, evs)).drawn freeStep).serveReq c pc req
        if halt then t.startHalt c else t
    (free = true → exec (.bundleFetch c) s = .next (tries ((s.updCore c fun x => { x with imem := { x.imem with wild := true } }).drawn 16)
      (decodeBundle (BitVec.ofNat 128 (leNat (freeBytes s.free 16)))))) ∧
    (free = false → k.imem.len ≤ pc → exec (.bundleFetch c) s = .next (s.coreFault c 2 pc)) ∧
    (free = false → pc < k.imem.len → k.imem.bad.contains pc = true → exec (.bundleFetch c) s = .next (s.coreFault c 4 pc)) ∧
    (free = false → pc < k.imem.len → k.imem.bad.contains pc = false →
      let b := decodeBundle (Cells.get k.imem.words pc)
      exec (.bundleFetch c) s = .next (tries s b) ∧
      (b.s = some .nop → b.m = some .nop → b.v = some .nop → b.d = some .nop → exec (.bundleFetch c) s = .next (s.issued c k .seq)) ∧
      (∀ (op : AluOp) (rd x y q : SReg) (vd : VReg), b.s = some (.alu op rd x y) → b.m = some .nop → b.v = some (.spl vd q) →
        b.d = some .nop → b.sg.holds k.regs = true → b.vg.holds k.regs = true → k.vec.chains = [] →
        exec (.bundleFetch c) s = .next (s.setsRegs c ((k.regs.sset rd (op.eval (k.regs.sget x) (k.regs.sget y))).vset vd.val
          (List.replicate 64 ((k.regs.sget q).setWidth 32))))))

/-- A slot whose guard is false has no effect (R44). -/
def Obligations.GuardedOffSlotIsNoOp : Prop :=
  ∀ (s : State) (c : CoreId) (g : Guard), s.mayFetch c = true → (s.cores[c].regs.pget g.gp != g.gn) = false →
    (∀ op : SOp, s.issueS c g op = .next (s.issued c s.cores[c] .seq)) ∧
    (∀ op : MOp, s.issueM c g op = .next (s.issued c s.cores[c] .seq)) ∧
    (∀ op : VOp, s.issueV c g op = .next (s.issued c s.cores[c] .seq)) ∧
    (∀ op : DOp, s.issueD c g op = .next (s.issued c s.cores[c] .seq)) ∧
    (∀ (rd a b : SReg), exec (.sAdd c g rd a b) s = .next (s.issued c s.cores[c] .seq)) ∧
    (∀ (sem : SemId) (n : BitVec 8), exec (.yPost c g sem n) s = .next (s.issued c s.cores[c] .seq))

/-- s0 reads 0 and p0 reads 1, and a register reads what was last written to it (R40). -/
def Obligations.RegistersZeroAreFixed : Prop :=
  ∀ (r : CoreRegs),
    r.sget 0 = 0#64 ∧ r.pget 0 = true ∧ (∀ v, r.sset 0 v = r) ∧ (∀ v, r.pset 0 v = r) ∧
    (∀ (i j : SReg) (v : W64), (r.sset i v).sget j = if j = i ∧ i ≠ 0 then v else r.sget j) ∧
    (∀ (i j : PReg) (v : Bool), (r.pset i v).pget j = if j = i ∧ i ≠ 0 then v else r.pget j) ∧
    (∀ (i : SReg) (v : W64), (r.sset i v).p = r.p ∧ (r.sset i v).pc = r.pc ∧ (r.sset i v).sem = r.sem ∧ (r.sset i v).acc = r.acc ∧
      (r.sset i v).v = r.v ∧ (r.sset i v).a = r.a)

/-- m.cfg sets the mode, m.bload and m.pass enter their queues (R50, R51, R52, R61, R47). -/
def Obligations.MatrixSlotQueuesWork : Prop :=
  ∀ (s : State) (c : CoreId) (g : Guard) (ag : AgId) (post : Option SemId) (kreg : SReg), s.runs c g →
    let k := s.cores[c]
    let w := k.regs.sget kreg
    (∀ (a b : BitVec 4) (sp : BitVec 2), exec (.mCfg c g a b sp) s =
      .next (match mcfgOf a b sp with
        | some m => s.issued c { k with mcfg := m } .seq
        | none => s.coreFault c 1 k.regs.pc)) ∧
    (semClassOk k.seg.isOpen post = true →
      exec (.mBload c g ag post kreg) s = .next (if 2 ≤ k.arr.loads.length then s.stalled c else s.issued c (k.issueLoad k ag post w) .seq) ∧
      ∀ bank keep : Bool,
        (k.arr.passes.length < 4 → (k.vec.chains.any fun ch => ch.readsBank (if bank then 1 else 0)) = false →
          exec (.mPass c g ag bank keep post kreg) s = .next (s.issued c (k.issuePass k ag bank keep post w) .seq)) ∧
        (4 ≤ k.arr.passes.length ∨ (k.vec.chains.any fun ch => ch.readsBank (if bank then 1 else 0)) = true →
          exec (.mPass c g ag bank keep post kreg) s = .next (s.stalled c))) ∧
    (∃ l, (k.issueLoad k ag post w).arr.loads = k.arr.loads ++ [l] ∧ l.ag = ag ∧ l.post = post ∧ l.cfg = k.mcfg ∧ l.started = false) ∧
    (∀ bank keep : Bool, ∃ p, (k.issuePass k ag bank keep post w).arr.passes = k.arr.passes ++ [p] ∧ p.ag = ag ∧ p.post = post ∧ p.keep = keep ∧
      p.bank = (if bank then 1 else 0) ∧ p.cfg = k.mcfg ∧ p.rowmask = k.arr.rowmask ∧ p.started = false) ∧
    (semClassOk k.seg.isOpen post = false →
      exec (.mBload c g ag post kreg) s = .next (s.coreFault c 10 k.regs.pc) ∧
      ∀ bank keep : Bool, exec (.mPass c g ag bank keep post kreg) s = .next (s.coreFault c 10 k.regs.pc))

/-- The array: front end, issue slots, completion, loads, activity level, top-up (R80, R92, R93, R94, R89, R107, R108, R433). -/
def Obligations.ArrayEvents : Prop :=
  ∀ (s : State) (c : CoreId),
    let k := s.cores[c]
    (s.vcoreOn = true → k.ctl.enabled = true → ∀ quiet : Bool,
      let top := s.ceiling (vatOf c)
      let level := if top < k.arr.level then k.arr.level - 1
        else if !k.arr.passes.isEmpty || k.arr.warm then min (k.arr.level + 1) top
        else if quiet then k.arr.level - 1 else k.arr.level
      exec (.levelStep c quiet) s = .next (s.setCore c { k with arr := { k.arr with level := level } })) ∧
    (s.coreClocked c = true →
    (exec (.passFrontEndStart c) s = .next ((s.setCore c (k.passStart s.free)).drawn freeStep)) ∧
    (∀ p, k.arr.frontPass = some p → p.count ≠ 0 →
      let x := if (k.ags[p.ag]).active then k.agClash s.free p.ag else k.setAg p.ag ((k.ags[p.ag]).start k.regs p.ag)
      exec (.passFrontEndStart c) s = .next ((s.setCore c { x with
        arr := x.arr.setPass { p with started := true, src := some x.ags[p.ag] },
        regs := if p.keep then x.regs else x.regs.clearBank p.bank }).drawn freeStep)) ∧
    (exec (.arrayIssueSlot c) s = .next (s.withCore c k.issueSlot)) ∧
    (k.arr.issuing = none → 0 < k.arr.level →
      exec (.arrayIssueSlot c) s = .next (s.setCore c
        { k with arr := { k.arr.wheyStep false with aclk := nextIssue k.arr.level 64 k.arr.aclk } })) ∧
    (k.arr.level = 0 → exec (.arrayIssueSlot c) s = .next (s.setCore c { k with arr := { k.arr with active := false, whey := false } })) ∧
    (exec (.passComplete c) s = .next ((s.withCore c (k.passComplete s.free)).drawn freeStep)) ∧
    (∀ p ps, k.arr.passes = p :: ps → (p.count = 0 ∨ (p.started = true ∧ p.issued = true)) → p.spoilt = false →
      exec (.passComplete c) s = .next ((s.withCore c (({ k with arr := { k.arr with passes := ps } }).complete p.post)).drawn freeStep)) ∧
    (exec (.bloadStart c) s = .next ((s.setCore c (k.loadStart s.free)).drawn freeStep)) ∧
    (∀ l ls, k.arr.loads = l :: ls → l.started = false → l.count ≠ 0 →
      let x := if (k.ags[l.ag]).active then k.agClash s.free l.ag else k.setAg l.ag ((k.ags[l.ag]).start k.regs l.ag)
      exec (.bloadStart c) s = .next ((s.setCore c { x with
        arr := { x.arr with loads := { l with started := true, src := some x.ags[l.ag] } :: ls } }).drawn freeStep)) ∧
    (exec (.bloadSlotWrite c) s = .next (s.withCore c k.loadWrite)) ∧
    (∀ l ls, k.arr.loads = l :: ls → l.count = 0 →
      exec (.bloadSlotWrite c) s = .next (s.withCore c (({ k with arr := { k.arr with loads := ls } }).complete l.post))) ∧
    exec (.topupDecrement c) s = .next (s.setCore c { k with arr := { k.arr with topup := k.arr.topup - 625 } }))

/-- The vector slot: register forms, streams and the chain queue (R53, R52, R55, R80, R81, R111, R124, R46, R47, R61). -/
def Obligations.VectorSlotEffects : Prop :=
  ∀ (s : State) (c : CoreId) (g : Guard) (vd va vb : VReg) (ag : AgId) (rs : SReg), s.runs c g →
    let k := s.cores[c]
    (∀ post : Option SemId, (semClassOk k.seg.isOpen post = true →
      exec (.vChain c g rs post) s = .next (if k.vec.chains.length < 4 ∧ k.outstanding < 32 then
        s.issued c (k.issueChain k (k.regs.sget rs) post) .seq else s.stalled c)) ∧
      (semClassOk k.seg.isOpen post = false → exec (.vChain c g rs post) s = .next (s.coreFault c 10 k.regs.pc))) ∧
    (k.vec.chains = [] →
      exec (.vLd c g vd ag) s = .next (s.issued c (k.vld vd ag) .seq) ∧
      exec (.vSt c g vd ag) s = .next (s.issued c ((k.vst vd ag).2.writeAll s.free 0 (k.vst vd ag).1) .seq) ∧
      (∀ (bank half : Bool) (row : Fin 32),
        exec (.vAcc c g vd bank half row) s = .next (if k.bankWriter (if bank then 1 else 0) k.seq then s.stalled c
          else s.issued c (k.vacc vd bank half row) .seq)) ∧
      (∀ fn : BitVec 4, fn.toNat ≤ 3 → exec (.vRed c g vd va fn) s =
        .next (s.setsRegs c (k.regs.vset vd.val (vred fn (k.regs.vget va.val) :: List.replicate 63 0#32)))) ∧
      (∀ (sd : SReg) (idx : Fin 64), exec (.vMvs c g sd va idx) s =
        .next (s.setsReg c sd ((k.regs.lane va.val idx.val).setWidth 64))) ∧
      exec (.vSpl c g vd rs) s = .next (s.setsRegs c (k.regs.vset vd.val (List.replicate 64 ((k.regs.sget rs).setWidth 32)))) ∧
      (∀ code : BitVec 9, stageListed code.toNat = true →
        exec (.vOp c g code vd va vb) s = .next (s.issued c
          { k with regs := k.regs.vset vd.val (vop code.toNat (k.regs.vget va.val) (k.regs.vget vb.val) (k.regs.vget vd.val)).1,
                   vec := { k.vec with domain := k.vec.domain ||
                     (vop code.toNat (k.regs.vget va.val) (k.regs.vget vb.val) (k.regs.vget vd.val)).2 } } .seq))) ∧
    (k.vec.chains ≠ [] → exec (.vLd c g vd ag) s = .next (s.stalled c) ∧ exec (.vSt c g vd ag) s = .next (s.stalled c) ∧
      exec (.vSpl c g vd rs) s = .next (s.stalled c)) ∧
    (∀ fn : BitVec 4, 3 < fn.toNat → exec (.vRed c g vd va fn) s = .next (s.coreFault c 1 k.regs.pc)) ∧
    (∀ code : BitVec 9, stageListed code.toNat = false → exec (.vOp c g code vd va vb) s = .next (s.coreFault c 1 k.regs.pc))

/-- Start and completion of a vector chain (R115, R120, R121, R127, R63). -/
def Obligations.ChainEvents : Prop :=
  ∀ (s : State) (c : CoreId), s.coreClocked c = true →
    let k := s.cores[c]
    (∀ x, k.chainStart (s.env c) = .started x → exec (.chainStart c) s = .next ((s.setCore c x).drawn freeStep)) ∧
    (∀ pc x, k.chainStart (s.env c) = .illegal pc x →
      exec (.chainStart c) s = .next (if x.ctl.fault = false ∧ x.ctl.run = true then (s.setCore c x).coreFault c 1 pc else s.setCore c x)) ∧
    (k.nextChain = none → exec (.chainStart c) s = .next s) ∧
    ((∃ ch ∈ k.vec.chains, ch.out.isSome = true) → ∃ ch o, ch ∈ k.vec.chains ∧ k.endingChain s.free = some ch ∧ ch.out = some o ∧
      let o' := if ch.spoilt then o.wild s.free else o
      exec (.chainComplete c) s =
        .next (((s.withCore c ((k.writeAll s.free ch.seq o'.stores).chainFinish ch o')).drawn freeStep).completionPost c ch.post)) ∧
    ((∀ ch ∈ k.vec.chains, ch.out = none) → exec (.chainComplete c) s = .next s)

/-- y.wait, y.post and y.postr (R60, R61, R62, R64, R55, R68). -/
def Obligations.SemaphoreWaitAndPost : Prop :=
  ∀ (s : State) (c : CoreId) (g : Guard) (sem : SemId) (n : BitVec 8), s.runs c g →
    let k := s.cores[c]
    let v := (k.regs.sem[sem]).toNat + n.toNat
    let put := fun (x : W16) => { k.regs with sem := k.regs.sem.set sem x }
    (semClassOk k.seg.isOpen (some sem) = true →
      (n.toNat ≤ (k.regs.sem[sem]).toNat →
        exec (.yWait c g sem n) s = .next (s.setsRegs c (put (k.regs.sem[sem] - n.setWidth 16)))) ∧
      ((k.regs.sem[sem]).toNat < n.toNat →
        exec (.yWait c g sem n) s = .next (s.setCore c { k with ctl := { k.ctl with waiting := true } })) ∧
      (v ≤ 65535 → exec (.yPost c g sem n) s = .next (s.setsRegs c (put (BitVec.ofNat 16 v)))) ∧
      (65535 < v →
        let ctl := { k.ctl with semOvf := true, waiting := false, halting := false }
        let y := { k with regs := (put 0xffff#16).advance .seq, ctl := ctl }
        exec (.yPost c g sem n) s = .next (((s.setCore c y).applyEv c (.semOvf sem.val)).drawn freeStep))) ∧
    (semClassOk k.seg.isOpen (some sem) = false →
      exec (.yWait c g sem n) s = .next (s.coreFault c 10 k.regs.pc) ∧
      exec (.yPost c g sem n) s = .next (s.coreFault c 10 k.regs.pc)) ∧
    (∀ (rv : SReg) (m : Fin 16),
      exec (.yPostr c g rv m n) s = .next (if k.seg.isOpen then s.coreFault c 7 k.regs.pc
        else if 32 ≤ k.outstanding then s.stalled c
        else (s.atIssue c).updCore c fun x => x.addOp none [] [] (.postr ((k.regs.sget rv).toNat % 65536) (48 + m.val) n.toNat)))

/-- y.seg opens a segment and y.commit decides it (R66, R67, R68, R70, R104, R440, R470). -/
def Obligations.SegmentOpenAndCommit : Prop :=
  ∀ (s : State) (c : CoreId) (g : Guard) (rs : SReg),
    let k := s.cores[c]
    let a := s.atIssue c
    (s.runs c g → k.seg.isOpen = false →
      exec (.ySeg c g rs) s = .next (s.issued c (k.openSeg k (k.regs.sget rs).toNat) .seq) ∧
      exec (.yCommit c g) s = .next (s.coreFault c 6 k.regs.pc)) ∧
    (s.runs c g → k.seg.isOpen = true → exec (.ySeg c g rs) s = .next (s.coreFault c 5 k.regs.pc)) ∧
    (s.runs c g → k.seg.isOpen = true → k.segIdle = false → exec (.yCommit c g) s = .next (s.stalled c)) ∧
    (s.runs c g → k.seg.isOpen = true → k.segIdle = true →
      let t := if k.num.segovf = false then a.withCore c a.cores[c].commitSeg
        else if k.seg.replays < 3 then a.withCore c a.cores[c].rewindSeg
        else (a.coreFault c 8 k.regs.pc).updCore c fun x => { x with regs := { x.regs with pc := k.regs.pc } }
      exec (.yCommit c g) s = .next (if s.pwr.protect.isSome || s.job.parkLost then
        t.updCore c fun x => { x with ctl := { x.ctl with stopped := true } } else t)) ∧
    (s.coreOn c = true → k.seg.accClear = true →
      exec (.rewindAccClear c) s = .next (if k.accClearReady then
        s.setCore c { k with regs := { k.regs with acc := [] }, seg := { k.seg with accClear := false } } else s))

/-- d.copy, d.agld and d.imem enter their work or raise their fault (R54, R55, R73, R79, R80, R518, R519). -/
def Obligations.MoveSlotWithinTheCore : Prop :=
  ∀ (s : State) (c : CoreId) (g : Guard) (a b n rs : SReg) (ag : AgId) (post : Option SemId), s.runs c g →
    let k := s.cores[c]
    let src := storeAddr (k.regs.sget a).toNat
    let dst := storeAddr (k.regs.sget b).toNat
    let len := (k.regs.sget n).toNat
    (semClassOk k.seg.isOpen post = true →
      exec (.dCopy c g a b n post) s =
        .next (if 32 ≤ k.outstanding then s.stalled c
        else if copyOk (k.regs.sget a).toNat (k.regs.sget b).toNat len then
          s.issued c (k.addOp post [(src, len)] [(dst, len)] (.copy src dst len)) .seq
        else s.coreFault c 11 k.regs.pc)) ∧
    (semClassOk k.seg.isOpen post = false → exec (.dCopy c g a b n post) s = .next (s.coreFault c 10 k.regs.pc)) ∧
    (∀ x, agDescAt k.store (k.regs.sget rs).toNat = x →
      exec (.dAgld c g ag rs) s =
        .next (if agDescOk x then
          s.issued c (if (k.ags[ag]).active then k.agClash s.free ag
            else k.setAg ag { k.ags[ag] with desc := x, taken := 0, base := 0 }) .seq
        else s.coreFault c 1 k.regs.pc)) ∧
    (k.seg.isOpen = false → semClassOk false post = true →
      let y := storeLe k.store (k.regs.sget rs).toNat 16
      let first := (imemDesc y).2.1
      let cnt := (imemDesc y).2.2.1
      exec (.dImem c g rs post) s = .next (if 32 ≤ k.outstanding then s.stalled c
        else if imemOk y then (s.atIssue c).updCore c fun x =>
          { x.addOp post [] [] (.imem (imemDesc y).1 first cnt (s.descAddr c rs)) with
            imem := { x.imem with image := none, wild := x.imem.wild || (decide (cnt ≠ 0) && x.imemInUse first cnt) } }
        else s.coreFault c 11 k.regs.pc)) ∧
    (k.seg.isOpen = false → semClassOk false post = false → exec (.dImem c g rs post) s = .next (s.coreFault c 10 k.regs.pc)) ∧
    (k.seg.isOpen = true → exec (.dImem c g rs post) s = .next (s.coreFault c 7 k.regs.pc))

/-- Completion of copies, instruction loads and remote posts (R54, R55, R63, R64, R519, R41). -/
def Obligations.MoveCompletions : Prop :=
  ∀ (s : State) (c : CoreId) (op : Nat) (o : Op), s.vcoreOn = true → s.cores[c].ctl.enabled = true → s.cores[c].opAt op = some o →
    (∀ src dst len, o.body = .copy src dst len →
      let bs := storeRead s.cores[c].store src len
      (src = dst ∨ overlaps src len dst len = false → exec (.dCopyComplete c op) s = .next ((s.writeStoreOf c o.id dst bs).endOp c o)) ∧
      (src ≠ dst → overlaps src len dst len = true →
        exec (.dCopyComplete c op) s = .next ((s.writeStoreOf c o.id dst (freeBytes s.free bs.length)).endOp c o))) ∧
    (∀ src first n addr, o.body = .imem src first n addr →
      exec (.imemLoadComplete c op) s = .next ((s.loadBundles c src first addr (List.range n)).endOp c o)) ∧
    (∀ v sem n, o.body = .postr v sem n →
      exec (.remotePostDeliver c op) s = .next (if s.postrReady c op v then ((s.updCore c fun x => x.dropOp op).postVcid v sem n).2 else s))

/-- d.xfer enters a transfer and moves its data (R54, R187, R188, R190, R191, R192, R61, R68). -/
def Obligations.TransfersEnter : Prop :=
  ∀ (s : State) (c : CoreId) (g : Guard) (rs : SReg) (post : Option SemId), s.runs c g →
    let k := s.cores[c]
    let d := s.xdesc c rs
    let own := k.seq
    let a := s.atIssue c
    let e := a.entersXfer c (s.descAddr c rs) post
    let each := fun (n : Nat) (i : Instr) => d.op = n →
      (k.seg.isOpen = true → exec i s = .next (s.coreFault c 7 k.regs.pc)) ∧
      (k.seg.isOpen = false → semClassOk false post = false → exec i s = .next (s.coreFault c 10 k.regs.pc)) ∧
      (k.seg.isOpen = false → semClassOk false post = true → 32 ≤ k.outstanding → exec i s = .next (s.stalled c)) ∧
      (s.mayStart c g post → exec i s = .next (a.startXfer c (s.descAddr c rs) post) ∧
        ((d.ok = false ∨ d.total = 0) → exec i s = .next e))
    each 0 (.xferCopy c g rs post) ∧ each 1 (.xferFill c g rs post) ∧ each 2 (.xferWback c g rs post) ∧ each 3 (.xferWarm c g rs post) ∧
    (s.mayStart c g post → d.ok = true → d.total ≠ 0 →
      (d.op = 2 → exec (.xferWback c g rs post) s =
        .next ((e.wbackRows (e.sideRanges c d true)).2.2.setXfer c own 0 (e.wbackRows (e.sideRanges c d true)).1
          (e.wbackRows (e.sideRanges c d true)).2.1)) ∧
      (d.op = 3 → exec (.xferWarm c g rs post) s = .next (if e.isRemote d.sspace d.srcExt then e.readPieces c own d d.pieces
        else (e.warmRows (e.sideRanges c d false)).2.2.setXfer c own 0 (e.warmRows (e.sideRanges c d false)).1
          (e.warmRows (e.sideRanges c d false)).2.1)) ∧
      (let p := (e.xferChunks c d).foldl (fun p x => XProg.chunk c own d p x.1 x.2) ⟨e, 0, stOk, 0, 0, e.copyOverlaps c d⟩
        let q := d.pieces.foldl (State.sendPieces c own d) ⟨e, 0, stOk, 0, 0, false⟩
        let t := if e.isRemote d.dspace d.dstExt then q.st.failXfer c own 0 q.code q.bad else p.st.setXfer c own p.done p.code p.bad
        (d.op = 0 → exec (.xferCopy c g rs post) s = .next (if e.isRemote d.sspace d.srcExt then e.readPieces c own d d.pieces else t)) ∧
        (d.op = 1 → exec (.xferFill c g rs post) s = .next t)))

/-- A transfer ends with its status word, its log record and its post (R190, R191, R182, R63, R352). -/
def Obligations.TransferCompletes : Prop :=
  ∀ (s : State) (c : CoreId) (op : Nat) (o : Op) (raw : List Byte) (addr done code bad : Nat),
    s.vcoreOn = true → s.cores[c].ctl.enabled = true → s.cores[c].opAt op = some o → o.body = .xfer raw addr done code bad →
    let d := XDesc.mk raw
    ((s.waitsNet c op = true ∨ s.xferHeld c d = true) → exec (.xferComplete c op) s = .next s) ∧
    (s.waitsNet c op = false → s.xferHeld c d = false →
      let w := if d.wb && d.ok && decide (d.op ≤ 1) then
          (s.sideRanges c d true).foldl (fun s x => match x.1 with | .mem a => { s with mem := s.mem.writeBack a x.2 } | _ => s) s
        else s
      let t := if code = stOk then w else w.event (qpProc (w.dispatchQp (vatOf c))) 0 2 [code, addr, w.cores[c].ctl.vcid.toNat, bad]
      let u := if d.statusw then t.writeStoreOf c o.id (storeAddr d.statusAddr) (toLe 8 code ++ toLe 8 done) else t
      exec (.xferComplete c op) s = .next (u.endOp c o)) ∧
    (s.waitsNet c op = false → s.xferHeld c d = false → d.wb = false → code = stOk → d.statusw = false →
      exec (.xferComplete c op) s = .next (s.endOp c o))

/-- Core-store errors, hangs, stalls and corrected errors (R65, R466, R468, R469, R76, R77). -/
def Obligations.CoreErrorEvents : Prop :=
  ∀ (s : State) (c : CoreId),
    let k := s.cores[c]
    (∀ (w : Nat) (passes : Bool), s.coreOn c = true →
      let t : State := { s with ras := { s.ras with csUe := s.ras.csUe + 1 } }
      let t := if k.ctl.run then t.eccFault c else t
      let at' := 16 * (w % (storeBytes / 16))
      let u := t.updCore c fun y => { y with store := storePut y.store at' (List.replicate 16 0), ctl := { y.ctl with ueStep := y.ctl.ueStep + 1 } }
      exec (.storeEcc c w passes) s = .next (if passes = false ∨ 0 < k.ctl.ueStep then u.fence c true 466
        else match k.ctl.item with
          | none => u
          | some i => if i.norestart || k.cmb.sentAny then u.failStep 466
            else let v := u.withCore c u.cores[c].endAbrupt.sendTel
              { v with job := { v.job with moved := v.job.moved ++ [(c.val, i)] } })) ∧
    (s.coreOn c = true → k.ctl.run = true →
      exec (.coreHang c) s = .next ((s.updCore c fun y => { y with ctl := { y.ctl with hung := true } }).fence c false 466)) ∧
    (∀ sem : SemId, s.coreOn c = true → k.ctl.run = true → k.ctl.waiting = true →
      exec (.coreStall c sem) s = .next ((s.event (qpProc (s.dispatchQp (vatOf c))) 13 2
        [k.ctl.vcid.toNat, sem.val, k.regs.pc, (Config.fresh s.free).toNat]).drawn 1)) ∧
    (s.coreOn c = true → ∀ past : Bool, ∃ t, exec (.csCorrectedError c past) s = .next t ∧ t.ras.csCe = s.ras.csCe + 1 ∧
      (t.cores[c]).ctl.ceTotal = k.ctl.ceTotal + 1 ∧ (past = true → c.val ∈ t.job.fenceDue) ∧
      (past = false → t.job.fenceDue = s.job.fenceDue)) ∧
    (∀ (pc : Fin 1024) (past : Bool), s.running = true → s.mem.isRetired pc.val = false →
      let t : State := { s with ras := { s.ras with hbmCe := s.ras.hbmCe + 1 } }
      exec (.hbmCorrectedError pc past) s = .next (if past then t.markChannel pc.val 1 else t)) ∧
    (∀ addr, s.running = true →
      let m := { s.mem with uncorr := (addr / 128) :: s.mem.uncorr.filter (· ≠ addr / 128) }
      (∀ kind dom, s.place addr = .hbm kind dom →
        let ch := m.channelAt dom addr
        let ue := if s.ras.pcUe.contains (ch, addr / 256) then s.ras.pcUe else s.ras.pcUe ++ [(ch, addr / 256)]
        let t : State := { s with mem := m, ras := { s.ras with hbmUe := s.ras.hbmUe + 1, pcUe := ue } }
        exec (.hbmUncorr addr) s = .next ((if s.ras.pcUe.any fun x => x.1 = ch && x.2 ≠ addr / 256 then t.markChannel ch 0 else t).uncorrEffect kind addr)) ∧
      (∀ p, s.place addr = .cave p →
        let t : State := { s with mem := m, cave := { s.cave with poison := s.cave.poison + 1 } }
        exec (.hbmUncorr addr) s = .next (t.uncorrEffect (t.caveKind addr) addr)))

/-- e.gather, e.desc, e.dispatch, e.collect, e.scatter and e.flush (R198, R205, R217, R222, R231, R54, R55, R61, R68). -/
def Obligations.EmbeddingCommandsEnter : Prop :=
  ∀ (s : State) (c : CoreId) (g : Guard) (rs : SReg) (post : Option SemId),
    let k := s.cores[c]
    let a := s.atIssue c
    let addr := s.descAddr c rs
    let raw := storeRead k.store addr 64
    let t := TDesc.mk raw
    let put := if t.ok then ({ a with mem := a.mem.write (a.descBase + 64 * t.id) t.raw }).dropReplicas t.id else a
    (∀ i ∈ [Instr.eGather c g rs post, .eDesc c g rs post, .eDispatch c g rs post, .eCollect c g rs post, .eScatter c g rs post, .eFlush c g rs post],
      s.runs c g →
      (k.seg.isOpen = true → exec i s = .next (s.coreFault c 7 k.regs.pc)) ∧
      (k.seg.isOpen = false → semClassOk false post = false → exec i s = .next (s.coreFault c 10 k.regs.pc)) ∧
      (k.seg.isOpen = false → semClassOk false post = true → 32 ≤ k.outstanding → exec i s = .next (s.stalled c))) ∧
    (s.mayStart c g post →
      exec (.eGather c g rs post) s = .next (a.startGather c addr post) ∧
      exec (.eDispatch c g rs post) s = .next (a.startDispatch c addr post) ∧
      exec (.eCollect c g rs post) s = .next (a.startCollect c addr post) ∧
      exec (.eScatter c g rs post) s = .next (a.startScatter c addr post) ∧
      exec (.eFlush c g rs post) s = .next (a.startFlush c addr post) ∧
      exec (.eDesc c g rs post) s = .next (((put.writeStoreOf c 0 (storeAddr (addr + 64))
        (toLe 8 (if t.ok then stOk else stBadDesc) ++ toLe 8 (if t.ok then 64 else 0))).updCore c
          fun x => { x with seq := x.seq + 1 }).completionPost c post) ∧
      ((GReq.mk raw).ok = false → ∃ u, exec (.eGather c g rs post) s = .next u ∧
        (∃ x, u.gathers = s.gathers ++ [x] ∧ x.code = stBadDesc ∧ x.noOutput = true ∧ x.core = c.val)) ∧
      (∃ u, exec (.eGather c g rs post) s = .next u ∧ ∃ x ∈ u.gathers, x.core = c.val ∧ x.op = k.seq ∧
        (s.gatherOf c.val k.seq = none → x.req = raw)) ∧
      (((RDesc.mk raw).ok = false ∨ ∀ w ∈ (RDesc.mk raw).writes k.store, w.1.faddr = s.fab.faddr.toNat) →
        ∃ rd wr, exec (.eDispatch c g rs post) s = .next (a.updCore c fun x => x.addOp post rd wr (.dispatch raw))) ∧
      (((RDesc.mk raw).ok = false ∨ ∀ p ∈ (RDesc.mk raw).picks k.store, p.2.2.1.faddr = s.fab.faddr.toNat) →
        ∃ rd wr, exec (.eCollect c g rs post) s = .next (a.updCore c fun x => x.addOp post rd wr (.collect raw))))

/-- Completion of gathers, routings, scatters and flushes (R199, R207, R210, R218, R219, R227, R233). -/
def Obligations.EmbeddingCompletions : Prop :=
  ∀ (s : State) (c : CoreId) (op : Nat) (o : Op), s.vcoreOn = true → s.cores[c].ctl.enabled = true → s.cores[c].opAt op = some o →
    let k := s.cores[c]
    (∀ resp record, o.body = .scatter resp record →
      exec (.scatterComplete c op) s = .next (if k.cmbTurn o then (s.writeStoreOf c o.id resp record).endCmb c o else s)) ∧
    (∀ f, o.body = .flush f →
      exec (.flushComplete c op) s = .next (if f.pend = 0 ∧ f.auto = false ∧ k.cmbTurn o = true then
        ((s.flushReport c f).writeStoreOf c o.id f.resp f.bytes).endCmb c o else s)) ∧
    (∀ raw lead x, o.body = .gather raw lead → (s.gathers.find? fun g => g.core = c.val && g.op = op) = some x →
      let d := GReq.mk x.req
      let outs := if x.noOutput then [] else x.bags.zipIdx.map fun b =>
        let bs := encodeRow d.ofmt (unitMode x.round (s.free + x.dim * (b.2 + 1)))
          (if b.1.rejected then List.replicate x.dim 0#32 else x.pooled (s.free + x.dim * b.2) b.1)
        (d.out + b.2 * d.ostride, if s.isWild x.table then freeBytes (s.free + 4096 * b.2) bs.length else bs)
      let t := s.storeAll c o.id (outs ++ (if d.ok || decide (x.code = stBadDesc) then [(d.resp % storeBytes, x.record outs.length)] else []))
      let done : State := { t with gathers := t.gathers.filter fun y => !(y.core = x.core && y.op = x.op) }
      let u := done.drawn ((x.dim + 4096) * (x.bags.length + 2))
      ((x.pend ≠ [] ∨ x.allSent k.store = false) → exec (.gatherComplete c op) s = .next s) ∧
      (x.pend = [] → x.allSent k.store = true → exec (.gatherComplete c op) s =
        .next ((if x.code = stOk then u else u.event (qpProc (u.dispatchQp (vatOf c))) 4 1
          [x.code, x.table, u.cores[c].ctl.vcid.toNat, (x.fail.map (·.2)).getD 0]).endOp c o))) ∧
    (∀ raw, o.body = .dispatch raw → s.waitsNet c op = true → exec (.dispatchComplete c op) s = .next s) ∧
    (∀ raw, o.body = .dispatch raw → s.waitsNet c op = false →
      let d := RDesc.mk raw
      exec (.dispatchComplete c op) s = .next ((s.dropReqs c op).finishDispatch c o raw (s.netResult c op).1) ∧
      (d.ok = true → (s.netResult c op).1 = stOk → (∀ w ∈ d.writes k.store, w.1.faddr ≠ s.fab.faddr.toNat) →
        let rmap := ((d.assign k.store).1.map fun a => match a with | some (e, row) => toLe 2 e ++ toLe 2 row | none => toLe 4 0xffffffff).flatten
        let n := (d.writes k.store).foldl (fun a w => a + w.2.foldl (fun a b => a + b.2.length) 0) 0
        let t := (s.dropReqs c op).storeAll c o.id [(d.rmap, rmap), (storeAddr d.status, toLe 8 stOk ++ toLe 8 n)]
        let li := Fin.ofNat 4 (leadOf c 4)
        let e := t.emb[li]
        let u : State := { t with emb := t.emb.set li { e with dispDrop := e.dispDrop + BitVec.ofNat 64 (d.assign k.store).2.length } }
        exec (.dispatchComplete c op) s = .next (u.endOp c o)) ∧
      (d.ok = false →
        let t := (s.dropReqs c op).storeAll c o.id [(storeAddr d.status, toLe 8 stBadDesc ++ toLe 8 0)]
        ∃ e : Vector EmbSt 4, exec (.dispatchComplete c op) s = .next (({ t with emb := e }).endOp c o))) ∧
    (∀ raw, o.body = .collect raw → s.waitsNet c op = true → exec (.collectComplete c op) s = .next s) ∧
    (∀ raw, o.body = .collect raw → s.waitsNet c op = false →
      let d := RDesc.mk raw
      let m := k.store
      exec (.collectComplete c op) s =
        .next ((s.dropReqs c op).finishCollect c o raw (s.netResult c op).1 (s.netResult c op).2) ∧
      (d.ok = true → (s.netResult c op).1 = stOk → (∀ p ∈ d.picks m, p.2.2.1.faddr ≠ s.fab.faddr.toNat) →
        let rowOf := fun (i : Nat) => Cells.read (s.netResult c op).2 (i * d.pitch d.yfmt) (d.tdim * routeSize d.yfmt)
        let outs := (List.range d.ntok).map fun n =>
          let vs := ((d.picks m).zipIdx.filter fun p => p.1.1 = n).map fun p => (decodeRow d.yfmt d.tdim (rowOf p.2)).map (fmul p.1.2.1)
          (d.trows + n * d.tstride,
            encodeRow d.tfmt (unitMode k.num.round (s.free + d.tdim * n)) (freeSumVec fadd (s.free + d.tdim * n) d.tdim vs))
        let t := (s.dropReqs c op).storeAll c o.id (outs ++ [(storeAddr d.status, toLe 8 stOk ++ toLe 8 (outs.foldl (fun a w => a + w.2.length) 0))])
        exec (.collectComplete c op) s = .next ((t.drawn (d.tdim * (d.ntok + 1))).endOp c o)) ∧
      (d.ok = false →
        let t := (s.dropReqs c op).storeAll c o.id [(storeAddr d.status, toLe 8 stBadDesc ++ toLe 8 0)]
        exec (.collectComplete c op) s = .next ((t.drawn (d.tdim * (d.ntok + 1))).endOp c o)))

/-- Dispatch and end of a work item (R73, R74, R75, R76, R110, R158, R227). -/
def Obligations.WorkItemLifecycle : Prop :=
  ∀ (s : State) (c : CoreId),
    let k := s.cores[c]
    (∀ w : WorkItem, s.vcoreOn = true → s.pwr.protect = none → k.ctl.enabled = true → k.ctl.fenced = false →
      k.ctl.hung = false → k.ctl.run = false → s.job.state = 2 → s.job.stopDispatch = false →
      s.ras.dieResetting ≠ some (vatOf c).val → s.procUp (qpProc (s.dispatchQp (vatOf c))) = true → s.mayRun c w.vcid = true →
      let u : State := { s with pwr := { s.pwr with gated := s.pwr.gated.set (vatOf c) false },
                                job := { s.job with moved := s.job.moved.filter fun m => !(m.1 = c.val && m.2.id = w.id) } }
      let v := if k.ctl.standIn = some w.vcid then u.swapMailbox c (u.ownVcid c) w.vcid else u
      let seed := ((s.job.cfg.map (·.seed)).getD 0) ^^^ BitVec.ofNat 64 (w.vcid * 0x9e3779b9)
      let y := v.cores[c].startItem w v.job.vcids.length v.job.mapEpoch v.job.step ((s.job.cfg.map (·.round)).getD false) seed
      let z := if y.imem.image = some w.image then y
        else { y with imem := ⟨Cells.putDense [] 0 w.bundles, w.bundles.length, [], some w.image, false⟩ }
      exec (.workItemDispatch c w) s = .next (v.setCore c z) ∧
      z.ctl.run = true ∧ z.ctl.fault = false ∧ z.ctl.vcid = BitVec.ofNat 64 w.vcid ∧ z.regs.pc = w.entry.toNat ∧ z.imem.image = some w.image ∧
      z.regs.sget 1 = w.argAddr.setWidth 64 ∧ z.regs.sget 2 = BitVec.ofNat 64 w.vcid ∧
      z.regs.sget 3 = BitVec.ofNat 64 v.job.vcids.length ∧ z.regs.sget 4 = v.job.step ∧ z.regs.sget 5 = 0#64 ∧
      (∀ r : VReg, ∀ l, z.regs.lane r.val l = 0#32) ∧ (∀ i : SemId, i.val < 40 → z.regs.sem[i] = 0#16) ∧
      (∀ i : SemId, 40 ≤ i.val → z.regs.sem[i] = v.cores[c].regs.sem[i]) ∧ z.regs.acc = v.cores[c].regs.acc ∧
      z.store = storePut v.cores[c].store w.argAddr.toNat w.args ∧
      (k.ctl.standIn ≠ some w.vcid → v.cores = s.cores ∧ v.mem = s.mem ∧ v.job.step = s.job.step ∧ v.job.vcids = s.job.vcids)) ∧
    (s.coreOn c = true → k.ctl.run = true → k.ctl.fault = true →
      exec (.workItemEnd c) s = .next (s.closeItem c k.endAbrupt) ∧
      k.endAbrupt.ctl.run = false ∧ k.endAbrupt.ctl.item = none ∧ k.endAbrupt.cmb.entries = [] ∧
      k.endAbrupt.cmb.discard = BitVec.ofNat 64 k.cmb.entries.length) ∧
    (s.coreOn c = true → k.ctl.run = true → k.ctl.fault = false → k.ctl.halting = false → exec (.workItemEnd c) s = .next s) ∧
    (∀ o f, s.coreOn c = true → k.ctl.run = true → k.ctl.fault = false → k.ctl.halting = true →
      k.vec.chains = [] → k.arr.passes = [] → k.arr.loads = [] → k.ops = [o] → o.body = .flush f → f.auto = true →
      (0 < f.pend → exec (.workItemEnd c) s = .next s) ∧
      (f.pend = 0 →
        let t := s.finishFlush c o f
        let x := t.cores[c]
        exec (.workItemEnd c) s = .next (t.closeItem c { x with
          ctl := { x.ctl with run := false, waiting := false, halting := false, item := none },
          seg := { SegSt.zero with id := x.seg.id }, arr := { x.arr with warm := false }, cmb := { x.cmb with discard := 0 } })))

/-- Sub-requests, partial responses, gradient packets, acknowledgements and bank clears (R207, R208, R209, R232, R233, R237, R241, R287, R289). -/
def Obligations.PoolingAndGradientPackets : Prop :=
  ∀ (s : State) (k : Nat), s.running = true →
    (∀ m, s.gsubs[k]? = some m →
      let a : State := { s with gsubs := s.gsubs.eraseIdx k }
      let r := (a.serveSub m).1
      let t := (a.serveSub m).2
      exec (.gsub false k) s = .next (if firstOfCellar (s.gsubs.take k) m then { t with gparts := t.gparts ++ [r] } else s)) ∧
    (∀ p m, s.holdsPacket k p → p.msg = .gsub m →
      let r := ((s.takeDeliv k).serveSub m).1
      let t := ((s.takeDeliv k).serveSub m).2
      exec (.gsub true k) s = .next (if firstOfCellar (gsubsOf (s.fab.deliv.take k)) m then
        t.sendMsg (p.respond t.fab.faddr.toNat stOk (.gpart r)) else s)) ∧
    (∀ m, s.gparts[k]? = some m → exec (.gpart false k) s = .next ((({ s with gparts := s.gparts.eraseIdx k }).addPart m).freeLocal fun r =>
      match r.msg with
      | .gsub x => x.core = m.core && x.op = m.op && x.chunk = m.chunk && x.shard = m.shard && x.home = m.home && x.cellar = m.cellar
      | _ => false)) ∧
    (∀ p i, s.holdsPacket k p → (p.msg.typ = 0x11 ∧ i = .gpart true k ∨ p.msg.typ = 0x13 ∧ i = .flushAck true k) →
      ((s.takeDeliv k).fab.reqOf p = none → exec i s = .next (s.takeDeliv k).lateResp) ∧
      (∀ r, (s.takeDeliv k).fab.reqOf p = some r → exec i s = .next ((s.takeDeliv k).respondTo r p))) ∧
    (∀ p, s.fab.deliv[k]? = some p → p.crcOk = false →
      (p.msg.typ = 0x11 → exec (.gpart true k) s = .next (s.takeDeliv k).badPacket) ∧
      (p.msg.typ = 0x13 → exec (.flushAck true k) s = .next (s.takeDeliv k).badPacket) ∧
      (∀ m, p.msg = .gsub m → exec (.gsub true k) s = .next (s.takeDeliv k).badPacket) ∧
      (∀ q, p.msg = .flush q → exec (.flush true k) s = .next (s.takeDeliv k).badPacket)) ∧
    (∀ p, s.grads[k]? = some p →
      let v := s.applyGrad (Fin.ofNat 4 p.cellar) p
      (∀ r, v.1 = some r → exec (.flush false k) s = .next (({ v.2 with grads := v.2.grads.eraseIdx k }).answerGrad p none r.1 r.2)) ∧
      (v.1 = none → exec (.flush false k) s = .next v.2)) ∧
    (∀ q p, s.holdsPacket k q → q.msg = .flush p →
      let v := s.applyGrad (Fin.ofNat 4 p.cellar) p
      (∀ r, v.1 = some r → exec (.flush true k) s = .next ((v.2.takeDeliv k).answerGrad p (some q) r.1 r.2)) ∧
      (v.1 = none → exec (.flush true k) s = .next v.2)) ∧
    (∀ a, s.gacks[k]? = some a → exec (.flushAck false k) s = .next ((({ s with gacks := s.gacks.eraseIdx k }).ackGrad a).freeLocal fun r =>
      match r.msg with
      | .flush p => p.core = a.core && p.op = a.op && p.table = a.table && p.owner = a.owner && p.cellar = a.cellar
      | _ => false)) ∧
    (∀ (n : CelId) (b : Fin 2), (s.press[n].banks[b]).clearing = true →
      let x := s.press[n]
      let m := s.mem.zeroRange (x.hbmPart b).index (16 * (x.hbmPart b).slots)
      let m := if s.spillOk n then m.zeroRange (x.cavePart b).index (16 * (x.cavePart b).slots) else m
      exec (.bankClearDone n b) s = .next { s with mem := m, press := s.press.set n { x with banks := x.banks.set b GBank.zero } })

/-- Which gradient packets Press turns away (R237, R240, R241, R233). -/
def Obligations.GradientPacketVerdict : Prop :=
  ∀ (s : State) (n : CelId) (p : GradPacket),
    let cur := s.job.step.toNat % 2 ^ 32
    let bk := s.press[n].banks[bankOf p.step]
    let timely := (p.step = cur ∧ ¬ (bk.isSealed = true ∧ bk.step = p.step)) ∨ p.step = (cur + 1) % 2 ^ 32
    ((s.tdesc p.table).version ≠ p.version →
      (s.applyGrad n p).1 = some (7, p.entries.length) ∧
      (s.applyGrad n p).2.press[n].stale = s.press[n].stale + BitVec.ofNat 64 p.entries.length ∧ (s.applyGrad n p).2.mem = s.mem) ∧
    ((s.tdesc p.table).version = p.version → ¬ timely →
      (s.applyGrad n p).1 = some (12, p.entries.length) ∧
      (s.applyGrad n p).2.press[n].late = s.press[n].late + BitVec.ofNat 64 p.entries.length ∧ (s.applyGrad n p).2.mem = s.mem) ∧
    ((s.tdesc p.table).version = p.version → timely → (bk.clearing = true ∨ (bk.isSealed = true ∧ bk.step ≠ p.step)) →
      s.applyGrad n p = (none, s)) ∧
    ((s.tdesc p.table).version = p.version → timely → bk.clearing = false → (bk.isSealed = true → bk.step = p.step) →
      ∃ code rej, (s.applyGrad n p).1 = some (code, rej) ∧ (code = 0 ↔ rej = 0) ∧ (code ≠ 0 → code = 13))

/-- The update unit: worklist, tensors, sweeps, stop, recovery and scrub (R253, R255, R257, R260, R261, R262, R265, R267, R269). -/
def Obligations.UpdateUnitCommands : Prop :=
  ∀ (s : State) (n : CelId),
    let u := s.upd[n]
    (s.vcoreOn = true → s.job.phase = 4 → (s.press[n].banks[bankOf s.job.step.toNat]).isSealed = true → u.workReady = false →
      let ks := s.sortedKeys n s.job.step.toNat
      exec (.worklistReady n) s = .next { s with mem := s.mem.write u.workBase ((ks.map workBytes).flatten),
                                                 upd := s.upd.set n { u with workReady := true, work := ks.length } }) ∧
    (u.stopReq = true → u.stopped = false →
      exec (.updateStop n) s = .next { s with upd := s.upd.set n { u with stopped := true, stopReq := false } }) ∧
    (s.vcoreOn = true → s.jobLoaded = true → u.stopReq = false → u.run = none →
      exec (.journalRecovery n) s =
        .next (((s.job.upds.map (·.table)).foldl (fun s t => s.recoverTensor n t) s).releaseRecovered).payState) ∧
    (s.vcoreOn = true → u.stopReq = false → u.stopped = false →
      (s.job.state = 2 → 1 ≤ s.job.phase → u.run = none → s.procUp (qpProc (s.servingQp n.val)) = true →
        (s.nextTensor n = none → exec (.updateTensorStart n) s = .next s) ∧
        (∀ e, s.nextTensor n = some e →
          let a := if s.updating e.table && decide (s.journalStep e.table = s.job.step.toNat % 2 ^ 32) then s
            else s.openJournal e s.job.step.toNat s.job.scale.exp
          let r : UpdRun := ⟨e, s.job.step.toNat, a.header (a.journalAt e.table) 8 1, a.runGroups n e s.job.step.toNat, 0, 0, 0, 0, false⟩
          let b : State := { a with upd := a.upd.set n { a.upd[n] with run := some r } }
          exec (.updateTensorStart n) s = .next (if r.groups ≠ [] then b
            else if b.wideTrust e.table then b.formNorms e.table else (b.finishTensor n e.table).payState))) ∧
      (∀ r, u.run = some r →
        let tab := r.entry.table
        let wide := s.wideTrust tab
        (∀ g, (wide = true ∨ r.done1 = r.done2) → r.groups[r.done1]? = some g →
          let x := s.sweep1 (s.updCtx n r) g
          let r' := { r with done1 := r.done1 + 1, w2 := if wide then fadd r.w2 (sumSq x.2.1) else r.w2,
                             r2 := if wide then fadd r.r2 (sumSq x.2.2) else r.r2 }
          let t := ({ x.1 with upd := x.1.upd.set n { x.1.upd[n] with run := some r', busy := Config.fresh x.1.free } } : State).drawn 2
          exec (.updSweep1 n) s = .next (if wide then t.formNorms tab else t)) ∧
        (∀ g, (wide = false ∨ s.journalState tab = 2) → r.done2 < r.done1 → r.groups[r.done2]? = some g →
          let x := s.sweep2 (s.updCtx n r) g (s.widePhi tab)
          let t := ({ x with upd := x.upd.set n { x.upd[n] with run := some { r with done2 := r.done2 + 1 }, busy := Config.fresh x.free } } : State).drawn 1
          exec (.updSweep2 n) s = .next (if r.done2 + 1 = r.groups.length then (t.finishTensor n tab).payState else t)) ∧
        (wide = true → s.journalState tab = 2 → r.groups = [] → exec (.updSweep2 n) s = .next (s.finishTensor n tab).payState)) ∧
      (s.jobLoaded = true → bits u.cfg.toNat 15 0 ≠ 0 → s.scrubTables ≠ [] →
        let i := u.scrubTab % max 1 s.scrubTables.length
        let tab := (s.scrubTables[i]?).getD 0
        let past : State := { s with upd := s.upd.set n { u with scrubTab := (i + 1) % max 1 s.scrubTables.length, scrubGrp := 0, scrubHits := 0 } }
        ((s.openTensor tab = true ∨ (s.scrubGroups n tab)[u.scrubGrp]? = none) → exec (.scrubGroup n) s = .next past) ∧
        (∀ g, s.openTensor tab = false → (s.scrubGroups n tab)[u.scrubGrp]? = some g →
          let x := s.scrubGroup n tab g
          let hits := u.scrubHits + x.1
          let t : State := { x.2 with upd := x.2.upd.set n { x.2.upd[n] with scrubTab := (i + 1) % max 1 s.scrubTables.length, scrubGrp := 0, scrubHits := 0 } }
          exec (.scrubGroup n) s = .next (if u.scrubGrp + 1 < (s.scrubGroups n tab).length then
              { x.2 with upd := x.2.upd.set n { x.2.upd[n] with scrubGrp := u.scrubGrp + 1, scrubHits := hits } }
            else if hits = 0 then t else t.event (qpProc (t.servingQp n.val)) 6 4 [tab, hits]))))

/-- MEM_COMMIT and the end of a counting window (R168, R171, R193, R194, R521). -/
def Obligations.MemoryConfigurationCommit : Prop :=
  ∀ (s : State), (
    let m := s.mem.cfg
    let st := commitStatus m.shadow m.pinShadow m.cap s.jobLoaded
    s.pwr.pstate ≤ 3 →
    (st ≠ 0 → exec .memCommit s = .next { s with mem := { s.mem with cfg := { m with status := BitVec.ofNat 64 st } } }) ∧
    (st = 0 → ∃ t, exec .memCommit s = .next t ∧ t.mem.cfg.table = m.shadow ∧ t.mem.cfg.pin = m.pinShadow ∧
      t.mem.cfg.caveMask = m.caveShadow ∧ t.mem.cfg.status = 0 ∧ t.cores = s.cores ∧ t.job = s.job ∧ t.fab = s.fab)) ∧
    (s.running = true → ∀ (n : CelId) (a b : Nat),
      let w := s.mem.stat[n]
      let ratio := w.ratio (s.mem.liveChannels n.val).length a
      let pc := w.busyPc b
      let hot := decide (w.hotThr.toNat < ratio)
      let imbal := BitVec.ofNat 64 (ratio + 2 ^ 16 * pc + bitAt hot 24)
      let x := { w with imbal := imbal, win := w.winNext, ltagPeak := w.ltagNow, ltagNow := s.fab.tagsUsed n.val, reqs := [] }
      let t := ({ s with mem := { s.mem with stat := s.mem.stat.set n x } } : State)
      exec (.hbmWindowEnd n a b) s = .next (if hot then t.event procMP 0 4 [n.val, ratio, pc] else t))

/-- A byte of memory reads as last written, every other byte as before (R163, R166). -/
def Obligations.MemoryReadsWhatWasWritten : Prop :=
  ∀ (m : MemSt) (a : Nat) (bs : List Byte), Cells.wf m.bytes = true →
    Cells.wf (m.write a bs).bytes = true ∧ (m.write a bs).host = m.host ∧
    (∀ i (h : i < bs.length), (m.write a bs).byteAt (a + i) = bs[i]) ∧
    (∀ b, b < a ∨ a + bs.length ≤ b → (m.write a bs).byteAt b = m.byteAt b) ∧
    (∀ l, l ∈ (m.write a bs).uncorr ↔ l ∈ m.uncorr ∧ ¬ (a ≤ 128 * l ∧ 128 * l + 128 ≤ a + bs.length))

/-- Each collective is issued by a core slot or by a queue processor (R317, R318, R321, R54, R55, R61, R68). -/
def Obligations.CollectivesIssue : Prop :=
  ∀ (s : State) (i : Nat) (cmd : CollSrc → Instr),
    (i, cmd) ∈ [(0, Instr.allreduce), (1, Instr.reduceScatter), (2, Instr.allgather), (3, Instr.alltoall), (4, Instr.alltoallv),
      (5, Instr.permute), (6, Instr.multicast), (7, Instr.barrier), (8, Instr.sgather)] →
    (∀ (n : Nat) (d : List Byte), s.running = true → s.procUp (qpProc n) = true → d.length = 64 →
      ((CDesc.mk d).op = i → exec (cmd (.qp n d)) s = .next (s.issueColl (.qp (n % 4)) d)) ∧
      ((CDesc.mk d).op ≠ i → exec (cmd (.qp n d)) s = .next s) ∧
      ((CDesc.mk d).op = i → (CDesc.mk d).ok = false → ∃ c t, exec (cmd (.qp n d)) s = .next t ∧ t.coll.colls = s.coll.colls ++ [c] ∧
        c.code = stBadDesc ∧ c.id = s.coll.nextId ∧ t.coll.nextId = s.coll.nextId + 1 ∧ t.coll.cseq = s.coll.cseq ∧ t.mem = s.mem)) ∧
    (∀ (c : CoreId) (g : Guard) (rs : SReg) (post : Option SemId), s.runs c g →
      let k := s.cores[c]
      let j := cmd (.core c g rs post)
      (CDesc.mk (storeRead k.store (s.descAddr c rs) 64)).op = i →
      (s.mayStart c g post → exec j s = .next ((s.atIssue c).startColl c (s.descAddr c rs) post)) ∧
      (k.seg.isOpen = true → exec j s = .next (s.coreFault c 7 k.regs.pc)) ∧
      (k.seg.isOpen = false → semClassOk false post = false → exec j s = .next (s.coreFault c 10 k.regs.pc)) ∧
      (k.seg.isOpen = false → semClassOk false post = true → 32 ≤ k.outstanding → exec j s = .next (s.stalled c)))

/-- Joins, data, credit, shard requests and replies, completion and time-outs of collectives (R287, R319, R320, R321, R322, R323, R329, R330, R331, R341, R343). -/
def Obligations.CollectiveMessages : Prop :=
  ∀ (s : State) (k : Nat), s.running = true →
    (∀ p comm cseq digest stamp credit counts, s.holdsPacket k p → p.msg = .coll comm cseq (.join digest stamp credit counts) →
      let t := (s.takeDeliv k).receiveStamp (qpProc ((s.takeDeliv k).servingQp p.srcCel)) stamp
      let j : CollJoin := ⟨comm, cseq, p.src, digest, credit, counts⟩
      exec (.collJoin k) s = .next (match t.collOf comm cseq with
        | some c => (t.takeJoin c.id j).advanceColl c.id
        | none => { t with coll := { t.coll with joins := t.coll.joins ++ [j] } })) ∧
    (∀ p comm cseq seg off total status bytes, s.holdsPacket k p → p.msg = .coll comm cseq (.data seg off total status bytes) →
      let t := s.takeDeliv k
      exec (.collData k) s = .next (if 65536 ≤ p.group ∧ p.mc = false then t.routeMc { p with mc := true, group := p.group - 65536 } none
        else match t.collOf comm cseq with
          | some c => t.takeData c p seg off total status bytes
          | none => t.badPacket)) ∧
    (∀ p comm cseq units, s.holdsPacket k p → p.msg = .collAck comm cseq (.ack units) → p.msg.typ = 0x21 →
      let t := (s.takeDeliv k).unackedSub comm cseq p.src units
      exec (.collAck k) s = .next (match t.collOf comm cseq with
        | some c => (t.setColl { c with peers := c.peers.map fun q => if q.faddr = p.src then { q with credit := q.credit + units } else q }).pushColl c.id
        | none => t)) ∧
    (∀ p, s.fab.deliv[k]? = some p → p.crcOk = false →
      (isJoin p.msg = true → exec (.collJoin k) s = .next (s.takeDeliv k).badPacket) ∧
      (isData p.msg = true → exec (.collData k) s = .next (s.takeDeliv k).badPacket) ∧
      (p.msg.typ = 0x21 → exec (.collAck k) s = .next (s.takeDeliv k).badPacket) ∧
      (isShardReq p.msg = true → exec (.collShardRequest true k) s = .next (s.takeDeliv k).badPacket) ∧
      (isShardReply p.msg = true → exec (.collShardReply true k) s = .next (s.takeDeliv k).badPacket)) ∧
    (∀ p, s.shardReqs[k]? = some p →
      let a := s.answerShard p
      exec (.collShardRequest false k) s = .next (match a.1 with
        | some r => { a.2 with shardReqs := a.2.shardReqs.eraseIdx k, shardReps := a.2.shardReps ++ [r] }
        | none => a.2)) ∧
    (∀ p, s.holdsPacket k p → isShardReq p.msg = true →
      let a := s.answerShard p
      exec (.collShardRequest true k) s = .next (match a.1 with
        | some r => (a.2.takeDeliv k).sendMsg r
        | none => a.2)) ∧
    (∀ p comm cseq table shard cel status uver rows, s.shardReps[k]? = some p →
      p.msg = .coll comm cseq (.shardReply table shard cel status uver rows) →
      exec (.collShardReply false k) s = .next (({ s with shardReps := s.shardReps.eraseIdx k }).takeShard
        p.tag p.src table shard cel status uver rows)) ∧
    (∀ p, s.holdsPacket k p → isShardReply p.msg = true →
      let t := s.takeDeliv k
      exec (.collShardReply true k) s = .next (match t.fab.reqOf p with | none => t.lateResp | some r => t.respondTo r p)) ∧
    (∀ (n : CelId) (table step : Nat),
      let e := s.collCel[n]
      exec (.leaseDeadline n table step) s = .next (match e.leases.find? fun l => l.table = table && l.step = step with
        | none => s
        | some l =>
          let t : State := { s with collCel := s.collCel.set n { e with leases := e.leases.erase l, expired := e.expired + 1 } }
          t.event (qpProc (t.servingQp n.val)) 7 2 [table, step, l.count])) ∧
    (∀ id c, s.collById id = some c →
      exec (.collJoinTimeout id) s = .next (if c.active && c.peers.any fun p => !p.joined then s.setColl (c.fail 0x0f) else s)) ∧
    (∀ (n : CelId) c, s.coll.colls.reverse.find? s.collWaits = some c →
      exec (.streamStall n false) s = .next (s.setColl (c.fail 0x10)) ∧
      ∃ t, exec (.streamStall n true) s = .next t ∧ (t.collCel[n]).spill = (s.collCel[n]).spill + 1) ∧
    (∀ id c, s.collById id = some c →
      exec (.collComplete id) s = .next (if s.collFinished c || decide (c.code = stBadDesc) then (s.finishColl c).afterColl c else s))

/-- A map switch: request, drain, vote, release, time-out; map load and commit (R263, R301, R302, R303, R304, R309). -/
def Obligations.MapSwitch : Prop :=
  ∀ (s : State),
    (∀ map : Fin 8, s.running = true → s.leader.isSome = true →
      exec (.mapSwitchRequest map) s = .next (s.requestSwitch map.val) ∧
      (s.fab.switch.isSome = true → exec (.mapSwitchRequest map) s = .next s) ∧
      (s.fab.switch = none → (s.fab.prom.running = true ∨ s.fab.prom.asking = true) →
        exec (.mapSwitchRequest map) s = .next { s with job := { s.job with mapWant := some map.val } }) ∧
      (s.fab.switch = none → s.fab.prom.running = false → s.fab.prom.asking = false → s.fab.heldSw = [] →
        ∃ t, exec (.mapSwitchRequest map) s = .next t ∧ t.fab.switch = some ⟨map.val, s.fab.mseq.toNat + 1, false, [], false⟩ ∧
          t.fab.mapCur = s.fab.mapCur ∧ t.mem = s.mem ∧ t.cores = s.cores)) ∧
    (∀ w, s.fab.switch = some w → s.running = true → w.drained = false →
      exec .mapSwitchDrained s = .next (if s.drainedNow then ({ s with fab := { s.fab with switch := some { w with drained := true } } }).tryVote else s)) ∧
    (∀ k p mseq map rel, s.holdsPacket k p → p.msg = .mapsw mseq map rel →
      (rel = false → exec (.mapswVote k) s = .next ((s.takeDeliv k).takeMapsw p) ∧ exec (.mapswRelease k) s = .next s) ∧
      (rel = true → exec (.mapswRelease k) s = .next ((s.takeDeliv k).takeMapsw p) ∧ exec (.mapswVote k) s = .next s) ∧
      (mseq ≤ s.fab.mseq.toNat → (s.takeDeliv k).takeMapsw p = s.takeDeliv k)) ∧
    (∀ k p mseq map rel, s.fab.deliv[k]? = some p → p.crcOk = false → p.msg = .mapsw mseq map rel →
      exec (if rel then .mapswRelease k else .mapswVote k) s = .next (s.takeDeliv k).badPacket) ∧
    (∀ w, s.fab.switch = some w →
      let t := ({ s with fab := { s.fab with switch := none, mapswFail := true } }).resumeInjection
      exec .mapswTimeout s = .next (if 4 ≤ t.job.phase then t.requestSwitch w.map else t.failStep 304)) ∧
    (s.fab.switch = none → exec .mapswTimeout s = .next s ∧ exec .mapSwitchDrained s = .next s) ∧
    (s.running = true → ∀ x : W64,
      let a := bits x.toNat 47 0
      (a % 64 ≠ 0 → exec (.fabMapLoad x) s = .next { s with fab := { s.fab with mapld := 2 } }) ∧
      (∀ kind dom, a % 64 = 0 → s.place a = .hbm kind dom → s.readStatus .firmware a 4160 = stOk →
        exec (.fabMapLoad x) s = .next (match parseMap (s.mem.read a 4160) with
          | none => { s with fab := { s.fab with mapld := 2 } }
          | some m => { s with fab := s.fab.loadMap (bits x.toNat 50 48) m })) ∧
      ∃ f, exec (.fabMapLoad x) s = .next { s with fab := f }) ∧
    (s.running = true →
      exec .fabCommit s = .next { s with fab := { s.fab with cfg := s.fab.cfgShadow, hoplim := s.fab.hoplimShadow } })

/-- The step program: start barrier, step start, backward close, step end (R215, R240, R262, R328, R417, R420, R470). -/
def Obligations.StepProgram : Prop :=
  ∀ (s : State),
    (s.job.inBarrier = true → (s.job.state = 1 ∨ s.job.state = 3) →
      let t := ({ s with job := { s.job with inBarrier := false, attempts := 0 } }).setJob 2
      exec .startBarrierDone s = .next ((t.endOpOf (if s.job.state = 1 then 0x0010 else 0x0012) 0).serveBoundary)) ∧
    (s.job.state = 2 → s.job.inBarrier = false → s.job.phase = 0 → s.ras.recovering = false → s.ras.restoring = none →
      s.job.reshard = none → s.boundaryBusy = false → s.interrupted = false → s.leader.isSome = true → s.vcoreOn = true →
      s.pwr.protect = none → s.job.stopDispatch = false →
      let t := s.claimAll.2
      let v := t.applyConfigs.healFirmware
      let u := if v.job.retry then v else v.setMicros
      exec .stepStart s = .next (if s.claimAll.1 then { u with job := { u.job with phase := 1, failed := false } } else t)) ∧
    (∀ govf fail : Bool, s.job.state = 2 → 1 ≤ s.job.phase → s.job.phase ≤ 3 → s.leader.isSome = true →
      ((s.job.failed = true ∨ fail = true) →
        exec (.backwardCloseBarrier govf fail) s = .next (s.failNow (govf || s.job.govf) true)) ∧
      (s.job.failed = false → fail = false → (∀ c : CoreId, s.cores[c].ctl.run = false) →
        let t := s.dropAllReplicas.sealBanks s.job.step.toNat
        let us := byTable (t.job.upds.filter fun e => e.src = 0)
        exec (.backwardCloseBarrier govf fail) s =
          .next (({ t with job := { t.job with phase := 4, ready := t.job.ready ++ us } }).commitStep.payState))) ∧
    (∀ (govf : Bool) (ftz total : Nat), s.job.state = 2 → s.job.phase = 5 → s.ras.inflight = false → s.ras.stateDue = false →
      s.leader.isSome = true →
      exec (.stepEndBarrier govf ftz total) s = .next (s.endStep (govf || s.job.govf) (ftz + s.backSums.1) (total + s.backSums.2)))

/-- Deltas, merges, buddy data, acknowledgements, HOLD, STATE, GO and restores (R475, R476, R478, R482, R483, R287). -/
def Obligations.CheckpointCommands : Prop :=
  ∀ (s : State) (k : Nat) (p : Packet),
    (∀ off bs, s.holdsPacket k p → p.msg = .ckpt (.data off bs) →
      let t := s.takeDeliv k
      let base := t.reserve.1
      let fits := t.buddyOf p.src = some t.fab.faddr.toNat ∧ off + bs.length ≤ t.reserve.2
      (fits → exec (.ckptData k) s =
        .next (({ t with mem := (t.mem.write (base + off) bs).writeBack (base + off) bs.length }).ackCkpt p stOk)) ∧
      (¬ fits → exec (.ckptData k) s = .next (t.ackCkpt p stUnmapped))) ∧
    (∀ e, s.holdsPacket k p → p.msg = .ckpt (.hold e) →
      let t := s.takeDeliv k
      ((s.jobLoaded = false ∨ e < s.ras.epoch.toNat) → exec (.ckptHold k) s = .next (t.ackCkpt p stStale)) ∧
      (s.jobLoaded = true → e = s.ras.epoch.toNat → exec (.ckptHold k) s = .next (t.ackCkpt p stOk)) ∧
      (s.jobLoaded = true → s.ras.epoch.toNat < e →
        let u := (({ t with ras := { t.ras with epoch := BitVec.ofNat 32 e, recovering := true, states := [], stateDue := true } }).ackCkpt
          p stOk).putHeader
        exec (.ckptHold k) s = .next (if 1 ≤ u.job.phase ∧ u.job.phase ≤ 3 then u.failNow u.job.govf false else u).payState)) ∧
    (∀ e r, s.holdsPacket k p → p.msg = .ckpt (.state e r) →
      let t := s.takeDeliv k
      (e < s.ras.epoch.toNat → exec (.ckptState k) s = .next (t.ackCkpt p stStale)) ∧
      (s.ras.epoch.toNat ≤ e →
        let rank := ((t.job.cfg.map (·.members)).getD []).idxOf p.src
        let u := t.ackCkpt p stOk
        let others := u.ras.states.filter (fun (x : Nat × CkptRec) => x.1 ≠ rank)
        exec (.ckptState k) s = .next ({ u with ras := { u.ras with states := others ++ [(rank, r)] } }).tryGo)) ∧
    (∀ e r, s.holdsPacket k p → p.msg = .ckpt (.go e r) →
      (e < s.ras.epoch.toNat → exec (.ckptGo k) s = .next ((s.takeDeliv k).ackCkpt p stStale)) ∧
      (s.ras.epoch.toNat ≤ e →
        exec (.ckptGo k) s = .next (((s.takeDeliv k).ackCkpt p stOk).takeGo r false))) ∧
    (∀ step code, s.holdsPacket k p → p.msg = .ckptAck code → s.ras.buddyDue = some step →
      let t := s.takeDeliv k
      ((p.tag ≠ 1 ∨ t.buddyOf t.fab.faddr.toNat ≠ some p.src) → exec (.ckptAck k) s = .next t) ∧
      (p.tag = 1 → t.buddyOf t.fab.faddr.toNat = some p.src → exec (.ckptAck k) s = .next (if code = stOk then
          { t with ras := { t.ras with buddyDue := none, buddyOk := true } }
        else
          let u : State := { t with ras := { t.ras with buddyDue := none, buddyOk := false } }
          u.event (qpProc (u.servingQp 0)) 10 2 [step, p.src]))) ∧
    (∀ i ∈ [(0, Instr.ckptData k), (1, .ckptHold k), (2, .ckptState k), (3, .ckptGo k)], s.fab.deliv[k]? = some p → isCkpt i.1 p.msg = true →
      p.crcOk = false → exec i.2 s = .next (s.takeDeliv k).badPacket) ∧
    (∀ d, s.running = true → s.ras.caveOn = true → s.ras.caveOk = true → s.ras.inflight = true →
      (s.ras.deltas.find? fun d => !d.ended) = some d →
      let used := s.ras.deltas.foldl (fun a x => a + x.imgs.foldl (fun b i => b + i.size) 64) 0
      let straight := s.ras.full && s.ras.newest.isNone && s.ras.base.isEmpty
      let t := if s.job.phase = 5 then
          ({ s with ras := { s.ras with deltaWait := s.ras.deltaWait + (Config.fresh s.free &&& 0xffffffff#64) } } : State).drawn 1
        else s
      exec .deltaComplete s = .next (if straight = false ∧ s.baseBytes + gibi < used then s else (t.endDelta d).pumpReshard)) ∧
    (∀ d ds n, s.running = true → s.ras.caveOn = true → s.ras.caveOk = true → s.ras.deltas = d :: ds → s.ras.newest = some n →
      d.ended = true → d.step + 2 ≤ n →
      let keep := s.ras.base.filter fun i => !d.imgs.any fun x => x.key = i.key
      exec .deltaMergeDone s = .next ({ s with ras := { s.ras with base := keep ++ d.imgs, deltas := ds, merged := d.step } }).putHeader) ∧
    (∀ t sc lost, s.ras.restoring = some (t, sc, lost) → s.jobLoaded = true → s.running = true →
      let u := (s.drawn (s.reserve.2 / 2)).restoreTo t sc lost s.buddySlot
      exec .restoreComplete s = .next ({ u with ras := { u.ras with restoring := none } }).serveBoundary)

/-- Frames, lane failures, OPT_READY, training and retraining of a fabric port (R23, R278, R281, R283, R284, R297, R310). -/
def Obligations.FabricPortEvents : Prop :=
  ∀ (s : State) (p : PortId),
    let x := s.fab.ports[p]
    (∀ f : Frame, s.fabricOn = true → (x.state = 2 ∨ x.state = 3) →
      let y := { x with fecCorr := x.fecCorr + BitVec.ofNat 64 f.corrected, fecUncorr := x.fecUncorr + BitVec.ofNat 64 f.uncorrectable }
      exec (.frameRx p f) s = .next (s.receiveFrame p f) ∧
      ((f.good = false ∨ (f.fseq ≠ 4095 ∧ f.fseq ≠ x.rxSeq)) →
        s.receiveFrame p f = { s with fab := s.fab.setPort p { y with nakOut := true, ackDue := true } }) ∧
      (f.good = true → f.fseq = 4095 →
        s.receiveFrame p f = ({ s with fab := { s.fab with ports := s.fab.ports.set p y } } : State).linkWord p f) ∧
      (f.good = true → f.fseq ≠ 4095 → f.fseq = x.rxSeq →
        let r := f.chunks.foldl takeChunk (x.rxCur, [])
        let n := r.2.foldl (fun a q => a + 40 + q.len) 0
        let z := { y with rxSeq := (x.rxSeq + 1) % 4095, nakOut := false, ackDue := true, rxCur := r.1, rxBytes := x.rxBytes + BitVec.ofNat 64 n }
        s.receiveFrame p f =
          ({ s with fab := { s.fab with ports := s.fab.ports.set p z, inq := s.fab.inq ++ r.2.map fun q => (p.val, q) } } : State).linkWord p f)) ∧
    (∀ lane : Fin 8, s.fabricOn = true → (x.state = 2 ∨ (x.state = 3 ∧ (x.higrp = true ↔ lane.val / 4 = 1))) →
      let t : State := { s with fab := { s.fab with ports := s.fab.ports.set p { x with laneBad := x.laneBad ||| 2 ^ lane.val } } }
      exec (.laneSignalFail p lane) s = .next (t.trainPort p)) ∧
    (let t : State := { s with fab := { s.fab with ports := s.fab.ports.set p { x with optReady := true, trainFails := 0 } } }
     exec (.optReadyRise p) s = .next (if s.fabricOn = true ∧ (x.state = 0 ∨ x.state = 5) then t.trainPort p else t)) ∧
    (let t : State := { s with fab := { s.fab with ports := s.fab.ports.set p { x with optReady := false } } }
     exec (.optReadyFall p) s = .next (t.portState p (if x.state = 2 ∨ x.state = 3 then 5 else 0))) ∧
    (∀ res : PortTrain, s.fabricOn = true → x.state = 1 → s.procUp (s.lpFor (p.val / 3)) = true →
      let y := s.fab.trained p res
      let t := ({ s with fab := { s.fab with ports := s.fab.ports.set p { y with state := 1 } } } : State).portState p y.state
      exec (.portTrainingDone p res) s = .next (if (y.state = 2 ∨ y.state = 3) ∧ t.start.settled = true ∧ t.fab.valid = false ∧ t.fab.prom.running = false then
          ({ t with fab := { t.fab with prom := { t.fab.prom with asking := true, asked := p.val :: t.fab.prom.asked.filter (· ≠ p.val) } } } : State).sendPromOn
            p.val t.fuses.hubId .ask
        else t)) ∧
    (s.fabricOn = true → exec (.retrain p) s = .next (s.trainPort p))

/-- How training leaves a fabric port (R278, R284). -/
def Obligations.PortTrainingOutcome : Prop :=
  ∀ (f : FabSt) (i : PortId) (r : PortTrain),
    let x := f.ports[i]
    let o := f.ports[(Fin.ofNat 12 (i.val ^^^ 1) : PortId)]
    let lo := r.badLanes.toNat % 16 ≠ 0
    let hi := 16 ≤ r.badLanes.toNat
    let cabled := r.peerPort = (i.val ^^^ 2) ∧ ((o.state = 2 ∨ o.state = 3) → o.peer = r.peer)
    (lo ∧ hi → (f.trained i r).state = 5) ∧
    (¬ (lo ∧ hi) → r.linkOk = false → (f.trained i r).state = (if 2 ≤ x.trainFails then 5 else 1) ∧
      (f.trained i r).trainFails = x.trainFails + 1) ∧
    (¬ (lo ∧ hi) → r.linkOk = true → ¬ cabled → (f.trained i r).state = 4) ∧
    (¬ (lo ∧ hi) → r.linkOk = true → cabled → (lo ∨ hi ∨ x.half = true) →
      (f.trained i r).state = 3 ∧ ((f.trained i r).higrp = true ↔ lo)) ∧
    (¬ lo → ¬ hi → x.half = false → r.linkOk = true → cabled → (f.trained i r).state = 2)

/-- Forwarding, remote reads and writes, responses, posts, detaches and time-outs (R163, R287, R289, R298, R306, R350, R364). -/
def Obligations.FabricPackets : Prop :=
  ∀ (s : State) (k : Nat),
    (∀ i p, s.fabricOn = true → s.fab.inq[k]? = some (i, p) → p.msg.typ ≠ 0x38 →
      exec (.packetForward k) s = .next ((s.takeInq k).forward i p)) ∧
    (s.running = true →
      let t := s.takeDeliv k
      (∀ p a n, s.holdsPacket k p → p.msg = .rdReq a n →
        let r := t.serveRead p.src a n
        exec (.rdReq none k) s = .next (r.1.foldl (fun s x => s.route (p.respond s.fab.faddr.toNat x.2.1 (.rdResp x.1 x.2.2)) none) r.2)) ∧
      (∀ p a wb bs, s.holdsPacket k p → p.msg = .wr a wb bs →
        let r := t.serveWrite p.src a wb bs
        exec (.wr none k) s = .next (r.2.2.wrAnswer none p r.1 r.2.1)) ∧
      (∀ (i : AccId) p u a n, s.takeAcc i k = (some p, u) → p.msg = .rdReq a n →
        let st := if u.partnerMay a n then u.readStatus .unit a n else stUnmapped
        let v := if st = stUnmapped ∨ st = stCaveDown then u.accessRecord (whoPartner i.val) st (bits a 47 0) else u.touchLines a n
        exec (.rdReq (some i) k) s = .next (v.answerPartner i p st (.rdResp 0 []) (if st = stOk then v.readBytes a n else []))) ∧
      (∀ (i : AccId) p u a wb bs, s.takeAcc i k = (some p, u) → p.msg = .wr a wb bs →
        let r := u.serveWrite (whoPartner i.val) a wb bs
        exec (.wr (some i) k) s = .next (if u.partnerMay a bs.length then r.2.2.wrAnswer (some i) p r.1 r.2.1
          else (u.accessRecord (whoPartner i.val) stUnmapped (bits a 47 0)).wrAnswer (some i) p stUnmapped 0)) ∧
      (∀ p i, s.holdsPacket k p → (p.msg.typ = 2 ∧ i = Instr.rdResp k ∨ p.msg.typ = 4 ∧ i = .wrAck k) →
        (t.fab.reqOf p = none → exec i s = .next t.lateResp) ∧
        (∀ r, t.fab.reqOf p = some r → exec i s = .next (t.respondTo r p))) ∧
      (∀ p v m n, s.holdsPacket k p → p.msg = .post v m n → exec (.post k) s = .next (t.postVcid v m n).2) ∧
      (∀ p id off dir child, s.holdsPacket k p → p.msg = .detach id off dir child →
        let it := t.coll.colls.find? fun c => c.active && (64 * c.cseq + c.comm) % 65536 = id && (CDesc.mk c.desc).op = 6
        (it = none → exec (.detach k) s = .next t) ∧
        (∀ c, it = some c →
          let fs := if child = t.fab.faddr.toNat then [] else (t.fragsFor c 0 0).filter fun f => off ≤ f.off
          exec (.detach k) s = .next (fs.foldl (fun u f =>
            (u.readFrag c f).1.inject { (u.readFrag c f).1.fragPacket c child f (u.readFrag c f).2 with
              group := if dir = 0 then 0 else 65536 + (CDesc.mk c.desc).mcgrp }) t))) ∧
      (∀ r, s.fab.reqs[k]? = some r → r.done = false →
        exec (.requestTimeout k) s = .next (s.completeReq r stUnreach none true)) ∧
      (∀ p, s.fab.deliv[k]? = some p → p.crcOk = false → ∀ i ∈ [(1, Instr.rdReq none k), (2, .rdResp k), (3, .wr none k), (4, .wrAck k), (5, .post k), (0x29, .detach k)],
        p.msg.typ = i.1 → exec i.2 s = .next t.badPacket))

/-- PROM records are taken from the input queue and handled by kind; the time-outs of a promenade (R293, R294, R295, R296, R297). -/
def Obligations.Promenade : Prop :=
  ∀ s : State,
  (∀ (k i : Nat) (p : Packet) (root : W64) (m : PromMsg),
    s.fabricOn = true → s.fab.inq[k]? = some (i, p) → p.msg = .prom root m →
    let t := s.takeInq k
    (p.crcOk = true →
      (∀ a d c, m = .walk a d c → exec (.promWalk k) s = .next (t.takeWalk i root (a % 3) (d % 2) c)) ∧
      (∀ a d, m = .walkAck a d → exec (.promWalk k) s =
        .next (t.updProm fun x => { x with waiting := x.waiting.set (Fin.ofNat 6 (2 * (a % 3) + d % 2)) false })) ∧
      (m = .conflict → exec (.promWalk k) s = .next (t.takeConflict root)) ∧
      (∀ a d c r, m = .finish a d c r →
        exec (.promEnd k) s = .next (if t.fab.prom.running then t.lineEnd (Fin.ofNat 3 a) (d % 2) c r else t)) ∧
      (∀ a n b r pos roots rings, m = .set a n b r pos roots rings →
        exec (.promSet k) s = .next (t.takeSet i (a % 3) n b r pos roots rings)) ∧
      (∀ a n, m = .report a n → exec (.promReport k) s = .next (if t.fab.prom.running then t.passReport a n else t)) ∧
      (∀ nx ny nz wx wy wz, m = .done nx ny nz wx wy wz →
        exec (.promDone k) s = .next (t.takeDone (some (portDir (Fin.ofNat 12 i))) nx ny nz wx wy wz)) ∧
      (m = .ask → exec (.promAsk k) s = .next (t.answerAsk i root)) ∧
      (∀ pos dims widths roots a d r, m = .answer pos dims widths roots a d r →
        let u := t.updProm fun q => { q with answers := q.answers ++ [joinCoords pos dims widths roots (a % 3) (d % 2) r],
                                             asked := q.asked.filter (· ≠ i) }
        exec (.promAskAnswer k) s = .next (if t.fab.prom.asking = false ∨ t.fab.prom.asked.contains i = false then t
          else if u.fab.prom.asked.any u.fab.portUp then u else u.concludeJoin))) ∧
    (m ≠ .ask → exec (.promAsk k) s = .next s) ∧
    (p.crcOk = false →
      (∀ a d c, m = .walk a d c → exec (.promWalk k) s = .next t.badPacket) ∧
      (∀ a d c r, m = .finish a d c r → exec (.promEnd k) s = .next t.badPacket) ∧
      (∀ a n b r pos roots rings, m = .set a n b r pos roots rings → exec (.promSet k) s = .next t.badPacket) ∧
      (∀ a n, m = .report a n → exec (.promReport k) s = .next t.badPacket) ∧
      (m = .ask → exec (.promAsk k) s = .next t.badPacket))) ∧
    (∀ (axis : Axis) (dir : Fin 2), s.fabricOn = true → s.fab.prom.running = true →
      s.fab.prom.waiting[(Fin.ofNat 6 (2 * axis.val + dir.val) : Fin 6)] = true →
      exec (.promWalkTimeout axis dir) s =
        .next ((s.updProm fun p => { p with waiting := p.waiting.set (Fin.ofNat 6 (2 * axis.val + dir.val) : Fin 6) false }).lineEnd
          axis dir.val (s.fab.prom.offset[axis]).natAbs false)) ∧
    (s.fabricOn = true → s.start.settled = true → s.fab.valid = false → (s.fab.prom.running = true ∨ s.fab.promOut = 0) →
      exec .promenadeTimeout s = .next (s.endProm 6)) ∧
    (s.fab.valid = true → exec .promenadeTimeout s = .next s)

/-- The width and mode a die-link module trains to with its bad lanes (R355). -/
def Obligations.DieLinkWidth : Prop :=
  ∀ (m : DlMod) (bad : BitVec 64) (side : Bool),
    let a := laneCount bad 0
    let b := laneCount bad 32
    let t := m.setWidth bad (widthFor bad) side
    (a ≤ 2 → b ≤ 2 → t.state = 2 ∧ (t.inband = false ↔ (a = 0 ∧ b = 0 ∧ side = true))) ∧
    (2 < a → b ≤ 2 → t.state = 3 ∧ t.higrp = true ∧ (t.inband = false ↔ (b = 0 ∧ side = true))) ∧
    (a ≤ 2 → 2 < b → t.state = 3 ∧ t.higrp = false ∧ (t.inband = false ↔ (a = 0 ∧ side = true))) ∧
    (2 < a → 2 < b → t.state = 4) ∧ t.laneBad = bad

/-- Flits, training, retraining, L1 and loopback of a die-link module (R351, R353, R354, R357, R358, R366, R367). -/
def Obligations.DieLinkEvents : Prop :=
  ∀ (s : State) (i : Fin 288),
    let m := s.dl.modAt i.val
    let listed := dlListed s.fuses.lx i.val = true
    (∀ res : UcieTrain, listed → m.state = 1 → m.retraining = false →
      exec (.ucieTrainDone i res) s = .next (s.trainedModule i.val res) ∧
      (res.ok = false → m.tries < 2 → s.trainedModule i.val res = s.setDl i.val { m with tries := m.tries + 1 })) ∧
    (∀ res : UcieTrain, (m.state ≠ 1 ∨ m.retraining = true) → exec (.ucieTrainDone i res) s = .next s) ∧
    (∀ f : Flit, s.running = true → listed → (m.state = 2 ∨ m.state = 3) → s.inTest i.val = false →
      exec (.flitRx i f) s = .next (s.receiveFlit i.val f) ∧
      (f.crcOk = false → s.receiveFlit i.val f = s.putDl i.val { m with l1 := false, nakOut := true, ackDue := true })) ∧
    (∀ f : Flit, ¬ (m.state = 2 ∨ m.state = 3) → exec (.flitRx i f) s = .next s) ∧
    (∀ bad (r : RetrainEnd), m.state = 1 → m.retraining = true →
      let all := m.laneBad ||| bad
      let w := if m.widthLast = 3 then halfOn all m.higrp else widthFor all
      exec (.phyretrainDone i bad r) s = .next (if r.ok = true ∧ w.state ≠ 4
        then s.moduleUp i.val (m.setWidth all w (!m.inband || w.state = 3)) else (s.setDl i.val { m with laneBad := all }).failModule i.val r.last)) ∧
    (∀ bad r, m.retraining = false → exec (.phyretrainDone i bad r) s = .next s) ∧
    (s.pstateNow = 2 → listed → (m.state = 2 ∨ m.state = 3) →
      exec (.ucieL1Entry i) s = .next (s.setDl i.val { m with l1 := true })) ∧
    (s.pstateNow ≠ 2 → exec (.ucieL1Entry i) s = .next s) ∧
    (∀ x : W64, s.running = true → exec (.dlTest x) s = .next (s.dlTestWrite x) ∧
      (x.getLsbD 9 = false → s.dlTestWrite x = s) ∧
      (bits x.toNat 8 0 = i.val → x.getLsbD 9 = true → s.jobLoaded = false → s.dl.looping = none →
        listed → 1 ≤ bits x.toNat 25 10 → bits x.toNat 25 10 ≤ 10000 → (m.state = 2 ∨ m.state = 3) →
        s.dlTestWrite x = { s with dl := { (s.dl.setMod i.val { m with state := 5 }) with looping := some i.val, loopErrs := [] } }) ∧
      (bits x.toNat 8 0 = i.val → s.jobLoaded = true ∨ bits x.toNat 25 10 = 0 ∨ 10000 < bits x.toNat 25 10 ∨ ¬ (m.state = 2 ∨ m.state = 3) →
        s.dlTestWrite x = s)) ∧
    (∀ errs margin res, s.dl.looping = some i.val →
      let t : State := { s with dl := { (s.dl.setMod i.val { m with state := 1 }) with looping := none, loopErrs := errs ++ [margin] } }
      exec (.loopTestEnd errs margin res) s = .next ((t.trainedModule i.val res).endOpOf 0x0021 mbOk)) ∧
    (∀ errs margin res, s.dl.looping = none → exec (.loopTestEnd errs margin res) s = .next s)

/-- Admission of a partner die, its requests, its time-outs and its trip (R35, R362, R363, R364). -/
def Obligations.PartnerSites : Prop :=
  ∀ (s : State) (site : AccId),
    (∀ f : AccFacts, s.fuses.lx = true → s.dl.accPower[site] = true → s.dl.acc[site] = 0 →
      let ok := f.trained = true ∧ f.partner = true ∧ f.code = s.fuses.accCode[site] ∧ f.version = 1 ∧ f.infoOk = true ∧ f.windowGib ≤ 64 ∧
        f.tempInTime = true
      (ok → exec (.accAdmission site f) s = .next { s with dl := { s.dl with acc := s.dl.acc.set site 1 } }) ∧
      (¬ ok → ∃ k, admissionRefusal f s.fuses.accCode[site] = some k ∧
        exec (.accAdmission site f) s = .next ((s.dropSite site k).event procMP 2 4 [site.val, k]))) ∧
    (∀ f : AccFacts, s.dl.acc[site] ≠ 0 → exec (.accAdmission site f) s = .next s) ∧
    (∀ (c : CoreId) (op : Nat) (o : Op) (raw : List Byte) (x y z w : Nat), s.cores[c].opAt op = some o → s.touchesSite c o none = true →
      o.body = .xfer raw x y z w →
      let d := XDesc.mk raw
      let inWindow := fun a => ∃ n, s.mem.cfg.place s.fuses.lx (bits a 47 0) = .acc n
      ∃ bad, exec (.partnerCmdTimeout c op) s = .next (s.setXfer c op 0 stUnreach bad) ∧
        (d.usesSrc = true ∧ d.sspace = 0 ∧ inWindow d.src → bad = d.src) ∧ (¬ (d.usesSrc = true ∧ d.sspace = 0 ∧ inWindow d.src) → bad = d.dst)) ∧
    (∀ (c : CoreId) (op : Nat), s.cores[c].opAt op = none → exec (.partnerCmdTimeout c op) s = .next s) ∧
    (s.fuses.lx = true → s.dl.acc[site] = 1 →
      let t := (s.drawn 1).trip (0x1a + site.val) (Config.order s.free 0 65536)
      exec (.partnerTempLoss site) s = .next { t with dl := { t.dl with acc := t.dl.acc.set site 7 } }) ∧
    (s.dl.acc[site] ≠ 1 → exec (.partnerTempLoss site) s = .next s) ∧
    (∀ (k : Nat) (p : Packet) (a n : Nat) (t : State), s.running = true → s.takeAcc site k = (some p, t) → p.msg = .rdReq a n →
      (t.partnerMay a n = false → exec (.rdReq (some site) k) s =
        .next ((t.accessRecord (whoPartner site.val) stUnmapped (bits a 47 0)).answerPartner site p stUnmapped (.rdResp 0 []) [])) ∧
      (t.partnerMay a n = true → t.readStatus .unit a n = stOk →
        exec (.rdReq (some site) k) s = .next ((t.touchLines a n).answerPartner site p stOk (.rdResp 0 []) ((t.touchLines a n).readBytes a n)))) ∧
    (∀ (k : Nat) (p : Packet) (a : Nat) (wb : Bool) (bs : List Byte) (t : State), s.running = true → s.takeAcc site k = (some p, t) →
      p.msg = .wr a wb bs → t.partnerMay a bs.length = false →
      exec (.wr (some site) k) s =
        .next ((t.accessRecord (whoPartner site.val) stUnmapped (bits a 47 0)).wrAnswer (some site) p stUnmapped 0))

/-- A partner die above its power loses its rails and its modules, and nothing else changes (R36). -/
def Obligations.PartnerOverpowerRemovesRails : Prop :=
  ∀ (s : State) (site : AccId), s.fuses.lx = true → s.dl.accPower[site] = true →
    ∃ t, exec (.partnerOverpower site) s = .next t ∧ t.dl.accPower[site] = false ∧
      (t.dl.modAt (16 * (16 + site.val))).state = 4 ∧ (t.dl.modAt (16 * (16 + site.val) + 1)).state = 4 ∧
      (∀ i : Fin 288, i.val ≠ 16 * (16 + site.val) → i.val ≠ 16 * (16 + site.val) + 1 → t.dl.modAt i.val = s.dl.modAt i.val) ∧
      (∀ k : AccId, k ≠ site → t.dl.accPower[k] = s.dl.accPower[k] ∧ t.dl.acc[k] = s.dl.acc[k]) ∧ t = { s with dl := t.dl }

/-- Training, loss and events of the cave ports (R22, R177, R392, R393, R396, R453). -/
def Obligations.CavePorts : Prop :=
  ∀ (s : State) (k : CaveId),
    let p := s.cave.ports[k]
    (∀ f : CaveFacts, s.starting = true → p.state = 1 →
      exec (.cavePortTrainingDone k f) s = .next ((s.setCavePort k (p.trained f)).fixCave) ∧
      (f.up = false → (p.trained f).state = 5) ∧
      (f.up = true → (f.type3 = true ∧ f.cache = false ∧ f.multi = false ∧ 0 < f.volatileMib ∧ 2 ≤ f.decoders) →
        (p.trained f).state = 2 ∧ (p.trained f).cap = f.volatileMib / 1024 % 65536) ∧
      (f.up = true → ¬ (f.type3 = true ∧ f.cache = false ∧ f.multi = false ∧ 0 < f.volatileMib ∧ 2 ≤ f.decoders) →
        (p.trained f).state = 4 ∧ (p.trained f).refuse ≠ 0)) ∧
    (∀ f : CaveFacts, p.state ≠ 1 → exec (.cavePortTrainingDone k f) s = .next s) ∧
    (s.pwr.pstate ≤ 3 → p.state = 2 →
      exec (.cavePortTimeout k) s =
        .next (({ s with cave := { s.cave with timeout := s.cave.timeout + 1, ports := s.cave.ports.set k { p with state := 5, perst := true } } }).caveLost) ∧
      exec (.cxlLinkDown k) s = .next ((s.setCavePort k { p with state := 5, perst := true }).caveLost) ∧
      (∀ d, exec (.cxlEvent k d) s = .next (s.event procMP 0 5 [k.val, leNat (d.take 29)]))) ∧
    (p.state ≠ 2 → exec (.cavePortTimeout k) s = .next s ∧ exec (.cxlLinkDown k) s = .next s ∧ ∀ d, exec (.cxlEvent k d) s = .next s) ∧
    (p.pwrOk = true →
      let t := (s.setCavePort k { p with pwrOk := false, perst := true, state := if s.pwr.pstate ≤ 3 then 0 else p.state }).caveLost
      exec (.cavePwrOkFall k) s = .next (if t.mem.cfg.caveMap.any fun x => x.port = k then t.loseCave else t)) ∧
    (p.pwrOk = false → exec (.cavePwrOkFall k) s = .next s)

/-- The six causes of a session's detach, what DETACH_CAUSE records and what stays (R389). -/
def Obligations.SessionDetaches : Prop :=
  State.reset.hif.attached = false ∧
  (∀ (s : State) (f : ColdFacts), s.start.coldHeld = true → s.pwr.pstate = 4 →
    ∃ t, exec (.coldResetRelease f) s = .next t ∧ t.hif.attached = false) ∧
  ∀ s : State, s.hostLink = true → s.hif.attached = true →
    let keeps := fun (h : HifSt) (cs : Vector Core 256) => h.attached = false ∧ h.bar4Base = s.hif.bar4Base ∧ h.session = s.hif.session ∧
      h.busMaster = false ∧ h.d3hot = false ∧ ∀ c : CoreId, cs[c] = { s.cores[c] with ops := cs[c].ops }
    (∃ (h : HifSt) (cs : Vector Core 256), exec .perstAssert s = .next (({ s with hif := h, cores := cs } : State).event procMP 3 4 [1]) ∧
      h.cause = 1 ∧ keeps h cs) ∧
    (∃ t, exec .dllDown s = .next t ∧ t.hif.attached = false ∧ t.hif.cause = 2) ∧
    (∃ (h : HifSt) (cs : Vector Core 256), exec .functionLevelReset s = .next (({ s with hif := h, cores := cs } : State).event procMP 3 4 [3]) ∧
      h.cause = 3 ∧ keeps h cs) ∧
    (∃ t, exec .busMasterEnableCleared s = .next t ∧ t.hif.attached = false ∧ t.hif.cause = 4) ∧
    (∃ t, exec .d3hotEntry s = .next t ∧ t.hif.attached = false ∧ t.hif.cause = 5) ∧
    (s.hif.hbArmed = true → bits s.hif.hbTime.toNat 15 0 ≠ 0 →
      ∃ t, exec .heartbeatExpiry s = .next t ∧ t.hif.attached = false ∧ t.hif.cause = 6) ∧
    (bits s.hif.hbTime.toNat 15 0 = 0 → exec .heartbeatExpiry s = .next s)

/-- BAR4 reads and writes, BAR4_SYNC, HIF_HFENCE, the heartbeat and the link, the model's choice in log 43 (R21, R373, R374, R388, R394, R454, R487). -/
def Obligations.HostWindows : Prop :=
  ∀ s : State,
    (s.hostLink = true → s.pwr.pstate ≠ 3 → ∀ off len, off + len ≤ 2 ^ s.hif.bar4Log →
      (s.hif.bar4Ok = true →
        let a := s.hif.bar4Base.toNat + off
        let r := s.hostReadLines (linesOf a len)
        exec (.bar4Read off len) s = .next (r.2.answer ((r.1.drop (a % 128)).take len))) ∧
      (s.hif.bar4Ok = false →
        let a := s.bar4Addr off
        let r := (s.drawn freeStep).hostReadLines (linesOf a len)
        exec (.bar4Read off len) s = .next (r.2.answer (s.openBytes true ((r.1.drop (a % 128)).take len))))) ∧
    (s.hostLink = true → s.pwr.pstate ≠ 3 → ∀ off data, off + data.length ≤ 2 ^ s.hif.bar4Log →
      (s.hif.bar4Ok = true →
        let a := s.hif.bar4Base.toNat + off
        let t := s.writeAs .host a data
        exec (.bar4Write off data) s = .next (if s.access .host a data.length = stOk then { t with hif := t.hif.updateLines a data }
          else t.accessRecord whoHost (s.access .host a data.length) a)) ∧
      (s.hif.bar4Ok = false →
        let a := s.bar4Addr off
        let bs := s.openBytes true data
        let t := (s.drawn freeStep).writeAs .host a bs
        exec (.bar4Write off data) s = .next (if s.access .host a data.length = stOk then { t with hif := t.hif.updateLines a bs }
          else t.accessRecord whoHost (s.access .host a data.length) a))) ∧
    (s.hostLink = true → s.pwr.pstate ≠ 3 → ∀ off len data, 2 ^ s.hif.bar4Log < off + len → 2 ^ s.hif.bar4Log < off + data.length →
      exec (.bar4Read off len) s = .next s ∧ exec (.bar4Write off data) s = .next s) ∧
    (s.hostLink = true → s.pwr.pstate = 3 → ∀ off len data,
      exec (.bar4Read off len) s = .next ((s.event procMP 3 6 [off, 0]).answer (List.replicate len 0)) ∧
      exec (.bar4Write off data) s = .next (s.event procMP 3 6 [off, 1])) ∧
    (s.hostLink = true →
      exec .bar4Sync s = .next (({ s with hif := { s.hif with buf := [] } }).answer (List.replicate 8 0)) ∧
      exec .hifHfence s = .next (s.answer (toLe 8 s.hif.hostWrites.toNat)) ∧
      exec .hifHeartbeat s = .next { s with hif := { s.hif with hbArmed := true } }) ∧
    (s.pciePowered = true → ∀ (w : Nat) (r : PcieRate), exec (.pcieLinkTrain w r) s =
      .next { s with inp := { s.inp with hostRefclk := r.refclk }
                     hif := { s.hif with perstLow := false, linkUp := true, width := w % 32, rate := r.gen % 8, busMaster := true, common := r.refclk } }) ∧
    (s.pciePowered = false → ∀ w r, exec (.pcieLinkTrain w r) s = .next s) ∧
    (s.hostLink = false → ∀ off len data, exec .bar4Sync s = .next s ∧ exec .hifHfence s = .next s ∧ exec .hifHeartbeat s = .next s ∧
      exec (.bar4Read off len) s = .next s ∧ exec (.bar4Write off data) s = .next s)

/-- Slot writes, TAIL_ECHO, doorbells, re-reads and the control of a submission queue (R376, R380, R381, R382, R383, R386, R395). -/
def Obligations.QueueWindow : Prop :=
  ∀ (s : State) (q : QId),
    let x := s.hif.queues[q]
    let oldest := (x.entries.map (·.seq)).foldl (fun (m : W32) e => if 2 ^ 31 ≤ (e - m).toNat then e else m) x.nextSeq
    (s.hostLink = true →
      (∀ d off data, x.depth = some d → 0 < min data.length (64 * d - off) →
        let n := min data.length (64 * d - off)
        let y : Queue := { x with late := x.late ++ [(off, data.take n)] }
        exec (.sqSlotWrite q off data) s = .next (s.updQueue q fun _ => { y with echo := BitVec.ofNat 32 (Cells.le y.landed (64 * ((off + n - 1) / 64)) 4) })) ∧
      (∀ off data, (x.depth = none ∨ data = []) → exec (.sqSlotWrite q off data) s = .next s) ∧
      (exec (.tailEcho q) s = .next ((s.updQueue q fun y => { y with slots := y.landed, late := [] }).answer (toLe 8 x.echo.toNat))) ∧
      (∀ w : W64, exec (.doorbell q w) s = .next (s.doorbell q (w.setWidth 32)) ∧
        (2 ^ 31 ≤ (w.setWidth 32 - x.nextSeq).toNat ∨ ¬ (x.state = qRunning ∨ x.state = qStalled) → s.doorbell q (w.setWidth 32) = s) ∧
        ((x.state = qRunning ∨ x.state = qStalled) → (w.setWidth 32 - x.nextSeq).toNat < 2 ^ 31 →
          (x.depth.getD 0 < (w.setWidth 32 - oldest).toNat + 1 →
            s.doorbell q (w.setWidth 32) = (s.updQueue q fun x => { x with state := qError, waitVis := false }).event
              (qpProc (s.queueQp q)) 3 3 [q.val, (w.setWidth 32 : W32).toNat, oldest.toNat]) ∧
          ((w.setWidth 32 - oldest).toNat + 1 ≤ x.depth.getD 0 →
            let far : W32 := match x.tail with | some u => if 2 ^ 31 ≤ (w.setWidth 32 - u).toNat then u else w.setWidth 32 | none => w.setWidth 32
            s.doorbell q (w.setWidth 32) = (s.updQueue q fun x => { x with tail := some far }).pumpQueue q))) ∧
      (x.state = qStalled → exec (.resumeQueue q) s = .next ((s.updQueue q fun x => { x with state := qRunning, waitVis := false }).pumpQueue q)) ∧
      (x.state ≠ qStalled → exec (.resumeQueue q) s = .next s) ∧
      (∀ n, x.state = qError → exec (.resetQueue q n) s =
        .next ((s.abortUnstarted q).updQueue q fun x => { x with state := qRunning, nextSeq := n, tail := none, waitVis := false })) ∧
      (∀ n, x.state ≠ qError → exec (.resetQueue q n) s = .next s) ∧
      (∀ w : W64, w.getLsbD 0 = true → x.state = qDisabled → 6 ≤ bits w.toNat 4 1 → bits w.toNat 4 1 ≤ 16 → x.cqLog.isSome = true →
        s.hif.attached = true → ∃ t y, exec (.queueEnable q w) s = .next t ∧ t = s.updQueue q (fun _ => y) ∧ y.state = qRunning ∧ y.nextSeq = 1 ∧
          y.cidxNext = 0 ∧ y.cqHead = 0 ∧ y.tail = none) ∧
      (x.state ≠ qDisabled → exec (.queueDisable q) s =
        .next ((s.abortUnstarted q).updQueue q fun x => { x with cfg := x.cfg &&& ~~~1#64, state := qDisabled, tail := none, waitVis := false })) ∧
      (x.state = qDisabled → exec (.queueDisable q) s = .next s) ∧
      (∀ w : W64, w.getLsbD 0 = true → exec (.queueEnable q w) s = .next (s.sqCfgWrite q w) ∧ (x.state ≠ qDisabled → s.sqCfgWrite q w = s)) ∧
      (∀ w : W64, exec (.cqHead q w) s = .next (s.updQueue q fun y => { y with cqHead := w.setWidth 32 }))) ∧
    (s.hostLink = false → ∀ w n, exec (.tailEcho q) s = .next s ∧ exec (.doorbell q w) s = .next s ∧ exec (.resumeQueue q) s = .next s ∧
      exec (.resetQueue q n) s = .next s ∧ exec (.queueEnable q w) s = .next s ∧ exec (.queueDisable q) s = .next s ∧ exec (.cqHead q w) s = .next s) ∧
    (x.waitVis = false → exec (.sqReread q) s = .next s ∧ exec (.sqStalled q) s = .next s) ∧
    (x.waitVis = true → exec (.sqReread q) s = .next (s.pumpQueue q)) ∧
    (x.state = qRunning → x.waitVis = true →
      let found := Cells.le x.landed (64 * (x.nextSeq.toNat % max 1 (x.depth.getD 1))) 4
      exec (.sqStalled q) s =
        .next ((s.updQueue q fun y => { y with state := qStalled }).event (qpProc (s.queueQp q)) 3 2 [q.val, x.nextSeq.toNat, found]))

/-- Commands of a submission queue start by their opcode; a bad entry has outcome BAD_DESC (R377, R378, R419). -/
def Obligations.QueueCommands : Prop :=
  ∀ (s : State) (q : QId) (n : W32) (e : Sqe), s.nextEntry q n = some e →
    (e.ok = true →
      (e.opc = 0 → exec (.qNop q n) s = .next (s.startEntry q n (some stOk) 0 [])) ∧
      (e.opc = 1 → exec (.qFence q n) s = .next (s.startEntry q n (some stOk) 0 [])) ∧
      (e.opc = 6 → exec (.qWaitStep q n) s = .next (s.startEntry q n none 0 [])) ∧
      (e.opc = 2 → s.hostUp = true → exec (.qCopyIn q n) s = s.queueWrite q n e.daddr (Cells.dense s.mem.host e.haddr e.len)) ∧
      (e.opc = 4 → exec (.qFill q n) s = s.queueWrite q n e.daddr ((List.replicate (e.len / 4) (toLe 4 e.arg)).flatten)) ∧
      (e.opc = 2 → s.hostUp = false → exec (.qCopyIn q n) s = .next (s.startEntry q n (some stHost) 0 [])) ∧
      (e.opc = 3 → s.hostUp = false → exec (.qCopyOut q n) s = .next (s.startEntry q n (some stHost) 0 [])) ∧
      (∀ k st, e.opc = 3 → s.hostUp = true → s.goodPrefix true e.daddr e.len = (k, st) →
        let v := (if k = 0 then s else s.touchLines e.daddr k).accessRecord whoHost st (e.daddr + k)
        let t : State := { v with mem := { v.mem with host := Cells.putDense v.mem.host e.haddr (s.readBytes e.daddr k) },
                                  hif := { v.hif with hostWrites := v.hif.hostWrites + BitVec.ofNat 64 (k / 16) } }
        exec (.qCopyOut q n) s = .next (t.startEntry q n (some st) k [])) ∧
      (e.opc = 5 → s.jobLoaded = true → bits e.arg 15 0 < 16 → (s.job.rings.filter fun x => x.1 = bits e.arg 15 0).length < 256 →
        let t := s.startEntry q n none 0 []
        let ring := bits e.arg 15 0
        exec (.qBatch q n) s =
          .next { t with job := { t.job with rings := t.job.rings ++ [(ring, ⟨ring, q.val, n, e.daddr, e.len⟩)] } }) ∧
      (e.opc = 5 → s.jobLoaded = true → 16 ≤ bits e.arg 15 0 → exec (.qBatch q n) s = .next (s.startEntry q n (some stBadDesc) 0 [])) ∧
      (e.opc = 5 → s.jobLoaded = true → bits e.arg 15 0 < 16 → 256 ≤ (s.job.rings.filter fun x => x.1 = bits e.arg 15 0).length →
        exec (.qBatch q n) s = .next s) ∧
      (e.opc = 5 → s.jobLoaded = false → exec (.qBatch q n) s = .next (s.startEntry q n (some 0x12) 0 [])) ∧
      (e.opc = 7 → s.jobLoaded = true → bits e.arg 15 0 < s.job.vcids.length →
        exec (.qPost q n) s =
          .next ((s.postVcid (bits e.arg 15 0) (bits e.arg 19 16) (bits e.arg 31 24)).2.startEntry q n (some stOk) 0 [])) ∧
      (e.opc = 7 → s.jobLoaded = true → s.job.vcids.length ≤ bits e.arg 15 0 →
        exec (.qPost q n) s = .next (s.startEntry q n (some stBadDesc) 0 [])) ∧
      (e.opc = 7 → s.jobLoaded = false → exec (.qPost q n) s = .next (s.startEntry q n (some 0x12) 0 []))) ∧
    (e.ok = false → ∀ i ∈ [(0, Instr.qNop q n), (1, .qFence q n), (2, .qCopyIn q n), (3, .qCopyOut q n), (4, .qFill q n), (5, .qBatch q n),
        (6, .qWaitStep q n), (7, .qPost q n)],
      (e.opc = i.1 → exec i.2 s = .next (s.startEntry q n (some stBadDesc) 0 [])) ∧ (e.opc ≠ i.1 → exec i.2 s = .next s)) ∧
    (∀ (a : Nat) (bs : List Byte) (k st : Nat), s.goodPrefix false a bs.length = (k, st) →
      s.queueWrite q n a bs = .next (((if k = 0 then s else s.writeAs .host a (bs.take k)).accessRecord whoHost st (a + k)).startEntry q n (some st) k
        (if k = 0 then [] else [(a, k)])))

/-- Completion of a command, the write of its record to the host ring, and a host time-out (R370, R385, R386, R388). -/
def Obligations.CommandCompletion : Prop :=
  ∀ (s : State) (q : QId),
    (∀ (n : W32) (e : Sqe) (code : Nat), s.pwr.pstate ≤ 3 → s.procUp (qpProc (s.queueQp q)) = true →
      s.hif.queues[q].entries.find? (fun e => e.seq = n) = some e → e.started = true → s.outcomeOf e = some code →
      let rs := if e.opc = 1 then s.hif.queues[q].dests else if (e.opc = 2 ∨ e.opc = 4) ∧ 0 < e.done then [(e.daddr, e.done)] else []
      exec (.commandComplete q n) s = .next ((s.visActions e.vis rs).complete q e code e.done)) ∧
    (∀ (c : Cmpl) (l : Nat), s.hif.attached = true → s.hif.linkUp = true → s.hif.queues[q].state ≠ qDetached →
      s.nextCmpl q = some c → s.hif.queues[q].cqLog = some l →
      ∃ t, exec (.completionWrite q) s = .next t ∧
        t.mem.host = Cells.putDense s.mem.host (s.hif.queues[q].cqBase.toNat / 4096 * 4096 + 64 * (c.cidx.toNat % 2 ^ l)) (c.bytes l) ∧
        t.hif.hostWrites = s.hif.hostWrites + 1 ∧ t = { s with mem := { s.mem with host := t.mem.host }, hif := { s.hif with ring := t.hif.ring, hostWrites := t.hif.hostWrites } }) ∧
    (s.nextCmpl q = none → exec (.completionWrite q) s = .next s) ∧
    (∀ (c : CoreId) (op : Nat) (o : Op) (raw : List Byte) (x y z w : Nat), s.cores[c].opAt op = some o → o.body = .xfer raw x y z w →
      let d := XDesc.mk raw
      d.op ≤ 1 → (d.dspace = 4 ∨ (d.usesSrc = true ∧ d.sspace = 4)) →
      exec (.hostCompletionTimeout (.core c.val op)) s = .next (s.setXfer c op 0 stHost (if d.dspace = 4 then d.dst else d.src))) ∧
    (∀ (n : W32) (e : Sqe), s.hif.queues[q].entries.find? (fun e => e.seq = n && e.started && (e.opc = 2 || e.opc = 3) &&
      (e.code = some stOk || e.code = none)) = some e →
      ∃ k, k ≤ e.len ∧ k % 16 = 0 ∧ exec (.hostCompletionTimeout (.queue q.val n.toNat)) s =
        .next (((s.drawn 1).startEntry q e.seq (some stHost) k []).event (qpProc (s.queueQp q)) 3 5 [q.val, n.toNat, Config.order s.free 1 65536])) ∧
    (∀ k o, s.opOf 0x0015 = some o → exec (.hostCompletionTimeout (.firmware k)) s = .next (if o.started then s.finishOp o mbFailed else s)) ∧
    (∀ (n : W32) (e : Sqe), s.nextEntry q n = some e → 8 ≤ e.opc → s.pwr.pstate ≤ 3 → s.hif.queues[q].entries.find? (fun e => e.seq = n) = some e →
      exec (.commandComplete q n) s = .next (s.complete q e stBadDesc 0)) ∧
    (∀ n : W32, s.hif.queues[q].entries.find? (fun e => e.seq = n) = none → exec (.commandComplete q n) s = .next s) ∧
    (∀ (n : Nat), s.hif.queues[q].entries.find? (fun e => e.seq = BitVec.ofNat 32 n && e.started && (e.opc = 2 || e.opc = 3) &&
      (e.code = some stOk || e.code = none)) = none → exec (.hostCompletionTimeout (.queue q.val n)) s = .next s)

/-- A mailbox request is answered by the first check it fails, on either channel, the model's choice in log 55 (R406, R407, R409, R410, R507). -/
def Obligations.MailboxChecks : Prop :=
  ∀ (s : State) (ch : Chan) (m : MbxReq) (cfg : Option JobConfig) (i : Instr), mailRow m.op ch m cfg = some i →
    (∀ r, s.chanUp ch = true → s.lastMail ch = some r → r.seq = m.seq → exec i s = .next (s.respond ch r)) ∧
    (s.servesMail ch m →
      (m.major ≠ 1 → exec i s = .next (s.reply' ch m mbVersion [])) ∧
      (m.major = 1 → mbLength m.op ≠ some m.len → exec i s = .next (s.reply' ch m mbLen [])) ∧
      (m.major = 1 → mbLength m.op = some m.len → mailDenied ch m.op → exec i s = .next (s.reply' ch m mbDenied [])) ∧
      (m.major = 1 → mbLength m.op = some m.len → s.mailUnattached ch m.op → exec i s = .next (s.reply' ch m mbSession [])) ∧
      (m.major = 1 → mbLength m.op = some m.len → ¬ mailDenied ch m.op → ¬ s.mailUnattached ch m.op → s.mbPermits m.op cfg = false →
        exec i s = .next (s.reply' ch m mbState []))) ∧
    (s.chanUp ch = true → exec i s = .next (s.serve ch m (if m.op = 0x0010 ∨ m.op = 0x0017 then cfg else none))) ∧
    (s.chanUp ch = false → exec i s = .next s)

/-- What the opcodes that answer at once answer, and what they change (R156, R391, R407, R409, R413, R415). -/
def Obligations.MailboxAnswers : Prop :=
  ∀ (s : State) (ch : Chan) (m : MbxReq), s.passesMail ch m none →
    (m.op = 0x0001 → exec (.getInfo ch m) s = .next (s.reply' ch m mbOk s.infoBytes)) ∧
    (m.op = 0x0014 → exec (.jobStatus ch m) s = .next (s.reply' ch m mbOk s.jobBytes)) ∧
    (m.op = 0x0031 → exec (.logInfo ch m) s =
      .next (s.reply' ch m mbOk (toLe 8 s.log.base ++ toLe 8 s.log.head ++ toLe 8 s.log.suppressed.toNat))) ∧
    (m.op = 0x0002 →
      let id := BitVec.ofNat 64 (m.fld 0 8)
      (id ≠ 0 → id ≠ s.hif.session → exec (.attach ch m) s = .next (s.reply' ch m mbSession [])) ∧
      (id ≠ 0 → id = s.hif.session → s.hif.attached = false →
        let t := s.resumeSession
        exec (.attach ch m) s = .next (t.reply' ch m mbOk (toLe 8 t.hif.session.toNat))) ∧
      (id ≠ 0 → id = s.hif.session → s.hif.attached = true → exec (.attach ch m) s = .next (s.reply' ch m mbOk (toLe 8 id.toNat))) ∧
      (id = 0 → s.procHeld procSP = false →
        let t := (s.message procMP procSP).newSession.message procSP procMP
        exec (.attach ch m) s = .next (t.reply' ch m mbOk (toLe 8 t.hif.session.toNat))) ∧
      (id = 0 → s.procHeld procSP = true → exec (.attach ch m) s = .next (s.reply' ch m mbFailed []))) ∧
    (m.op = 0x0003 →
      (∀ bs, s.opBytes (m.fld 0 4) (m.fld 4 4) = some bs → exec (.opStatus ch m) s = .next (s.reply' ch m mbOk bs)) ∧
      (s.opBytes (m.fld 0 4) (m.fld 4 4) = none → exec (.opStatus ch m) s = .next (s.reply' ch m mbArg []))) ∧
    (m.op = 0x0018 →
      let l := m.fld 0 2
      let t : State := { s with job := { s.job with promoReset := s.job.promoReset ++ if l = 0xffff then List.range 4096 else [l] } }
      (l < 4096 ∨ l = 0xffff → exec (.promoReset ch m) s = .next ((if s.job.phase = 0 then t.resetPromo else t).reply' ch m mbOk [])) ∧
      (4096 ≤ l → l ≠ 0xffff → exec (.promoReset ch m) s = .next (s.reply' ch m mbArg []))) ∧
    (m.op = 0x0030 →
      (m.fld 0 2 + m.fld 2 2 ≤ 4096 → ∃ w : Vector W64 64,
        exec (.traceSet ch m) s = .next (({ s with log := { s.log with trace := w } }).reply' ch m mbOk []) ∧
        ∀ (k : Fin 64) (j : Fin 64), w[k].getLsbD j.val =
          if m.fld 0 2 ≤ 64 * k.val + j.val ∧ 64 * k.val + j.val < m.fld 0 2 + m.fld 2 2 then bit (m.fld 4 4) 0 else s.log.trace[k].getLsbD j.val) ∧
      (4096 < m.fld 0 2 + m.fld 2 2 → exec (.traceSet ch m) s = .next (s.reply' ch m mbArg []))) ∧
    (m.op = 0x0032 →
      let stamp := BitVec.ofNat 64 (m.fld 0 8)
      let t := (s.receiveStamp procMP stamp).logRec procMP 0x0009 [stamp.toNat, m.fld 8 24]
      let p := t.fw.procs[procMP]
      exec (.logMark ch m) s =
        .next (t.reply' ch m mbOk (toLe 8 (t.fw.boot.toNat * 2 ^ 44 + p.count.toNat) ++ toLe 8 p.stamp.toNat)))

/-- Which operations the mailbox accepts, and how an accepted one begins (R366, R400, R408, R417). -/
def Obligations.MailboxAdmission : Prop :=
  ∀ (s : State) (ch : Chan) (m : MbxReq) (cfg : Option JobConfig), s.passesMail ch m cfg →
    let live := s.mbx.ops
    let o : AccOp := ⟨ch, m.seq, m.op, m.payload, cfg, false, none⟩
    let t := s.accepted ch m cfg
    let b := t.message procMP (qpProc (t.leader.getD 0))
    let exclusive := live.any fun o => exclusiveOp o.op
    (∀ i, mailRow m.op ch m cfg = some i → acceptingOp m.op = true →
      (m.op ≠ 0x0013 → 16 ≤ live.length → exec i s = .next (s.reply' ch m mbBusy [])) ∧
      (exclusiveOp m.op = true → live ≠ [] → exec i s = .next (s.reply' ch m mbBusy [])) ∧
      (m.op ≠ 0x0013 → (∃ x ∈ live, x.op = m.op ∨ exclusiveOp x.op = true) → exec i s = .next (s.reply' ch m mbBusy [])) ∧
      (m.op = 0x0013 → (∃ x ∈ live, x.op = 0x0013) → exec i s = .next (s.reply' ch m mbBusy []))) ∧
    (live = [] →
      (m.op = 0x0010 → cfg = none → exec (.jobLoad ch m cfg) s = .next (b.finishOp o mbArg)) ∧
      (∀ c, m.op = 0x0010 → cfg = some c →
        let r := (b.setJob 1).loadJob c
        exec (.jobLoad ch m cfg) s = .next (if r.2 = true then r.1.startOp o else (r.1.setJob 0).finishOp o mbArg)) ∧
      (m.op = 0x0012 → cfg = none → exec (.jobResume ch m) s = .next (b.startResume o)) ∧
      (m.op = 0x0020 → cfg = none → exec (.promenade ch m) s = .next (t.startOp o).runPromenade) ∧
      (m.op = 0x0021 → cfg = none → s.linkArgsOk m = true → exec (.linkTest ch m) s = .next (t.startLinkTest o)) ∧
      (m.op = 0x0021 → cfg = none → s.linkArgsOk m = false → exec (.linkTest ch m) s = .next (s.reply' ch m mbArg []))) ∧
    (m.op = 0x0013 → cfg = none → (live.any fun x => x.op = 0x0013) = false → exec (.jobAbort ch m) s = .next b.abortNow) ∧
    (live.length < 16 → (live.any fun x => x.op = m.op) = false → exclusive = false →
      (m.op = 0x0011 → cfg = none → exec (.jobPark ch m) s = .next b.serveBoundary) ∧
      (m.op = 0x0015 → cfg = none → exec (.mbxExport ch m) s = .next b.serveBoundary) ∧
      (m.op = 0x0016 → cfg = none → exec (.mbxImport ch m) s = .next b.serveBoundary) ∧
      (m.op = 0x0017 → s.procHeld procSP = false → exec (.reshard ch m cfg) s = .next b.serveBoundary) ∧
      (m.op = 0x0017 → s.procHeld procSP = true → exec (.reshard ch m cfg) s = .next (s.reply' ch m mbFailed [])) ∧
      (m.op = 0x0019 → cfg = none → exec (.ckptFull ch m) s = .next b.serveBoundary))

/-- The mailbox doorbell, and the ends of an export and of an import (R271, R272, R407, R410). -/
def Obligations.MailboxDoorbell : Prop :=
  ∀ (s : State) (w : W64) (cfg : Option JobConfig),
    (s.hostLink = true → exec (.mbxDoorbell w cfg) s = .next (s.mbxDoorbell w cfg)) ∧
    (s.hostLink = false → exec (.mbxDoorbell w cfg) s = .next s) ∧
    (s.hostLink = true → w.getLsbD 0 = false → exec (.mbxDoorbell w cfg) s = .next s) ∧
    (s.hostLink = true → w.getLsbD 0 = true → s.mbx.state = 1 →
      exec (.mbxDoorbell w cfg) s = .next (s.event procMP 3 7 [0, s.mbx.request.seq.toNat])) ∧
    (w.getLsbD 0 = true → s.servesMail .host s.mbx.request → s.mbx.request.major = 1 → mbLength s.mbx.request.op = none →
      exec (.mbxDoorbell w cfg) s = .next (s.reply' .host s.mbx.request mbOpcode [])) ∧
    (∀ i, s.servesMail .host s.mbx.request → w.getLsbD 0 = true → mailRow s.mbx.request.op .host s.mbx.request cfg = some i →
      (cfg = none ∨ s.mbx.request.op = 0x0010 ∨ s.mbx.request.op = 0x0017) →
      exec (.mbxDoorbell w cfg) s = exec i s) ∧
    (∀ o, s.opOf 0x0015 = some o → o.started = true → s.running = true →
      let r := s.runExport o
      exec .exportComplete s = .next (r.2.finishOp o r.1).serveBoundary ∧
      (r.1 ≠ mbOk → r.2 = s) ∧ (r.1 = mbOk → r.2.mem.bytes = s.mem.bytes)) ∧
    (∀ o, s.opOf 0x0016 = some o → o.started = true → s.running = true →
      let r := s.runImport o
      exec .importComplete s = .next (r.2.finishOp o r.1).serveBoundary ∧ (r.1 ≠ mbOk → r.2 = s)) ∧
    (s.opOf 0x0015 = none → exec .exportComplete s = .next s) ∧ (s.opOf 0x0016 = none → exec .importComplete s = .next s)

/-- Watchdogs, reloads of processors, the end of the log's millisecond, and register writes (R372, R394, R395, R399, R401, R413). -/
def Obligations.ProcessorsAndRegisters : Prop :=
  ∀ s : State,
    (∀ p : ProcId, s.procOn p = true → s.fw.procs[p].state = 0 → s.fw.procs[p].halted = false →
      exec (.wdExpiry p) s = .next (s.expire p)) ∧
    (∀ p : ProcId, s.fw.procs[p].state ≠ 0 → exec (.wdExpiry p) s = .next s) ∧
    (∀ p : ProcId, s.procOn p = true → s.fw.procs[p].state = 1 →
      exec (.procReloadDone p) s = .next ((s.updProc p fun x => { x with state := 0 }).servedAgain p)) ∧
    (∀ p : ProcId, s.fw.procs[p].state ≠ 1 → exec (.procReloadDone p) s = .next s) ∧
    (∀ p : ProcId, 2 ≤ p.val → s.procOn p = true → s.fw.procs[p].state = 1 →
      exec (.procReloadDone p) s = .next (s.updProc p fun x => { x with state := 0 }).pumpQueues) ∧
    (∀ p : ProcId, s.procOn p = true → s.fw.procs[p].state = 1 → s.mbx.held = [] → p.val < 2 →
      let u := s.updProc p fun x => { x with state := 0 }
      exec (.procReloadDone p) s = .next (if p = procMP then u.drainMgmt else u.drainMgmt.drainSp)) ∧
    (s.start.coldDone = true → s.start.coldHeld = false → s.pwr.pstate ≤ 4 →
      let past := s.log.rates.filter fun x => 1000 < x.2.2
      let t := past.foldl (fun (u : State) x =>
        ({ u with log := { u.log with suppressed := u.log.suppressed + BitVec.ofNat 64 (x.2.2 - 1000) } }).logAlways (Fin.ofNat 10 x.1) 0x000a
          [x.2.1, x.2.2 - 1000]) { s with log := { s.log with rates := [] } }
      exec .suppress s = .next (if s.mgmt.lostMs = 0 then t else ({ t with mgmt := { t.mgmt with lostMs := 0 } }).event procMP 11 8 [s.mgmt.lostMs])) ∧
    (s.start.coldDone = false → exec .suppress s = .next s) ∧
    (s.start.coldDone = true → s.start.coldHeld = false → s.pwr.pstate ≤ 4 → (∀ x ∈ s.log.rates, x.2.2 ≤ 1000) → s.mgmt.lostMs = 0 →
      exec .suppress s = .next { s with log := { s.log with rates := [] } }) ∧
    (∀ sp off size x, s.regReach sp = true →
      exec (.registerWrite sp off size x) s = .next (s.regWrite (if sp = .bar0 then .host else .firmware) sp off size x)) ∧
    (∀ sp off size x, s.regReach sp = false → exec (.registerWrite sp off size x) s = .next s) ∧
    (∀ sp off size x, s.regReach sp = true → 0x4000000 ≤ off → exec (.registerWrite sp off size x) s = .next s) ∧
    (∀ sp off size x, s.regReach sp = true → off < 0x4000000 → regForm off size = false →
      exec (.registerWrite sp off size x) s = .next (s.event procMP 3 1 [if sp = .bar0 then 0 else 1, off, size, 1])) ∧
    (∀ x, s.hostLink = true →
      exec (.registerWrite .bar0 0x010 8 x) s = .next { s with hif := { s.hif with hbTime := x &&& 0xffff#64 } }) ∧
    (∀ (q : QId) (x : W64), s.hostLink = true →
      exec (.registerWrite .bar0 (0x118 + 0x40 * q.val) 8 x) s = .next (s.updQueue q fun y => { y with cqHead := x.setWidth 32 }))

/-- Input power, resets, enable, clocks, sags and the protect sequence (R25, R26, R27, R425, R428, R438, R439, R440, R441, R460). -/
def Obligations.BoardInputs : Prop :=
  ∀ s : State,
    (s.pwr.pstate = 5 ∨ (s.pwr.pstate = 4 ∧ s.start.coldHeld = true) → ∃ t, exec .inputApplied s = .next t ∧ t.pwr.pstate = 4 ∧
      t.start.coldHeld = true ∧ t.inp.inputOk = true ∧ t.inp.overvolt = false ∧ t.fuses = s.fuses ∧ t.fw = s.fw) ∧
    (s.pwr.pstate < 4 → exec .inputApplied s = .next s) ∧
    (s.pwr.pstate ≤ 4 → ∃ t, exec .modResetNFall s = .next t ∧ t.inp.modReset = false ∧ t.inp.thermTrip = false ∧
      t.start.coldHeld = true ∧ t.start.nextCause = 2 ∧ t.pwr.pstate = 4) ∧
    (let u : State := { s with inp := { s.inp with pwrEn := false }, start := { s.start with barred := false } }
     (s.starting = true → exec .pwrEnFall s = .next (u.abandonStart u.start.nextCause)) ∧
     (s.starting = false → s.running = true → exec .pwrEnFall s = .next ((u.startProtect true).protectAdvance)) ∧
     (s.starting = false → s.running = false → exec .pwrEnFall s = .next (if s.pwr.pstate = 3 then u.enterP4 2 else u))) ∧
    (∃ t, exec .pwrEnRise s = .next t ∧ t.inp.pwrEn = true ∧ t = { s with inp := t.inp, start := t.start }) ∧
    (∀ mv, s.pwr.pstate ≤ 4 → 60500 < mv →
      let u := (s.event procMP 8 2 [mv]).mgmtEvent 0x0030 mv
      let v : State := { u with inp := { u.inp with overvolt := true, volt := mv } }
      exec (.overvoltage mv) s = .next (if s.pwr.pstate = 4 ∧ s.starting = false then v else v.enterP4 2)) ∧
    (∀ mv, mv ≤ 60500 → exec (.overvoltage mv) s = .next s) ∧
    (s.inp.overvolt = true → ∃ t, exec .overvoltageRecovery s = .next t ∧ t.inp.overvolt = false ∧ t.inp.volt ≤ 59000 ∧
      t = { s with inp := t.inp, start := t.start, free := t.free }) ∧
    (s.inp.overvolt = false → exec .overvoltageRecovery s = .next s) ∧
    (∀ mv, s.pwr.pstate ≤ 4 → mv < 44000 → ∃ t, exec (.sag mv) s = .next t ∧
      (s.starting = false → t.inp.inputOk = false ∧ t.inp.volt = mv ∧ t.pwr.sagCnt = s.pwr.sagCnt + 1) ∧
      (s.starting = false → s.running = false → t.pwr.pstate = s.pwr.pstate ∧ (s.pwr.pstate = 3 → t.pwr.aux = true) ∧ t.mem = s.mem ∧ t.cores = s.cores) ∧
      (s.starting = false → s.running = true → s.pwr.ride = false → s.pwr.protect = none → s.pwr.holdupOk = true →
        t.pwr.ride = true ∧ t.pwr.sag = true ∧ t.mem = s.mem ∧ t.cores = s.cores ∧ t.job = s.job)) ∧
    (∀ mv, 44000 ≤ mv → exec (.sag mv) s = .next s) ∧
    (∀ mv d, s.pwr.pstate ≤ 4 → s.inp.inputOk = false → 45000 ≤ mv →
      let u := if s.pwr.sagTold = true then s else s.event procMP 8 3 [s.pwr.sagMin, d, 0]
      let v : State := { u with inp := { u.inp with inputOk := true, volt := mv }, pwr := { u.pwr with sag := false, sagTold := true, ride := false, aux := false } }
      exec (.sagEnd mv d) s = .next (v.tellPower u.pstateNow)) ∧
    (∀ mv d, mv < 45000 ∨ s.inp.inputOk = true → exec (.sagEnd mv d) s = .next s) ∧
    (∀ mv, s.pwr.ride = true →
      let low := min s.pwr.sagMin mv
      let u : State := { s with pwr := { s.pwr with sagMin := low, sagTold := true } }
      exec (.rideThroughExpiry mv) s = .next ((((u.event procMP 8 3 [low, 2000, 1]).startProtect false).protectAdvance).tellPower s.pstateNow)) ∧
    (∀ mv, s.pwr.ride = false → exec (.rideThroughExpiry mv) s = .next s) ∧
    (∀ (c : CoreId) p, s.pwr.protect = some p → p.flushing = false →
      (s.cores[c].ctl.run = false ∨ s.cores[c].ctl.stopped = true → exec (.protectCoreDeadline c) s = .next s.protectAdvance) ∧
      (s.cores[c].ctl.run = true → s.cores[c].ctl.stopped = false →
        let r := s.cores[c].endAbrupt.sendTel
        exec (.protectCoreDeadline c) s =
          .next (((s.withCore c ({ r.1 with ctl := { r.1.ctl with stopped := true } }, r.2)).failStep 440).protectAdvance))) ∧
    (∀ c, s.pwr.protect = none → exec (.protectCoreDeadline c) s = .next s) ∧
    (∀ p d, s.pwr.protect = some p → exec (.protectFlushEnd d) s = .next (s.protectEnd d)) ∧
    (s.inp.inputOk = false → (s.pwr.pstate = 3 ∨ s.pwr.pstate = 4) → ∃ t, exec .holdupExhausted s = .next t ∧ t.pwr.pstate = 5 ∧ t.fuses = s.fuses ∧
      t.cores = State.reset.cores ∧ t.job = State.reset.job) ∧
    (s.inp.inputOk = true → exec .holdupExhausted s = .next s) ∧
    (∀ d k, s.pwr.pstate ≤ 3 ∨ s.starting = true →
      let u := s.event procMP 8 1 [d, k]
      exec (.clockLoss d k) s = .next (({ u with inp := { u.inp with refOk := u.inp.refOk && k ≠ 1 } } : State).enterP4 2)) ∧
    (∀ e, s.pwr.pstate ≤ 4 → s.inp.inputOk = true →
      let u : State := { s with pwr := { s.pwr with holdupOk := true, holdup := BitVec.ofNat 64 (e % 65536) } }
      exec (.holdupOk e) s = .next (if s.start.stage = 7 then u.vcoreStart else u)) ∧
    (∀ e, s.inp.inputOk = false → exec (.holdupOk e) s = .next s)

/-- Coolant, temperatures, trips, the governor, gating and standby (R28, R29, R31, R428, R435, R442, R443, R460). -/
def Obligations.ThermalAndGovernor : Prop :=
  ∀ s : State,
    (∀ i f, s.pwr.pstate ≤ 4 → (450 < i ∨ f < 200) →
      let lvl := if 500 < i ∨ f < 150 then 3 else 1
      let u : State := { (s.setSensor 0x20 i).setSensor 0x22 f with inp := { s.inp with coolOk := false } }
      let v := ((u.event procMP 9 1 [i, f, lvl]).mgmtEvent 0x0020 i).mgmtEvent 0x0022 f
      let w : State := { v with pwr := { v.pwr with coolReq := max v.pwr.coolReq lvl } }
      exec (.coolant i f) s = .next (if s.starting = true then u.abandonStart u.start.nextCause else if s.pwr.pstate = 4 then u
        else (if lvl = 3 then w.needP3 else w).tellPower u.pstateNow)) ∧
    (∀ i f, i ≤ 450 → 200 ≤ f → exec (.coolant i f) s = .next s) ∧
    (∀ (i : Nat) (f : FlowFacts), s.pwr.pstate ≤ 4 → ∃ t, exec (.coolantRecover i f) s = .next t ∧ t.mem = s.mem ∧ t.cores = s.cores ∧ t.job = s.job ∧
      (t.inp.coolOk = true ↔ 180 ≤ i ∧ i ≤ 450 ∧ 200 ≤ f.rate) ∧
      (i ≤ 450 → 200 ≤ f.rate → (s.pwr.coolReq ≤ 1 ∨ (f.long = true ∧ 180 ≤ i)) → t.pwr.coolReq = 0) ∧
      (450 < i ∨ f.rate < 200 ∨ (1 < s.pwr.coolReq ∧ (f.long = false ∨ i < 180)) → t.pwr.coolReq = s.pwr.coolReq) ∧
      (180 ≤ i → t.pwr.coolLow = false) ∧ (i < 180 → t.pwr.coolLow = s.pwr.coolLow)) ∧
    (∀ i, s.pwr.pstate ≤ 4 → i < 180 → ∃ t, exec (.coolantLow i) s = .next t ∧ t.inp.coolOk = false ∧
      (s.starting = false → t.pwr.coolLow = true ∧ t.cores = s.cores ∧ t.job = s.job)) ∧
    (∀ i, 180 ≤ i → exec (.coolantLow i) s = .next s) ∧
    (∀ n r, s.pwr.pstate ≤ 3 → isTemp s.fuses.lx n = true → (if isStack n then 950 else 1050) ≤ r →
      ∃ t, exec (.dieTemp n r) s = .next t ∧ t.pwr.hot = (if s.pwr.hot.contains n then s.pwr.hot else s.pwr.hot ++ [n]) ∧ t.cores = s.cores ∧ t.job = s.job) ∧
    (∀ n r, s.pwr.hot.contains n = true → r < (if isStack n then 900 else 1000) →
      ∃ t, exec (.dieTempRecover n r) s = .next t ∧ t.pwr.hot = s.pwr.hot.filter (· ≠ n) ∧ t.cores = s.cores ∧ t.job = s.job) ∧
    (∀ n r, (s.pwr.pstate ≤ 3 ∨ s.starting = true) → isTemp s.fuses.lx n = true → (if isStack n then 1050 else 1150) ≤ r →
      exec (.trip n r) s = .next ((s.setSensor n r).trip n r)) ∧
    (∀ n r, r < (if isStack n then 950 else 1050) → exec (.dieTemp n r) s = .next s ∧ exec (.trip n r) s = .next s) ∧
    (∀ n r, s.pwr.hot.contains n = false → exec (.dieTempRecover n r) s = .next s) ∧
    (∀ w, s.busUp = true → ∃ t, exec (.governorTick w) s = .next t ∧
      (let p : PowerSt := { s.pwr with cfgNow := s.pwr.cfg, inp := powerIn s.inp.volt w, rails := s.readRails }
       t.pwr = if s.running then p.tick w else p) ∧
      t.mem = s.mem ∧ t.cores = s.cores ∧ t.job = s.job) ∧
    (∀ w, s.busUp = false → exec (.governorTick w) s = .next s) ∧
    (∀ v : VatId, s.vcoreOn = true → s.pwr.gated[v] = false → bits s.pwr.cfgNow.toNat 15 8 ≠ 0 →
      (∀ c : CoreId, vatOf c = v → s.cores[c].ctl.run = false ∧ s.cores[c].arr.level = 0) →
      ∃ t, exec (.p2DelayExpiry v) s = .next t ∧ t.pwr = { s.pwr with gated := s.pwr.gated.set v true } ∧ t.cores = s.cores ∧ t.mem = s.mem) ∧
    (∀ v : VatId, s.pwr.gated[v] = true ∨ bits s.pwr.cfgNow.toNat 15 8 = 0 → exec (.p2DelayExpiry v) s = .next s) ∧
    (s.running = true → s.pwr.protect = none → (s.job.state = 0 ∨ s.job.state = 3) →
      exec .pwrReqStandby s = .next ({ s with pwr := { s.pwr with standby := true } } : State).enterP3) ∧
    (s.job.state ≠ 0 → s.job.state ≠ 3 → exec .pwrReqStandby s = .next s) ∧
    (exec .pwrReqResume s = .next { s with pwr := { s.pwr with standby := false } }) ∧
    (s.pwr.pstate = 3 → s.pwr.coolReq ≠ 3 → s.pwr.standby = false → s.inp.inputOk = true → s.inp.pwrEn = true →
      exec .p3Return s = .next s.leaveP3) ∧
    (s.pwr.pstate ≠ 3 ∨ s.pwr.coolReq = 3 ∨ s.pwr.standby = true ∨ s.inp.inputOk = false ∨ s.inp.pwrEn = false → exec .p3Return s = .next s)

/-- The cold phase, a start from P4, its end, ASK, and the reset of a Vat die (R19, R446, R452, R453, R455, R457, R459, R463). -/
def Obligations.StartsAndReadiness : Prop :=
  ∀ s : State,
    (∀ f : ColdFacts, s.start.coldHeld = true → s.pwr.pstate = 4 → exec (.coldResetRelease f) s = .next (s.coldPhase f.fuses f.root f.refOk)) ∧
    (∀ f, s.start.coldHeld = false → exec (.coldResetRelease f) s = .next s) ∧
    (∀ f, s.pwr.pstate = 4 → s.start.coldDone = true → s.start.coldHeld = false → s.start.barred = false → s.starting = false →
      s.procUp procMP = true →
      let u : State := { s with inp := { s.inp with refOk := f.refOk } }
      let may := s.fw.selected = true ∧ s.inp.thermTrip = false ∧ f.refOk = true ∧ s.inp.inputOk = true ∧ s.inp.overvolt = false ∧
        s.inp.volt ≤ 59000 ∧ s.inp.pwrEn = true ∧ s.inp.coolOk = true
      (may → exec (.startFromP4 f) s = .next (u.startUp f)) ∧ (¬ may → exec (.startFromP4 f) s = .next u)) ∧
    (∀ f, s.starting = true ∨ s.start.barred = true ∨ s.start.coldHeld = true → exec (.startFromP4 f) s = .next s) ∧
    (s.starting = true → exec .startStepTimeout s = .next (s.failStart 7)) ∧
    (s.starting = false → ∀ ms, exec .startStepTimeout s = .next s ∧ exec (.readinessEvaluate ms) s = .next s) ∧
    (∀ ms, s.starting = true → (s.stepsEnded = true ∨ s.start.celUp = false ∨ s.start.capOk = false ∨ s.start.copyOk = false) →
      (s.readyCode = 0 → exec (.readinessEvaluate ms) s = .next (s.becomeReady ms)) ∧
      (s.readyCode ≠ 0 →
        let t := s.failStart s.readyCode
        exec (.readinessEvaluate ms) s =
          .next { t with start := { t.start with dur := BitVec.ofNat 64 (bits t.start.dur.toNat 31 0 + 2 ^ 32 * (ms % 2 ^ 32)) } })) ∧
    (s.running = true → (s.start.stage = 8 ∨ s.start.stage = 9) → s.start.settled = false →
      let u : State := { s with start := { s.start with settled := true } }
      let up := (List.range 12).any fun i => s.fab.portUp i
      (up = true → exec .portsSettled s = .next ({ u with start := { u.start with asking := true } } : State).askAll) ∧
      (up = false → s.fab.root = true → exec .portsSettled s = .next u.runPromenade) ∧
      (up = false → s.fab.root = false → exec .portsSettled s = .next u)) ∧
    (s.start.settled = true → exec .portsSettled s = .next s) ∧
    (s.running = true → (s.start.asking = true ∨ s.fab.prom.asking = true) →
      let u : State := { s with start := { s.start with asking := false } }
      let v : State := { u with fab := { u.fab with prom := { u.fab.prom with asking := false, asked := [] } } }
      (s.fab.valid = true → exec .askTimeout s = .next u) ∧
      (s.fab.valid = false → s.fab.prom.answers ≠ [] → exec .askTimeout s = .next u.concludeJoin) ∧
      (s.fab.valid = false → s.fab.prom.answers = [] → exec .askTimeout s =
        .next (if s.start.asking = true ∧ s.fab.root = true ∧ s.fab.prom.running = false then v.runPromenade else v))) ∧
    (∀ v : VatId, s.vcoreOn = true → s.pwr.protect = none → s.job.phase = 0 → s.ras.dieResetting = none → s.dieFenced v = true →
      s.ras.dieResets[v] < 3 → (∀ c : CoreId, s.cores[c].ops = []) → (∀ l, 12 ≤ l → l ≤ 15 → s.linkFailed l = false) →
      exec (.vatDieReset v) s = .next (s.resetDie v)) ∧
    (∀ v : VatId, s.dieFenced v = false ∨ 3 ≤ s.ras.dieResets[v] ∨ s.job.phase ≠ 0 → exec (.vatDieReset v) s = .next s) ∧
    (∀ v : VatId, s.ras.dieResetting = some v.val →
      exec (.vatResetDone false) s = .next (s.endDieReset v false) ∧
      ((∀ x ∈ s.dl.mods, onDie v x.1 = true → x.2.state ≠ 1) → exec (.vatResetDone true) s = .next (s.endDieReset v true))) ∧
    (s.ras.dieResetting = none → ∀ ok, exec (.vatResetDone ok) s = .next s)

/-- What each security message answers and changes when the security processor serves it (R415, R494, R496, R498, R500, R501, R503, R504, R505). -/
def Obligations.SecurityMessages : Prop :=
  ∀ s : State,
    let u := s.message procMP procSP
    let back := fun (t : State) => t.message procSP procMP
    (∀ m, s.servesSec m →
      let i : Instr := match m with
        | .getId => .getId | .challenge => .challenge | .quote n => .quote n | .debugSet l k => .debugSet l k
        | .lifecycle g k => .lifecycle g k | .floorRaise e k => .floorRaise e k | .logRead p n => .logRead p n
      exec i s = .next (back (u.serveSec m))) ∧
    (s.mgmtTakes (.sec .getId) = false → exec .getId s = .next s ∧ exec .challenge s = .next s) ∧
    u.serveSec .getId = u.secAnswer mbOk u.idBytes ∧
    (let n := BitVec.ofNat 256 (freshBits s.free 4)
     u.serveSec .challenge = (({ u with sec := { u.sec with nonce := some n } } : State).drawn 4).secAnswer mbOk (toLe 32 n.toNat)) ∧
    (∀ n,
      (s.fuses.lifecycle = 0 → u.serveSec (.quote n) = u.secDenied 2) ∧
      (s.fuses.lifecycle ≠ 0 → s.fuses.hasKey = false → u.serveSec (.quote n) = u.secDenied 3) ∧
      (s.fuses.lifecycle ≠ 0 → s.fuses.hasKey = true → s.sec.quoteWait = false →
        (s.sec.index < s.sec.mark → u.serveSec (.quote n) = (u.drawn 1).signQuote n) ∧
        (s.sec.mark ≤ s.sec.index → ∀ t, (u.drawn 1).reserveIndex = some t → u.serveSec (.quote n) = t.signQuote n) ∧
        (s.sec.mark ≤ s.sec.index → (u.drawn 1).reserveIndex = none →
          u.serveSec (.quote n) = ((u.drawn 1).event procSP 11 7 [s.sec.mark]).secDenied 4))) ∧
    (∀ l k,
      (2 < l → u.serveSec (.debugSet l k) = u.secAnswer mbArg []) ∧
      (l ≤ 2 → (l ≤ s.sec.level ∨ l = 1) → u.serveSec (.debugSet l k) = (u.setLevel l).secAnswer mbOk []) ∧
      (l = 2 → s.sec.level < 2 → s.fuses.lifecycle = 2 → u.serveSec (.debugSet l k) = u.secDenied 5) ∧
      (l = 2 → s.sec.level < 2 → s.fuses.lifecycle ≠ 2 → s.job.state ≠ 0 → u.serveSec (.debugSet l k) = u.secAnswer mbState [])) ∧
    (∀ g k, g ≤ 3 → s.sec.update = none → s.sec.pending = none → s.job.state = 0 →
      (transition s.fuses.lifecycle g = none → u.serveSec (.lifecycle g k) = u.secAnswer mbState []) ∧
      (transition s.fuses.lifecycle g = some false →
        u.serveSec (.lifecycle g k) = ({ u with sec := { u.sec with pending := some g } } : State).secAnswer mbAccepted []) ∧
      (transition s.fuses.lifecycle g = some true → s.tokenOk 2 g k = true →
        u.serveSec (.lifecycle g k) = ({ u with sec := { u.sec with nonce := none, pending := some g } } : State).secAnswer mbAccepted []) ∧
      (transition s.fuses.lifecycle g = some true → s.tokenOk 2 g k = false → u.serveSec (.lifecycle g k) = u.tokenFailed 2)) ∧
    (∀ e k, s.sec.update = none → s.fuses.floor < e → e ≤ 255 →
      (∀ r, r < 2 → s.fw.imgValid r s.fuses = true ∧ e ≤ s.fw.imgVersion r / 2 ^ 24) → s.tokenOk 3 e k = true →
      let t := u.serveSec (.floorRaise e k)
      t.fuses = { s.fuses with floor := e } ∧ t.sec = { s.sec with nonce := none }) ∧
    (∀ e k, s.sec.update = none → (e ≤ s.fuses.floor ∨ 255 < e) → u.serveSec (.floorRaise e k) = u.secAnswer mbState []) ∧
    (∀ p n,
      (s.sec.level = 0 → u.serveSec (.logRead p n) = u.secDenied 5) ∧
      (s.sec.level ≠ 0 → 1 ≤ n → n ≤ 63 →
        u.serveSec (.logRead p n) = u.secAnswer mbOk ((List.range n).map fun i => u.logEntry (p + i)).flatten)) ∧
    (∀ g, s.sec.pending = some g → s.busUp = true → s.procUp procSP = true → exec .lifecycleComplete s = .next (s.endLifecycle g)) ∧
    (s.sec.pending = none → exec .lifecycleComplete s = .next s)

/-- Bus addresses, endpoint ID, sensors, effecters and firmware update on the management path, the model's choice in log 60 (R450, R451, R508, R509, R510, R511, R512). -/
def Obligations.ManagementMessages : Prop :=
  ∀ s : State,
    (∀ m, s.servesMgmt m → ∀ i,
      (match m with
        | .setEid e => i = .setEndpointId e | .poll => i = .pollEvent | .sensor n => i = .getSensorReading n
        | .numeric k v => i = .setNumericEffecter k v | .state k v => i = .setStateEffecter k v | .requestUpdate n => i = .requestUpdate n
        | .data bs => i = .requestFirmwareData bs | .activate => i = .activateFirmware | .cancel => i = .cancelUpdate | .sec _ => False) →
      exec i s = .next (s.serveMgmt m)) ∧
    (s.busUp = false → exec .pollEvent s = .next s ∧ (∀ n, exec (.getSensorReading n) s = .next s) ∧ ∀ a, exec (.smbusArp a) s = .next s) ∧
    (∀ a, s.busUp = true → s.mgmt.i3c = none → a < 128 →
      exec (.i3cEntdaa a) s = .next (({ s with mgmt := { s.mgmt with i3c := some a } } : State).answer s.i3cId)) ∧
    (s.busUp = true → exec .i3cRstdaa s = .next { s with mgmt := { s.mgmt with i3c := none } }) ∧
    (∀ a, s.busUp = true → a < 128 → exec (.smbusArp a) s = .next { s with mgmt := { s.mgmt with smb := a } }) ∧
    (∀ e, s.servesMgmt (.setEid e) → 1 ≤ e → e < 255 →
      exec (.setEndpointId e) s = .next (({ s with mgmt := { s.mgmt with eid := some e } } : State).pldm pldmOk [BitVec.ofNat 8 e])) ∧
    (s.servesMgmt .poll →
      (s.mgmt.events = [] → exec .pollEvent s = .next (s.pldm pldmOk [0])) ∧
      (∀ n v rest, s.mgmt.events = (n, v) :: rest → exec .pollEvent s =
        .next (({ s with mgmt := { s.mgmt with events := rest } } : State).pldm pldmOk (1 :: toLe 2 n ++ toLe 4 v)))) ∧
    (∀ n, s.servesMgmt (.sensor n) → sensorListed s.fuses.lx n = true →
      (s.sensorOn n = false → exec (.getSensorReading n) s = .next (s.pldm pldmOk [1])) ∧
      (∀ v, s.sensorOn n = true → s.heldReading n = some v → ∃ th,
        exec (.getSensorReading n) s = .next ((s.drawn 2).pldm pldmOk (0 :: th :: toLe 4 v)) ∧ (n = 0x20 → s.pwr.coolLow = true → th = 6) ∧
        (s.pwr.hot.contains n = true → (n = 0x20 ∧ s.pwr.coolLow = true) ∨ th = 9)) ∧
      (s.sensorOn n = true → s.heldReading n = none → ∃ th v, v < 65536 ∧
        exec (.getSensorReading n) s = .next (((s.drawn 2).setSensor n v).pldm pldmOk (0 :: th :: toLe 4 v)))) ∧
    (∀ k v, s.servesMgmt (.numeric k v) →
      (k = 0x0200 → 1500 ≤ v → v ≤ 2395 → exec (.setNumericEffecter k v) s = .next ((s.setPwrField 27 16 v).pldm pldmOk [])) ∧
      (k = 0x0201 → 27 ≤ v → v ≤ 63 → exec (.setNumericEffecter k v) s = .next ((s.setPwrField 5 0 v).pldm pldmOk [])) ∧
      (k = 0x0202 → v ≤ 255 → exec (.setNumericEffecter k v) s = .next ((s.setPwrField 15 8 v).pldm pldmOk [])) ∧
      (k = 0x0200 → (v < 1500 ∨ 2395 < v) → exec (.setNumericEffecter k v) s = .next (s.pldm pldmInvalid []))) ∧
    (∀ v, s.servesMgmt (.state 0x0210 v) → v < 4 → exec (.setStateEffecter 0x0210 v) s = .next ((s.powerReq v).pldm pldmOk [])) ∧
    (∀ n, s.servesMgmt (.requestUpdate n) →
      (s.sec.update ≠ none → exec (.requestUpdate n) s = .next (s.pldm pldmUpdating [])) ∧
      (s.sec.update = none → 0 < n → n ≤ 0x3000000 → ∃ t, exec (.requestUpdate n) s = .next t ∧
        t.sec.update = some ⟨1 - s.fw.image % 2, 0, n, none⟩ ∧ t.fw.otherValid = false ∧ t.fw.image = s.fw.image)) ∧
    (∀ bs u, s.servesMgmt (.data bs) → s.sec.update = some u → u.result = none → bs.length = min 1024 (u.total - u.got) →
      u.got + bs.length < u.total → ∃ t, exec (.requestFirmwareData bs) s = .next t ∧
        t.sec.update = some { u with got := u.got + bs.length } ∧ t.fw = s.fw.flashWrite (imageBase u.region + u.got) bs) ∧
    (∀ u, s.servesMgmt .activate → s.sec.update = some u → u.result = some 0 → ∃ t, exec .activateFirmware s = .next t ∧
      t.sec.update = none ∧ t.fw.flash = s.fw.flash) ∧
    (∀ u, s.servesMgmt .cancel → s.sec.update = some u → ∃ t, exec .cancelUpdate s = .next t ∧ t.sec.update = none ∧
      t.fw.otherValid = false ∧ t.fw.image = s.fw.image) ∧
    (s.servesMgmt .cancel → s.sec.update = none → exec .cancelUpdate s = .next (s.pldm pldmNotUpdating []))

/-- The debug level decides what each class of TAP instruction does; a refused one selects BYPASS and is counted (R365, R372, R497, R499, R500). -/
def Obligations.TapClassesPermitted : Prop :=
  ∀ s : State,
    let denied : State := { s.tapSelect 0 with sec := { s.sec with tapDeny := s.sec.tapDeny + 1 } }
    let full : List Instr := [.tapHalt (.core 0), .tapResume (.core 0), .tapStep (.core 0)]
    (∀ i ∈ full, s.pwr.pstate ≤ 4 → s.sec.level < 2 → exec i s = .next denied) ∧
    (s.pwr.pstate ≤ 4 →
      exec .tapBypass s = .next (s.tapSelect 0) ∧
      exec .tapIdcode s = .next ((s.tapSelect irIdcode).tapOut (toLe 4 s.idcode)) ∧
      (∀ p d, exec (.tapSamplePreload p d) s =
        .next (let t := s.tapSelect irSample; { t with tap := { t.tap with pins := p, drive := d.getD t.tap.drive } })) ∧
      exec .tapExtest s = .next (if s.pwr.pstate = 4 then (let t := s.tapSelect irExtest; { t with tap := { t.tap with driving := true } }) else denied) ∧
      (∀ sp o n, exec (.tapRegRead sp o n) s = .next (if 1 ≤ s.sec.level then
        (let r := (s.tapSelect irRegRead).regRead .tap sp o n; r.2.tapOut r.1) else denied)) ∧
      (∀ a n, exec (.tapMemRead a n) s = .next (if 1 ≤ s.sec.level then
        (let r := (s.tapSelect irMemRead).tapRead a n; r.2.tapOut r.1) else denied)) ∧
      (∀ n, exec (.tapTraceRead n) s = .next (if 1 ≤ s.sec.level then
        (let t := s.tapSelect irTraceRead; t.tapOut (t.traceBytes n)) else denied)) ∧
      (∀ t, exec (.tapHalt t) s = .next (if s.sec.level = 2 then (s.tapSelect irHalt).haltTarget t else denied)) ∧
      (∀ c, s.sec.level = 2 → exec (.tapResume (.core c)) s =
        .next ((s.tapSelect irResume).updCore c fun x => { x with ctl := { x.ctl with tapHalt := false } })) ∧
      (∀ p, s.sec.level = 2 → exec (.tapResume (.proc p)) s = .next (let t := s.tapSelect irResume
        if t.tapProc p = true ∧ t.fw.procs[p].halted = true then (t.updProc p fun x => { x with halted := false }).servedAgain p else t)) ∧
      (∀ p, s.sec.level = 2 → exec (.tapStep (.proc p)) s = .next (s.tapSelect irStep)) ∧
      (∀ c, s.sec.level = 2 → s.cores[c].ctl.tapHalt = false → exec (.tapStep (.core c)) s = .next (s.tapSelect irStep)) ∧
      (∀ t, s.sec.level ≠ 2 → exec (.tapResume t) s = .next denied ∧ exec (.tapStep t) s = .next denied) ∧
      (∀ c t, s.sec.level = 2 → s.cores[c].ctl.tapHalt = true →
        ((s.tapSelect irStep).updCore c fun x => { x with ctl := { x.ctl with tapHalt := false } }).fetch c = .next t →
        exec (.tapStep (.core c)) s = .next (t.updCore c fun x => { x with ctl := { x.ctl with tapHalt := true } })) ∧
      (∀ sp o n x, s.sec.level ≠ 2 → exec (.tapRegWrite sp o n x) s = .next denied) ∧
      (∀ sp o n x, s.sec.level = 2 → exec (.tapRegWrite sp o n x) s = .next ((s.tapSelect irRegWrite).regWrite .tap sp o n x)) ∧
      (∀ n x, s.sec.level = 2 → exec (.tapRegWrite .bar0 0x010 8 x) s =
        .next (let t := s.tapSelect irRegWrite; { t with hif := { t.hif with hbTime := x &&& 0xffff#64 } }) ∧
        exec (.tapRegWrite .bar0 (0x4000000 + n) 8 x) s = .next (s.tapSelect irRegWrite)) ∧
      (∀ a bs, s.sec.level ≠ 2 → exec (.tapMemWrite a bs) s = .next denied) ∧
      (∀ a bs, s.sec.level = 2 → exec (.tapMemWrite a bs) s = .next ((s.tapSelect irMemWrite).tapWrite a bs)) ∧
      (∀ a, s.sec.level = 2 → exec (.tapMemWrite a []) s = .next (s.tapSelect irMemWrite)) ∧
      (∀ d, s.sec.level = 2 → s.fuses.lifecycle ≠ 2 → (s.dieOn d = false ∨ s.tap.testMode.contains d = true) →
        exec (.tapStandAlone d) s = .next (s.tapSelect irTestMode)) ∧
      (∀ d, s.sec.level = 2 → s.fuses.lifecycle ≠ 2 → ∃ bs, bs.length = 8 ∧ (s.dieOn d = false → bs = List.replicate 8 0) ∧
        exec (.tapIeee1500 d) s = .next (((s.tapSelect irWrapper).drawn 1).tapOut bs)) ∧
      (∀ d, s.sec.level = 2 → s.fuses.lifecycle ≠ 2 → s.dieOn d = true → s.tap.testMode.contains d = false →
        exec (.tapStandAlone d) s = .next (let t := s.tapSelect irTestMode; { t with tap := { t.tap with testMode := t.tap.testMode ++ [d] } })) ∧
      (∀ d, (s.sec.level ≠ 2 ∨ s.fuses.lifecycle = 2) → exec (.tapStandAlone d) s = .next denied ∧ exec (.tapIeee1500 d) s = .next denied) ∧
      (∀ o n d, (s.fuses.lifecycle = 1 ∨ s.fuses.lifecycle = 2 ∨ s.sec.level ≠ 2) → exec (.tapFlash o n d) s = .next denied) ∧
      (∀ o n, s.sec.level = 2 → (s.fuses.lifecycle = 0 ∨ s.fuses.lifecycle = 3) →
        exec (.tapFlash o n none) s = .next ((s.tapSelect irFlash).tapOut (s.fw.flashRead o (min n (0x8000000 - o))))) ∧
      (∀ o n bs, s.sec.level = 2 → (s.fuses.lifecycle = 0 ∨ s.fuses.lifecycle = 3) → exec (.tapFlash o n (some bs)) s =
        .next { s.tapSelect irFlash with fw := s.fw.flashWrite o (bs.take (min bs.length (0x8000000 - o))) })) ∧
    (4 < s.pwr.pstate → exec .tapBypass s = .next s ∧ ∀ a bs, exec (.tapMemWrite a bs) s = .next s)

/-- The lifecycle fuses decide the lifecycle state, the identity key and the debug level of each start (R492). -/
def Obligations.LifecycleSetsTheLevel : Prop :=
  (∀ (s : State) (z : Fuses) (root ref : Bool), s.start.coldHeld = true → s.pwr.pstate = 4 →
    ∃ t, exec (.coldResetRelease ⟨z, root, ref⟩) s = .next t ∧ t.fuses = z ∧
      (z.lc = 0#3 → t.fuses.lifecycle = 0 ∧ t.sec.level = 2 ∧ t.fuses.hasKey = false) ∧
      (z.lc = 1#3 → t.fuses.lifecycle = 1 ∧ t.sec.level = 1 ∧ (z.keyKill = false → t.fuses.hasKey = true)) ∧
      (z.lc = 3#3 → t.fuses.lifecycle = 2 ∧ t.sec.level = 0 ∧ (z.keyKill = false → t.fuses.hasKey = true)) ∧
      (z.lc ≠ 0#3 → z.lc ≠ 1#3 → z.lc ≠ 3#3 → t.fuses.lifecycle = 3 ∧ t.sec.level = 2 ∧ t.fuses.hasKey = false)) ∧
  (∀ (s : State) (f : StartFacts), s.pwr.pstate = 4 → s.start.coldDone = true → s.start.coldHeld = false → s.start.barred = false →
    s.starting = false → ({ s with inp := { s.inp with refOk := f.refOk } } : State).waitCond = 0 → s.procUp procMP = true → s.sec.raise = false →
    ∃ t, exec (.startFromP4 f) s = .next t ∧ t.fuses = s.fuses ∧
      (s.fuses.lc = 0#3 → t.sec.level = 2) ∧ (s.fuses.lc = 1#3 → t.sec.level = 1) ∧ (s.fuses.lc = 3#3 → t.sec.level = 0) ∧
      (s.fuses.lc ≠ 0#3 → s.fuses.lc ≠ 1#3 → s.fuses.lc ≠ 3#3 → t.sec.level = 2))

/-- The state after reset: what the spec gives, the canonical form of memory, and the security invariant, the model's choice in log 33 (R25, R380, R389, R446, R492). -/
def Obligations.StateAfterReset : Prop :=
  State.reset.pending = [] ∧ State.reset.memOk ∧ State.reset.secOk ∧ State.reset.mem.bytes = [] ∧ State.reset.hif.attached = false ∧
  State.reset.pwr.pstate = 4 ∧ State.reset.start.coldHeld = true ∧ State.reset.start.coldDone = false ∧ State.reset.job.state = 0 ∧
  (∀ q : QId, State.reset.hif.queues[q].state = qDisabled) ∧
  (∀ c : CoreId, State.reset.cores[c].ctl.run = false ∧ State.reset.cores[c].ops = [] ∧ State.reset.cores[c].regs.pc = 0)

/-- No step takes lifecycle FIELD to debug level FULL, nor leaves a raise to it waiting (R492, R498, R500). -/
def Obligations.FieldNeverReachesFull : Prop :=
  ∀ s t : State, s.secOk → step s = .next t → t.secOk

/-- Every command completes, and none adds to, removes from or reorders the waiting commands, the model's choice in log 29 (spec/INDEX.md). -/
def Obligations.CommandsLeaveTheQueue : Prop :=
  ∀ (i : Instr) (s : State), ∃ t, exec i s = .next t ∧ t.pending = s.pending
end

