-- ==== Sys2Proof/Laws/Cells.lean ====
section
/-! SUPPORT. Laws of the sparse tables: reading after writing, and every table operation keeps the canonical form. -/

namespace Sys2Proof.Machine

theorem wfFrom_mono {w : Nat} {lo hi : Nat} {m : Cells w} (h : hi ≤ lo) (hm : Cells.wfFrom lo m = true) :
    Cells.wfFrom hi m = true := by
  cases m with
  | nil => rfl
  | cons c r =>
    simp only [Cells.wfFrom, Bool.and_eq_true, decide_eq_true_eq] at hm ⊢
    exact ⟨⟨h.trans hm.1.1, hm.1.2⟩, hm.2⟩

/-- A key below the bound of a table is unlisted. -/
theorem get_below {w : Nat} {lo a : Nat} {m : Cells w} (hm : Cells.wfFrom lo m = true) (h : a < lo) : Cells.get m a = 0#w := by
  cases m with
  | nil => rfl
  | cons c r =>
    simp only [Cells.wfFrom, Bool.and_eq_true, decide_eq_true_eq] at hm
    have h1 : c.1 ≠ a := by omega
    have h2 : a < c.1 := by omega
    simp [Cells.get, h1, h2]

theorem set_wfFrom {w : Nat} {lo a : Nat} {v : BitVec w} {m : Cells w} (ha : lo ≤ a) (hm : Cells.wfFrom lo m = true) :
    Cells.wfFrom lo (Cells.set m a v) = true := by
  induction m generalizing lo with
  | nil => by_cases hv : v = 0#w <;> simp [Cells.set, Cells.wfFrom, hv, ha]
  | cons c r ih =>
    simp only [Cells.wfFrom, Bool.and_eq_true, decide_eq_true_eq] at hm
    obtain ⟨⟨h1, h2⟩, h3⟩ := hm
    rcases lt_trichotomy a c.1 with h | h | h
    · by_cases hv : v = 0#w
      · simp [Cells.set, Cells.wfFrom, h, hv, h1, h2, h3]
      · have : a + 1 ≤ c.1 := h
        simp [Cells.set, Cells.wfFrom, h, hv, h2, h3, ha, this]
    · by_cases hv : v = 0#w
      · simpa [Cells.set, h, hv] using wfFrom_mono (by omega) h3
      · simp [Cells.set, Cells.wfFrom, h, hv, h3]; omega
    · have h4 : ¬ a < c.1 := by omega
      have h5 : ¬ c.1 = a := by omega
      simp only [Cells.set, h4, h5, if_false, Cells.wfFrom, Bool.and_eq_true, decide_eq_true_eq]
      exact ⟨⟨h1, h2⟩, ih h h3⟩

/-- Writing one key keeps the canonical form. -/
theorem set_wf {w : Nat} {a : Nat} {v : BitVec w} {m : Cells w} (hm : Cells.wf m = true) : Cells.wf (Cells.set m a v) = true :=
  set_wfFrom (Nat.zero_le a) hm

theorem get_set_from {w : Nat} {lo a b : Nat} {v : BitVec w} {m : Cells w} (hm : Cells.wfFrom lo m = true) :
    Cells.get (Cells.set m a v) b = if b = a then v else Cells.get m b := by
  induction m generalizing lo with
  | nil =>
    by_cases hv : v = 0#w
    · simp [Cells.set, Cells.get, hv]
    · by_cases hb : b = a
      · simp [Cells.set, Cells.get, hv, hb]
      · have : ¬ a = b := fun e => hb e.symm
        simp [Cells.set, Cells.get, hv, hb, this]
  | cons c r ih =>
    simp only [Cells.wfFrom, Bool.and_eq_true, decide_eq_true_eq] at hm
    obtain ⟨⟨h1, h2⟩, h3⟩ := hm
    rcases lt_trichotomy a c.1 with h | h | h
    · by_cases hv : v = 0#w
      · by_cases hb : b = a
        · have e1 : c.1 ≠ a := by omega
          simp [Cells.set, Cells.get, h, hv, hb, e1]
        · simp [Cells.set, h, hv, hb]
      · by_cases hb : b = a
        · simp [Cells.set, Cells.get, h, hv, hb]
        · have e1 : ¬ a = b := fun e => hb e.symm
          by_cases e2 : b < a
          · have e3 : c.1 ≠ b := by omega
            have e4 : b < c.1 := by omega
            simp [Cells.set, Cells.get, h, hv, hb, e1, e2, e3, e4]
          · simp [Cells.set, Cells.get, h, hv, hb, e1, e2]
    · subst h
      by_cases hb : b = c.1
      · by_cases hv : v = 0#w
        · have := get_below (a := b) h3 (by omega)
          simp [Cells.set, hv, hb] at this ⊢; exact this
        · simp [Cells.set, Cells.get, hv, hb]
      · have e1 : ¬ c.1 = b := fun e => hb e.symm
        by_cases hv : v = 0#w
        · by_cases e2 : b < c.1
          · have := get_below (a := b) h3 (by omega)
            simp [Cells.set, Cells.get, hv, hb, e1, e2, this]
          · simp [Cells.set, Cells.get, hv, hb, e1, e2]
        · simp [Cells.set, Cells.get, hv, hb, e1]
    · have h4 : ¬ a < c.1 := by omega
      have h5 : ¬ c.1 = a := by omega
      simp only [Cells.set, h4, h5, if_false]
      by_cases hb : c.1 = b
      · have : b ≠ a := by omega
        simp [Cells.get, hb, this]
      · by_cases e2 : b < c.1
        · have : b ≠ a := by omega
          simp [Cells.get, hb, e2, this]
        · simp only [Cells.get, hb, e2, if_false]
          exact ih h3

/-- A written key reads as what was written, every other key as before. -/
theorem get_set {w : Nat} {a b : Nat} {v : BitVec w} {m : Cells w} (hm : Cells.wf m = true) :
    Cells.get (Cells.set m a v) b = if b = a then v else Cells.get m b := get_set_from hm

/-- Writing consecutive keys keeps the canonical form. -/
theorem write_wf {w : Nat} {a : Nat} {vs : List (BitVec w)} {m : Cells w} (hm : Cells.wf m = true) :
    Cells.wf (Cells.write m a vs) = true := by
  induction vs generalizing m a with
  | nil => exact hm
  | cons v vs ih => exact ih (set_wf hm)

/-- Keys outside the written range read as before. -/
theorem get_write_other {w : Nat} {a b : Nat} {vs : List (BitVec w)} {m : Cells w} (hm : Cells.wf m = true)
    (hb : b < a ∨ a + vs.length ≤ b) : Cells.get (Cells.write m a vs) b = Cells.get m b := by
  induction vs generalizing m a with
  | nil => rfl
  | cons v vs ih =>
    have h1 : b ≠ a := by rintro rfl; simp at hb
    have h2 : b < a + 1 ∨ a + 1 + vs.length ≤ b := by simp only [List.length_cons] at hb; omega
    rw [Cells.write, ih (set_wf hm) h2, get_set hm, if_neg h1]

/-- Keys inside the written range read as the words written. -/
theorem get_write_in {w : Nat} {a i : Nat} {vs : List (BitVec w)} {m : Cells w} (hm : Cells.wf m = true) (hi : i < vs.length) :
    Cells.get (Cells.write m a vs) (a + i) = vs[i] := by
  induction vs generalizing m a i with
  | nil => simp at hi
  | cons v vs ih =>
    cases i with
    | zero => rw [Cells.write, get_write_other (set_wf hm) (by omega), get_set hm]; simp
    | succ i =>
      have : a + (i + 1) = a + 1 + i := by omega
      rw [this, Cells.write, ih (set_wf hm)]; rfl

theorem filter_wfFrom {w : Nat} {lo : Nat} {p : Nat × BitVec w → Bool} {m : Cells w} (hm : Cells.wfFrom lo m = true) :
    Cells.wfFrom lo (m.filter p) = true := by
  induction m generalizing lo with
  | nil => rfl
  | cons c r ih =>
    simp only [Cells.wfFrom, Bool.and_eq_true, decide_eq_true_eq] at hm
    by_cases hp : p c = true
    · simp only [List.filter_cons, hp, if_true, Cells.wfFrom, Bool.and_eq_true, decide_eq_true_eq]
      exact ⟨hm.1, ih hm.2⟩
    · simp only [List.filter_cons, hp]
      exact ih (wfFrom_mono (by omega) hm.2)

/-- Dropping entries keeps the canonical form. -/
theorem filter_wf {w : Nat} {p : Nat × BitVec w → Bool} {m : Cells w} (hm : Cells.wf m = true) :
    Cells.wf (m.filter p) = true := filter_wfFrom hm

/-- Clearing a range keeps the canonical form. -/
theorem clear_wf {w : Nat} {a n : Nat} {m : Cells w} (hm : Cells.wf m = true) : Cells.wf (Cells.clear m a n) = true :=
  filter_wfFrom hm

/-- Two tables joined are canonical when the first ends below the second. -/
theorem append_wfFrom {w : Nat} {lo mid : Nat} {m m' : Cells w} (h : lo ≤ mid) (hm : Cells.wfFrom lo m = true)
    (hk : ∀ c ∈ m, c.1 < mid) (hm' : Cells.wfFrom mid m' = true) : Cells.wfFrom lo (m ++ m') = true := by
  induction m generalizing lo with
  | nil => exact wfFrom_mono h hm'
  | cons c r ih =>
    simp only [Cells.wfFrom, Bool.and_eq_true, decide_eq_true_eq] at hm
    simp only [List.cons_append, Cells.wfFrom, Bool.and_eq_true, decide_eq_true_eq]
    exact ⟨hm.1, ih (hk c (by simp)) hm.2 fun d hd => hk d (by simp [hd])⟩

theorem dense_wfFrom {w : Nat} {a k : Nat} {vs : List (BitVec w)} :
    Cells.wfFrom (a + k) ((vs.zipIdx k).filterMap fun p => if p.1 = 0#w then none else some (a + p.2, p.1)) = true ∧
      ∀ c ∈ ((vs.zipIdx k).filterMap fun p => if p.1 = 0#w then none else some (a + p.2, p.1)), c.1 < a + k + vs.length := by
  induction vs generalizing k with
  | nil => simp [Cells.wfFrom]
  | cons v vs ih =>
    have h := ih (k := k + 1)
    by_cases hv : v = 0#w
    · simp only [List.zipIdx_cons, List.filterMap_cons, hv, if_true, List.length_cons]
      refine ⟨wfFrom_mono (by omega) h.1, fun c hc => ?_⟩
      have := h.2 c hc
      omega
    · simp only [List.zipIdx_cons, List.filterMap_cons, hv, if_false, List.length_cons, Cells.wfFrom, Bool.and_eq_true,
        decide_eq_true_eq, List.mem_cons]
      refine ⟨⟨⟨Nat.le_refl _, hv⟩, h.1⟩, fun c hc => ?_⟩
      rcases hc with rfl | hc
      · simp
      · have := h.2 c hc
        omega

/-- Writing a block in one walk keeps the canonical form. -/
theorem putDense_wf {w : Nat} {a : Nat} {vs : List (BitVec w)} {m : Cells w} (hm : Cells.wf m = true) :
    Cells.wf (Cells.putDense m a vs) = true := by
  have hd := dense_wfFrom (a := a) (k := 0) (vs := vs)
  have hlow : Cells.wfFrom 0 (m.filter fun c => decide (c.1 < a)) = true := filter_wfFrom hm
  have hhigh : ∀ (lo : Nat) (m : Cells w), Cells.wfFrom lo m = true →
      Cells.wfFrom (a + vs.length) (m.filter fun c => decide (a + vs.length ≤ c.1)) = true := by
    intro lo m
    induction m generalizing lo with
    | nil => intro; rfl
    | cons c r ih =>
      intro h
      simp only [Cells.wfFrom, Bool.and_eq_true, decide_eq_true_eq] at h
      by_cases hc : a + vs.length ≤ c.1
      · simp only [List.filter_cons, hc, decide_true, if_true, Cells.wfFrom, Bool.and_eq_true, decide_eq_true_eq]
        exact ⟨⟨trivial, h.1.2⟩, filter_wfFrom h.2⟩
      · simp only [List.filter_cons, hc, decide_false]
        exact ih _ h.2
  unfold Cells.putDense Cells.wf
  rw [List.append_assoc]
  refine append_wfFrom (mid := a) (Nat.zero_le a) hlow (fun c hc => by simpa using (List.mem_filter.mp hc).2) ?_
  exact append_wfFrom (mid := a + vs.length) (by omega) (by simpa using hd.1) (fun c hc => by simpa using hd.2 c hc) (hhigh _ m hm)

end Sys2Proof.Machine
end

