-- ==== Sys2Proof/Laws/Exec.lean ====
section
/-! SUPPORT. What `exec` calls for each command: one lemma per constructor, so that no proof unfolds the whole dispatch. -/

namespace Sys2Proof.Machine

variable (s : State)

@[simp] theorem exec_bundleFetch (c : CoreId) : exec (.bundleFetch c) s = execBundleFetch c s := rfl
@[simp] theorem exec_slotNop (c : CoreId) (g : Guard) : exec (.slotNop c g) s = execSlotNop c g s := rfl
@[simp] theorem exec_sAdd (c : CoreId) (g : Guard) (rd : SReg) (rs1 : SReg) (rs2 : SReg) : exec (.sAdd c g rd rs1 rs2) s = execSAdd c g rd rs1 rs2 s := rfl
@[simp] theorem exec_sSub (c : CoreId) (g : Guard) (rd : SReg) (rs1 : SReg) (rs2 : SReg) : exec (.sSub c g rd rs1 rs2) s = execSSub c g rd rs1 rs2 s := rfl
@[simp] theorem exec_sAnd (c : CoreId) (g : Guard) (rd : SReg) (rs1 : SReg) (rs2 : SReg) : exec (.sAnd c g rd rs1 rs2) s = execSAnd c g rd rs1 rs2 s := rfl
@[simp] theorem exec_sOr (c : CoreId) (g : Guard) (rd : SReg) (rs1 : SReg) (rs2 : SReg) : exec (.sOr c g rd rs1 rs2) s = execSOr c g rd rs1 rs2 s := rfl
@[simp] theorem exec_sXor (c : CoreId) (g : Guard) (rd : SReg) (rs1 : SReg) (rs2 : SReg) : exec (.sXor c g rd rs1 rs2) s = execSXor c g rd rs1 rs2 s := rfl
@[simp] theorem exec_sShl (c : CoreId) (g : Guard) (rd : SReg) (rs1 : SReg) (rs2 : SReg) : exec (.sShl c g rd rs1 rs2) s = execSShl c g rd rs1 rs2 s := rfl
@[simp] theorem exec_sShr (c : CoreId) (g : Guard) (rd : SReg) (rs1 : SReg) (rs2 : SReg) : exec (.sShr c g rd rs1 rs2) s = execSShr c g rd rs1 rs2 s := rfl
@[simp] theorem exec_sSra (c : CoreId) (g : Guard) (rd : SReg) (rs1 : SReg) (rs2 : SReg) : exec (.sSra c g rd rs1 rs2) s = execSSra c g rd rs1 rs2 s := rfl
@[simp] theorem exec_sMul (c : CoreId) (g : Guard) (rd : SReg) (rs1 : SReg) (rs2 : SReg) : exec (.sMul c g rd rs1 rs2) s = execSMul c g rd rs1 rs2 s := rfl
@[simp] theorem exec_sMin (c : CoreId) (g : Guard) (rd : SReg) (rs1 : SReg) (rs2 : SReg) : exec (.sMin c g rd rs1 rs2) s = execSMin c g rd rs1 rs2 s := rfl
@[simp] theorem exec_sMax (c : CoreId) (g : Guard) (rd : SReg) (rs1 : SReg) (rs2 : SReg) : exec (.sMax c g rd rs1 rs2) s = execSMax c g rd rs1 rs2 s := rfl
@[simp] theorem exec_sAddi (c : CoreId) (g : Guard) (rd : SReg) (rs1 : SReg) (imm : BitVec 12) : exec (.sAddi c g rd rs1 imm) s = execSAddi c g rd rs1 imm s := rfl
@[simp] theorem exec_sLi (c : CoreId) (g : Guard) (rd : SReg) (imm : BitVec 17) : exec (.sLi c g rd imm) s = execSLi c g rd imm s := rfl
@[simp] theorem exec_sSli (c : CoreId) (g : Guard) (rd : SReg) (imm : BitVec 16) : exec (.sSli c g rd imm) s = execSSli c g rd imm s := rfl
@[simp] theorem exec_sCmp (c : CoreId) (g : Guard) (pd : PReg) (rs1 : SReg) (rs2 : SReg) (fn : BitVec 7) : exec (.sCmp c g pd rs1 rs2 fn) s = execSCmp c g pd rs1 rs2 fn s := rfl
@[simp] theorem exec_sCmpi (c : CoreId) (g : Guard) (pd : PReg) (rs1 : Fin 16) (imm : BitVec 12) (fn : BitVec 3) : exec (.sCmpi c g pd rs1 imm fn) s = execSCmpi c g pd rs1 imm fn s := rfl
@[simp] theorem exec_sPop (c : CoreId) (g : Guard) (pd : PReg) (pa : PReg) (pb : PReg) (fn : BitVec 4) : exec (.sPop c g pd pa pb fn) s = execSPop c g pd pa pb fn s := rfl
@[simp] theorem exec_sLd (c : CoreId) (g : Guard) (rd : SReg) (rs1 : SReg) (imm : BitVec 12) : exec (.sLd c g rd rs1 imm) s = execSLd c g rd rs1 imm s := rfl
@[simp] theorem exec_sSt (c : CoreId) (g : Guard) (rd : SReg) (rs1 : SReg) (imm : BitVec 12) : exec (.sSt c g rd rs1 imm) s = execSSt c g rd rs1 imm s := rfl
@[simp] theorem exec_sFadd (c : CoreId) (g : Guard) (rd : SReg) (rs1 : SReg) (rs2 : SReg) : exec (.sFadd c g rd rs1 rs2) s = execSFadd c g rd rs1 rs2 s := rfl
@[simp] theorem exec_sFmul (c : CoreId) (g : Guard) (rd : SReg) (rs1 : SReg) (rs2 : SReg) : exec (.sFmul c g rd rs1 rs2) s = execSFmul c g rd rs1 rs2 s := rfl
@[simp] theorem exec_sFma (c : CoreId) (g : Guard) (rd : SReg) (rs1 : SReg) (rs2 : SReg) : exec (.sFma c g rd rs1 rs2) s = execSFma c g rd rs1 rs2 s := rfl
@[simp] theorem exec_sFcvt (c : CoreId) (g : Guard) (rd : SReg) (rs1 : SReg) (fn : BitVec 7) : exec (.sFcvt c g rd rs1 fn) s = execSFcvt c g rd rs1 fn s := rfl
@[simp] theorem exec_sCsrr (c : CoreId) (g : Guard) (rd : SReg) (n : BitVec 12) : exec (.sCsrr c g rd n) s = execSCsrr c g rd n s := rfl
@[simp] theorem exec_sCsrw (c : CoreId) (g : Guard) (n : BitVec 12) (rs1 : SReg) : exec (.sCsrw c g n rs1) s = execSCsrw c g n rs1 s := rfl
@[simp] theorem exec_sJmp (c : CoreId) (g : Guard) (off : BitVec 22) : exec (.sJmp c g off) s = execSJmp c g off s := rfl
@[simp] theorem exec_sCall (c : CoreId) (g : Guard) (off : BitVec 22) : exec (.sCall c g off) s = execSCall c g off s := rfl
@[simp] theorem exec_sRet (c : CoreId) (g : Guard) : exec (.sRet c g) s = execSRet c g s := rfl
@[simp] theorem exec_sLoop (c : CoreId) (g : Guard) (rs1 : SReg) (body : BitVec 12) : exec (.sLoop c g rs1 body) s = execSLoop c g rs1 body s := rfl
@[simp] theorem exec_sHalt (c : CoreId) (g : Guard) : exec (.sHalt c g) s = execSHalt c g s := rfl
@[simp] theorem exec_workItemEnd (c : CoreId) : exec (.workItemEnd c) s = execWorkItemEnd c s := rfl
@[simp] theorem exec_workItemDispatch (c : CoreId) (w : WorkItem) : exec (.workItemDispatch c w) s = execWorkItemDispatch c w s := rfl
@[simp] theorem exec_mCfg (c : CoreId) (g : Guard) (fmta : BitVec 4) (fmtb : BitVec 4) (sparse : BitVec 2) : exec (.mCfg c g fmta fmtb sparse) s = execMCfg c g fmta fmtb sparse s := rfl
@[simp] theorem exec_mBload (c : CoreId) (g : Guard) (ag : AgId) (post : Option SemId) (kreg : SReg) : exec (.mBload c g ag post kreg) s = execMBload c g ag post kreg s := rfl
@[simp] theorem exec_mPass (c : CoreId) (g : Guard) (ag : AgId) (bank : Bool) (keep : Bool) (post : Option SemId) (kreg : SReg) : exec (.mPass c g ag bank keep post kreg) s = execMPass c g ag bank keep post kreg s := rfl
@[simp] theorem exec_passFrontEndStart (c : CoreId) : exec (.passFrontEndStart c) s = execPassFrontEndStart c s := rfl
@[simp] theorem exec_arrayIssueSlot (c : CoreId) : exec (.arrayIssueSlot c) s = execArrayIssueSlot c s := rfl
@[simp] theorem exec_passComplete (c : CoreId) : exec (.passComplete c) s = execPassComplete c s := rfl
@[simp] theorem exec_bloadStart (c : CoreId) : exec (.bloadStart c) s = execBloadStart c s := rfl
@[simp] theorem exec_bloadSlotWrite (c : CoreId) : exec (.bloadSlotWrite c) s = execBloadSlotWrite c s := rfl
@[simp] theorem exec_levelStep (c : CoreId) (quiet : Bool) : exec (.levelStep c quiet) s = execLevelStep c quiet s := rfl
@[simp] theorem exec_topupDecrement (c : CoreId) : exec (.topupDecrement c) s = execTopupDecrement c s := rfl
@[simp] theorem exec_vChain (c : CoreId) (g : Guard) (rs : SReg) (post : Option SemId) : exec (.vChain c g rs post) s = execVChain c g rs post s := rfl
@[simp] theorem exec_vLd (c : CoreId) (g : Guard) (vd : VReg) (ag : AgId) : exec (.vLd c g vd ag) s = execVLd c g vd ag s := rfl
@[simp] theorem exec_vSt (c : CoreId) (g : Guard) (vs : VReg) (ag : AgId) : exec (.vSt c g vs ag) s = execVSt c g vs ag s := rfl
@[simp] theorem exec_vAcc (c : CoreId) (g : Guard) (vd : VReg) (bank : Bool) (half : Bool) (r : Fin 32) : exec (.vAcc c g vd bank half r) s = execVAcc c g vd bank half r s := rfl
@[simp] theorem exec_vRed (c : CoreId) (g : Guard) (vd : VReg) (va : VReg) (fn : BitVec 4) : exec (.vRed c g vd va fn) s = execVRed c g vd va fn s := rfl
@[simp] theorem exec_vMvs (c : CoreId) (g : Guard) (sd : SReg) (va : VReg) (idx : Fin 64) : exec (.vMvs c g sd va idx) s = execVMvs c g sd va idx s := rfl
@[simp] theorem exec_vSpl (c : CoreId) (g : Guard) (vd : VReg) (rs : SReg) : exec (.vSpl c g vd rs) s = execVSpl c g vd rs s := rfl
@[simp] theorem exec_vOp (c : CoreId) (g : Guard) (code : BitVec 9) (vd : VReg) (va : VReg) (vb : VReg) : exec (.vOp c g code vd va vb) s = execVOp c g code vd va vb s := rfl
@[simp] theorem exec_chainStart (c : CoreId) : exec (.chainStart c) s = execChainStart c s := rfl
@[simp] theorem exec_chainComplete (c : CoreId) : exec (.chainComplete c) s = execChainComplete c s := rfl
@[simp] theorem exec_xferCopy (c : CoreId) (g : Guard) (rs : SReg) (post : Option SemId) : exec (.xferCopy c g rs post) s = execXferCopy c g rs post s := rfl
@[simp] theorem exec_xferFill (c : CoreId) (g : Guard) (rs : SReg) (post : Option SemId) : exec (.xferFill c g rs post) s = execXferFill c g rs post s := rfl
@[simp] theorem exec_xferWback (c : CoreId) (g : Guard) (rs : SReg) (post : Option SemId) : exec (.xferWback c g rs post) s = execXferWback c g rs post s := rfl
@[simp] theorem exec_xferWarm (c : CoreId) (g : Guard) (rs : SReg) (post : Option SemId) : exec (.xferWarm c g rs post) s = execXferWarm c g rs post s := rfl
@[simp] theorem exec_xferComplete (c : CoreId) (op : Nat) : exec (.xferComplete c op) s = execXferComplete c op s := rfl
@[simp] theorem exec_dCopy (c : CoreId) (g : Guard) (rsrc : SReg) (rdst : SReg) (rlen : SReg) (post : Option SemId) : exec (.dCopy c g rsrc rdst rlen post) s = execDCopy c g rsrc rdst rlen post s := rfl
@[simp] theorem exec_dCopyComplete (c : CoreId) (op : Nat) : exec (.dCopyComplete c op) s = execDCopyComplete c op s := rfl
@[simp] theorem exec_dAgld (c : CoreId) (g : Guard) (ag : AgId) (rs : SReg) : exec (.dAgld c g ag rs) s = execDAgld c g ag rs s := rfl
@[simp] theorem exec_dImem (c : CoreId) (g : Guard) (rs : SReg) (post : Option SemId) : exec (.dImem c g rs post) s = execDImem c g rs post s := rfl
@[simp] theorem exec_imemLoadComplete (c : CoreId) (op : Nat) : exec (.imemLoadComplete c op) s = execImemLoadComplete c op s := rfl
@[simp] theorem exec_allreduce (src : CollSrc) : exec (.allreduce src) s = execAllreduce src s := rfl
@[simp] theorem exec_reduceScatter (src : CollSrc) : exec (.reduceScatter src) s = execReduceScatter src s := rfl
@[simp] theorem exec_allgather (src : CollSrc) : exec (.allgather src) s = execAllgather src s := rfl
@[simp] theorem exec_alltoall (src : CollSrc) : exec (.alltoall src) s = execAlltoall src s := rfl
@[simp] theorem exec_alltoallv (src : CollSrc) : exec (.alltoallv src) s = execAlltoallv src s := rfl
@[simp] theorem exec_permute (src : CollSrc) : exec (.permute src) s = execPermute src s := rfl
@[simp] theorem exec_multicast (src : CollSrc) : exec (.multicast src) s = execMulticast src s := rfl
@[simp] theorem exec_barrier (src : CollSrc) : exec (.barrier src) s = execBarrier src s := rfl
@[simp] theorem exec_sgather (src : CollSrc) : exec (.sgather src) s = execSgather src s := rfl
@[simp] theorem exec_collComplete (id : Nat) : exec (.collComplete id) s = execCollComplete id s := rfl
@[simp] theorem exec_eGather (c : CoreId) (g : Guard) (rs : SReg) (post : Option SemId) : exec (.eGather c g rs post) s = execEGather c g rs post s := rfl
@[simp] theorem exec_gatherComplete (c : CoreId) (op : Nat) : exec (.gatherComplete c op) s = execGatherComplete c op s := rfl
@[simp] theorem exec_eDesc (c : CoreId) (g : Guard) (rs : SReg) (post : Option SemId) : exec (.eDesc c g rs post) s = execEDesc c g rs post s := rfl
@[simp] theorem exec_eScatter (c : CoreId) (g : Guard) (rs : SReg) (post : Option SemId) : exec (.eScatter c g rs post) s = execEScatter c g rs post s := rfl
@[simp] theorem exec_scatterComplete (c : CoreId) (op : Nat) : exec (.scatterComplete c op) s = execScatterComplete c op s := rfl
@[simp] theorem exec_eFlush (c : CoreId) (g : Guard) (rs : SReg) (post : Option SemId) : exec (.eFlush c g rs post) s = execEFlush c g rs post s := rfl
@[simp] theorem exec_flushComplete (c : CoreId) (op : Nat) : exec (.flushComplete c op) s = execFlushComplete c op s := rfl
@[simp] theorem exec_eDispatch (c : CoreId) (g : Guard) (rs : SReg) (post : Option SemId) : exec (.eDispatch c g rs post) s = execEDispatch c g rs post s := rfl
@[simp] theorem exec_dispatchComplete (c : CoreId) (op : Nat) : exec (.dispatchComplete c op) s = execDispatchComplete c op s := rfl
@[simp] theorem exec_eCollect (c : CoreId) (g : Guard) (rs : SReg) (post : Option SemId) : exec (.eCollect c g rs post) s = execECollect c g rs post s := rfl
@[simp] theorem exec_collectComplete (c : CoreId) (op : Nat) : exec (.collectComplete c op) s = execCollectComplete c op s := rfl
@[simp] theorem exec_yWait (c : CoreId) (g : Guard) (sem : SemId) (n : BitVec 8) : exec (.yWait c g sem n) s = execYWait c g sem n s := rfl
@[simp] theorem exec_yPost (c : CoreId) (g : Guard) (sem : SemId) (n : BitVec 8) : exec (.yPost c g sem n) s = execYPost c g sem n s := rfl
@[simp] theorem exec_yPostr (c : CoreId) (g : Guard) (rv : SReg) (msem : Fin 16) (n : BitVec 8) : exec (.yPostr c g rv msem n) s = execYPostr c g rv msem n s := rfl
@[simp] theorem exec_remotePostDeliver (c : CoreId) (op : Nat) : exec (.remotePostDeliver c op) s = execRemotePostDeliver c op s := rfl
@[simp] theorem exec_ySeg (c : CoreId) (g : Guard) (rs : SReg) : exec (.ySeg c g rs) s = execYSeg c g rs s := rfl
@[simp] theorem exec_yCommit (c : CoreId) (g : Guard) : exec (.yCommit c g) s = execYCommit c g s := rfl
@[simp] theorem exec_rewindAccClear (c : CoreId) : exec (.rewindAccClear c) s = execRewindAccClear c s := rfl
@[simp] theorem exec_coreStall (c : CoreId) (sem : SemId) : exec (.coreStall c sem) s = execCoreStall c sem s := rfl
@[simp] theorem exec_cmbCfgWrite (c : CoreId) (g : Guard) (rs1 : SReg) : exec (.cmbCfgWrite c g rs1) s = execCmbCfgWrite c g rs1 s := rfl
@[simp] theorem exec_registerWrite (sp : RegSpace) (off : Nat) (size : Nat) (x : W64) : exec (.registerWrite sp off size x) s = execRegisterWrite sp off size x s := rfl
@[simp] theorem exec_hbmWindowEnd (n : CelId) (ratio pc : Nat) : exec (.hbmWindowEnd n ratio pc) s = execHbmWindowEnd n ratio pc s := rfl
@[simp] theorem exec_hbmUncorr (addr : Nat) : exec (.hbmUncorr addr) s = execHbmUncorr addr s := rfl
@[simp] theorem exec_hbmCorrectedError (pc : Fin 1024) (past : Bool) : exec (.hbmCorrectedError pc past) s = execHbmCorrectedError pc past s := rfl
@[simp] theorem exec_storeEcc (c : CoreId) (word : Nat) (passes : Bool) : exec (.storeEcc c word passes) s = execStoreEcc c word passes s := rfl
@[simp] theorem exec_csCorrectedError (c : CoreId) (past : Bool) : exec (.csCorrectedError c past) s = execCsCorrectedError c past s := rfl
@[simp] theorem exec_coreHang (c : CoreId) : exec (.coreHang c) s = execCoreHang c s := rfl
@[simp] theorem exec_gsub (remote : Bool) (k : Nat) : exec (.gsub remote k) s = execGsub remote k s := rfl
@[simp] theorem exec_gpart (remote : Bool) (k : Nat) : exec (.gpart remote k) s = execGpart remote k s := rfl
@[simp] theorem exec_flush (remote : Bool) (k : Nat) : exec (.flush remote k) s = execFlush remote k s := rfl
@[simp] theorem exec_flushAck (remote : Bool) (k : Nat) : exec (.flushAck remote k) s = execFlushAck remote k s := rfl
@[simp] theorem exec_bankClearDone (n : CelId) (bank : Fin 2) : exec (.bankClearDone n bank) s = execBankClearDone n bank s := rfl
@[simp] theorem exec_worklistReady (n : CelId) : exec (.worklistReady n) s = execWorklistReady n s := rfl
@[simp] theorem exec_updateTensorStart (n : CelId) : exec (.updateTensorStart n) s = execUpdateTensorStart n s := rfl
@[simp] theorem exec_updSweep1 (n : CelId) : exec (.updSweep1 n) s = execUpdSweep1 n s := rfl
@[simp] theorem exec_updSweep2 (n : CelId) : exec (.updSweep2 n) s = execUpdSweep2 n s := rfl
@[simp] theorem exec_updateStop (n : CelId) : exec (.updateStop n) s = execUpdateStop n s := rfl
@[simp] theorem exec_journalRecovery (n : CelId) : exec (.journalRecovery n) s = execJournalRecovery n s := rfl
@[simp] theorem exec_scrubGroup (n : CelId) : exec (.scrubGroup n) s = execScrubGroup n s := rfl
@[simp] theorem exec_collJoin (k : Nat) : exec (.collJoin k) s = execCollJoin k s := rfl
@[simp] theorem exec_collData (k : Nat) : exec (.collData k) s = execCollData k s := rfl
@[simp] theorem exec_collAck (k : Nat) : exec (.collAck k) s = execCollAck k s := rfl
@[simp] theorem exec_collShardRequest (remote : Bool) (k : Nat) : exec (.collShardRequest remote k) s = execCollShardRequest remote k s := rfl
@[simp] theorem exec_collShardReply (remote : Bool) (k : Nat) : exec (.collShardReply remote k) s = execCollShardReply remote k s := rfl
@[simp] theorem exec_leaseDeadline (n : CelId) (table : Nat) (step : Nat) : exec (.leaseDeadline n table step) s = execLeaseDeadline n table step s := rfl
@[simp] theorem exec_collJoinTimeout (id : Nat) : exec (.collJoinTimeout id) s = execCollJoinTimeout id s := rfl
@[simp] theorem exec_streamStall (n : CelId) (room : Bool) : exec (.streamStall n room) s = execStreamStall n room s := rfl
@[simp] theorem exec_backwardCloseBarrier (govf : Bool) (fail : Bool) : exec (.backwardCloseBarrier govf fail) s = execBackwardCloseBarrier govf fail s := rfl
@[simp] theorem exec_stepEndBarrier (govf : Bool) (ftz : Nat) (total : Nat) : exec (.stepEndBarrier govf ftz total) s = execStepEndBarrier govf ftz total s := rfl
@[simp] theorem exec_mapSwitchRequest (map : Fin 8) : exec (.mapSwitchRequest map) s = execMapSwitchRequest map s := rfl
@[simp] theorem exec_mapswVote (k : Nat) : exec (.mapswVote k) s = execMapswVote k s := rfl
@[simp] theorem exec_mapswRelease (k : Nat) : exec (.mapswRelease k) s = execMapswRelease k s := rfl
@[simp] theorem exec_fabMapLoad (x : W64) : exec (.fabMapLoad x) s = execFabMapLoad x s := rfl
@[simp] theorem exec_frameRx (p : PortId) (f : Frame) : exec (.frameRx p f) s = execFrameRx p f s := rfl
@[simp] theorem exec_laneSignalFail (p : PortId) (lane : Fin 8) : exec (.laneSignalFail p lane) s = execLaneSignalFail p lane s := rfl
@[simp] theorem exec_optReadyRise (p : PortId) : exec (.optReadyRise p) s = execOptReadyRise p s := rfl
@[simp] theorem exec_optReadyFall (p : PortId) : exec (.optReadyFall p) s = execOptReadyFall p s := rfl
@[simp] theorem exec_portTrainingDone (p : PortId) (res : PortTrain) : exec (.portTrainingDone p res) s = execPortTrainingDone p res s := rfl
@[simp] theorem exec_retrain (p : PortId) : exec (.retrain p) s = execRetrain p s := rfl
@[simp] theorem exec_packetForward (k : Nat) : exec (.packetForward k) s = execPacketForward k s := rfl
@[simp] theorem exec_rdReq (site : Option AccId) (k : Nat) : exec (.rdReq site k) s = execRdReq site k s := rfl
@[simp] theorem exec_rdResp (k : Nat) : exec (.rdResp k) s = execRdResp k s := rfl
@[simp] theorem exec_wr (site : Option AccId) (k : Nat) : exec (.wr site k) s = execWr site k s := rfl
@[simp] theorem exec_wrAck (k : Nat) : exec (.wrAck k) s = execWrAck k s := rfl
@[simp] theorem exec_post (k : Nat) : exec (.post k) s = execPost k s := rfl
@[simp] theorem exec_requestTimeout (k : Nat) : exec (.requestTimeout k) s = execRequestTimeout k s := rfl
@[simp] theorem exec_promWalkTimeout (axis : Axis) (dir : Fin 2) : exec (.promWalkTimeout axis dir) s = execPromWalkTimeout axis dir s := rfl
@[simp] theorem exec_ucieTrainDone (m : Fin 288) (res : UcieTrain) : exec (.ucieTrainDone m res) s = execUcieTrainDone m res s := rfl
@[simp] theorem exec_flitRx (m : Fin 288) (f : Flit) : exec (.flitRx m f) s = execFlitRx m f s := rfl
@[simp] theorem exec_phyretrainDone (m : Fin 288) (bad : BitVec 64) (r : RetrainEnd) : exec (.phyretrainDone m bad r) s = execPhyretrainDone m bad r s := rfl
@[simp] theorem exec_ucieL1Entry (m : Fin 288) : exec (.ucieL1Entry m) s = execUcieL1Entry m s := rfl
@[simp] theorem exec_dlTest (x : W64) : exec (.dlTest x) s = execDlTest x s := rfl
@[simp] theorem exec_pcieLinkTrain (width : Nat) (rate : PcieRate) : exec (.pcieLinkTrain width rate) s = execPcieLinkTrain width rate s := rfl
@[simp] theorem exec_bar4Read (off : Nat) (len : Nat) : exec (.bar4Read off len) s = execBar4Read off len s := rfl
@[simp] theorem exec_bar4Write (off : Nat) (data : List Byte) : exec (.bar4Write off data) s = execBar4Write off data s := rfl
@[simp] theorem exec_sqSlotWrite (q : QId) (off : Nat) (data : List Byte) : exec (.sqSlotWrite q off data) s = execSqSlotWrite q off data s := rfl
@[simp] theorem exec_tailEcho (q : QId) : exec (.tailEcho q) s = execTailEcho q s := rfl
@[simp] theorem exec_doorbell (q : QId) (x : W64) : exec (.doorbell q x) s = execDoorbell q x s := rfl
@[simp] theorem exec_sqReread (q : QId) : exec (.sqReread q) s = execSqReread q s := rfl
@[simp] theorem exec_sqStalled (q : QId) : exec (.sqStalled q) s = execSqStalled q s := rfl
@[simp] theorem exec_resumeQueue (q : QId) : exec (.resumeQueue q) s = execResumeQueue q s := rfl
@[simp] theorem exec_resetQueue (q : QId) (seq : W32) : exec (.resetQueue q seq) s = execResetQueue q seq s := rfl
@[simp] theorem exec_queueEnable (q : QId) (x : W64) : exec (.queueEnable q x) s = execQueueEnable q x s := rfl
@[simp] theorem exec_queueDisable (q : QId) : exec (.queueDisable q) s = execQueueDisable q s := rfl
@[simp] theorem exec_cqHead (q : QId) (x : W64) : exec (.cqHead q x) s = execCqHead q x s := rfl
@[simp] theorem exec_qNop (q : QId) (seq : W32) : exec (.qNop q seq) s = execQNop q seq s := rfl
@[simp] theorem exec_qFence (q : QId) (seq : W32) : exec (.qFence q seq) s = execQFence q seq s := rfl
@[simp] theorem exec_qCopyIn (q : QId) (seq : W32) : exec (.qCopyIn q seq) s = execQCopyIn q seq s := rfl
@[simp] theorem exec_qCopyOut (q : QId) (seq : W32) : exec (.qCopyOut q seq) s = execQCopyOut q seq s := rfl
@[simp] theorem exec_qFill (q : QId) (seq : W32) : exec (.qFill q seq) s = execQFill q seq s := rfl
@[simp] theorem exec_qBatch (q : QId) (seq : W32) : exec (.qBatch q seq) s = execQBatch q seq s := rfl
@[simp] theorem exec_qWaitStep (q : QId) (seq : W32) : exec (.qWaitStep q seq) s = execQWaitStep q seq s := rfl
@[simp] theorem exec_qPost (q : QId) (seq : W32) : exec (.qPost q seq) s = execQPost q seq s := rfl
@[simp] theorem exec_commandComplete (q : QId) (seq : W32) : exec (.commandComplete q seq) s = execCommandComplete q seq s := rfl
@[simp] theorem exec_completionWrite (q : QId) : exec (.completionWrite q) s = execCompletionWrite q s := rfl
@[simp] theorem exec_hostCompletionTimeout (w : ReqOwner) : exec (.hostCompletionTimeout w) s = execHostCompletionTimeout w s := rfl
@[simp] theorem exec_cavePortTimeout (k : CaveId) : exec (.cavePortTimeout k) s = execCavePortTimeout k s := rfl
@[simp] theorem exec_cxlLinkDown (k : CaveId) : exec (.cxlLinkDown k) s = execCxlLinkDown k s := rfl
@[simp] theorem exec_wdExpiry (p : ProcId) : exec (.wdExpiry p) s = execWdExpiry p s := rfl
@[simp] theorem exec_procReloadDone (p : ProcId) : exec (.procReloadDone p) s = execProcReloadDone p s := rfl
@[simp] theorem exec_mbxDoorbell (x : W64) (cfg : Option JobConfig) : exec (.mbxDoorbell x cfg) s = execMbxDoorbell x cfg s := rfl
@[simp] theorem exec_getInfo (ch : Chan) (m : MbxReq) : exec (.getInfo ch m) s = execGetInfo ch m s := rfl
@[simp] theorem exec_attach (ch : Chan) (m : MbxReq) : exec (.attach ch m) s = execAttach ch m s := rfl
@[simp] theorem exec_opStatus (ch : Chan) (m : MbxReq) : exec (.opStatus ch m) s = execOpStatus ch m s := rfl
@[simp] theorem exec_jobLoad (ch : Chan) (m : MbxReq) (cfg : Option JobConfig) : exec (.jobLoad ch m cfg) s = execJobLoad ch m cfg s := rfl
@[simp] theorem exec_jobPark (ch : Chan) (m : MbxReq) : exec (.jobPark ch m) s = execJobPark ch m s := rfl
@[simp] theorem exec_jobResume (ch : Chan) (m : MbxReq) : exec (.jobResume ch m) s = execJobResume ch m s := rfl
@[simp] theorem exec_jobAbort (ch : Chan) (m : MbxReq) : exec (.jobAbort ch m) s = execJobAbort ch m s := rfl
@[simp] theorem exec_jobStatus (ch : Chan) (m : MbxReq) : exec (.jobStatus ch m) s = execJobStatus ch m s := rfl
@[simp] theorem exec_mbxExport (ch : Chan) (m : MbxReq) : exec (.mbxExport ch m) s = execMbxExport ch m s := rfl
@[simp] theorem exec_mbxImport (ch : Chan) (m : MbxReq) : exec (.mbxImport ch m) s = execMbxImport ch m s := rfl
@[simp] theorem exec_reshard (ch : Chan) (m : MbxReq) (cfg : Option JobConfig) : exec (.reshard ch m cfg) s = execReshard ch m cfg s := rfl
@[simp] theorem exec_promoReset (ch : Chan) (m : MbxReq) : exec (.promoReset ch m) s = execPromoReset ch m s := rfl
@[simp] theorem exec_ckptFull (ch : Chan) (m : MbxReq) : exec (.ckptFull ch m) s = execCkptFull ch m s := rfl
@[simp] theorem exec_promenade (ch : Chan) (m : MbxReq) : exec (.promenade ch m) s = execPromenade ch m s := rfl
@[simp] theorem exec_linkTest (ch : Chan) (m : MbxReq) : exec (.linkTest ch m) s = execLinkTest ch m s := rfl
@[simp] theorem exec_traceSet (ch : Chan) (m : MbxReq) : exec (.traceSet ch m) s = execTraceSet ch m s := rfl
@[simp] theorem exec_logInfo (ch : Chan) (m : MbxReq) : exec (.logInfo ch m) s = execLogInfo ch m s := rfl
@[simp] theorem exec_logMark (ch : Chan) (m : MbxReq) : exec (.logMark ch m) s = execLogMark ch m s := rfl
@[simp] theorem exec_coldResetRelease (f : ColdFacts) : exec (.coldResetRelease f) s = execColdResetRelease f s := rfl
@[simp] theorem exec_overvoltage (mv : Nat) : exec (.overvoltage mv) s = execOvervoltage mv s := rfl
@[simp] theorem exec_sag (mv : Nat) : exec (.sag mv) s = execSag mv s := rfl
@[simp] theorem exec_sagEnd (mv : Nat) (dur : Nat) : exec (.sagEnd mv dur) s = execSagEnd mv dur s := rfl
@[simp] theorem exec_rideThroughExpiry (mv : Nat) : exec (.rideThroughExpiry mv) s = execRideThroughExpiry mv s := rfl
@[simp] theorem exec_protectCoreDeadline (c : CoreId) : exec (.protectCoreDeadline c) s = execProtectCoreDeadline c s := rfl
@[simp] theorem exec_protectFlushEnd (done : Bool) : exec (.protectFlushEnd done) s = execProtectFlushEnd done s := rfl
@[simp] theorem exec_clockLoss (die : Nat) (cause : Nat) : exec (.clockLoss die cause) s = execClockLoss die cause s := rfl
@[simp] theorem exec_coolant (inlet : Nat) (flow : Nat) : exec (.coolant inlet flow) s = execCoolant inlet flow s := rfl
@[simp] theorem exec_coolantRecover (inlet : Nat) (flow : FlowFacts) : exec (.coolantRecover inlet flow) s = execCoolantRecover inlet flow s := rfl
@[simp] theorem exec_coolantLow (inlet : Nat) : exec (.coolantLow inlet) s = execCoolantLow inlet s := rfl
@[simp] theorem exec_dieTemp (sensor : Nat) (reading : Nat) : exec (.dieTemp sensor reading) s = execDieTemp sensor reading s := rfl
@[simp] theorem exec_dieTempRecover (sensor : Nat) (reading : Nat) : exec (.dieTempRecover sensor reading) s = execDieTempRecover sensor reading s := rfl
@[simp] theorem exec_trip (sensor : Nat) (reading : Nat) : exec (.trip sensor reading) s = execTrip sensor reading s := rfl
@[simp] theorem exec_governorTick (watts : Nat) : exec (.governorTick watts) s = execGovernorTick watts s := rfl
@[simp] theorem exec_p2DelayExpiry (v : VatId) : exec (.p2DelayExpiry v) s = execP2DelayExpiry v s := rfl
@[simp] theorem exec_startFromP4 (f : StartFacts) : exec (.startFromP4 f) s = execStartFromP4 f s := rfl
@[simp] theorem exec_readinessEvaluate (ms : Nat) : exec (.readinessEvaluate ms) s = execReadinessEvaluate ms s := rfl
@[simp] theorem exec_vatDieReset (v : VatId) : exec (.vatDieReset v) s = execVatDieReset v s := rfl
@[simp] theorem exec_vatResetDone (ok : Bool) : exec (.vatResetDone ok) s = execVatResetDone ok s := rfl
@[simp] theorem exec_ckptData (k : Nat) : exec (.ckptData k) s = execCkptData k s := rfl
@[simp] theorem exec_ckptAck (k : Nat) : exec (.ckptAck k) s = execCkptAck k s := rfl
@[simp] theorem exec_ckptHold (k : Nat) : exec (.ckptHold k) s = execCkptHold k s := rfl
@[simp] theorem exec_ckptState (k : Nat) : exec (.ckptState k) s = execCkptState k s := rfl
@[simp] theorem exec_ckptGo (k : Nat) : exec (.ckptGo k) s = execCkptGo k s := rfl
@[simp] theorem exec_i3cEntdaa (addr : Nat) : exec (.i3cEntdaa addr) s = execI3cEntdaa addr s := rfl
@[simp] theorem exec_smbusArp (addr : Nat) : exec (.smbusArp addr) s = execSmbusArp addr s := rfl
@[simp] theorem exec_setEndpointId (eid : Nat) : exec (.setEndpointId eid) s = execSetEndpointId eid s := rfl
@[simp] theorem exec_getSensorReading (sensor : Nat) : exec (.getSensorReading sensor) s = execGetSensorReading sensor s := rfl
@[simp] theorem exec_setNumericEffecter (id : Nat) (v : Nat) : exec (.setNumericEffecter id v) s = execSetNumericEffecter id v s := rfl
@[simp] theorem exec_setStateEffecter (id : Nat) (v : Nat) : exec (.setStateEffecter id v) s = execSetStateEffecter id v s := rfl
@[simp] theorem exec_requestUpdate (len : Nat) : exec (.requestUpdate len) s = execRequestUpdate len s := rfl
@[simp] theorem exec_requestFirmwareData (data : List Byte) : exec (.requestFirmwareData data) s = execRequestFirmwareData data s := rfl
@[simp] theorem exec_quote (nonce : BitVec 256) : exec (.quote nonce) s = execQuote nonce s := rfl
@[simp] theorem exec_debugSet (level : Nat) (token : List Byte) : exec (.debugSet level token) s = execDebugSet level token s := rfl
@[simp] theorem exec_lifecycle (target : Nat) (token : List Byte) : exec (.lifecycle target token) s = execLifecycle target token s := rfl
@[simp] theorem exec_floorRaise (e : Nat) (token : List Byte) : exec (.floorRaise e token) s = execFloorRaise e token s := rfl
@[simp] theorem exec_logRead (pos : Nat) (count : Nat) : exec (.logRead pos count) s = execLogRead pos count s := rfl
@[simp] theorem exec_tapSamplePreload (pins : List Bool) (load : Option (List Bool)) : exec (.tapSamplePreload pins load) s = execTapSamplePreload pins load s := rfl
@[simp] theorem exec_tapRegRead (sp : RegSpace) (off : Nat) (size : Nat) : exec (.tapRegRead sp off size) s = execTapRegRead sp off size s := rfl
@[simp] theorem exec_tapMemRead (addr : Nat) (len : Nat) : exec (.tapMemRead addr len) s = execTapMemRead addr len s := rfl
@[simp] theorem exec_tapTraceRead (count : Nat) : exec (.tapTraceRead count) s = execTapTraceRead count s := rfl
@[simp] theorem exec_tapHalt (t : TapTarget) : exec (.tapHalt t) s = execTapHalt t s := rfl
@[simp] theorem exec_tapResume (t : TapTarget) : exec (.tapResume t) s = execTapResume t s := rfl
@[simp] theorem exec_tapStep (t : TapTarget) : exec (.tapStep t) s = execTapStep t s := rfl
@[simp] theorem exec_tapRegWrite (sp : RegSpace) (off : Nat) (size : Nat) (x : W64) : exec (.tapRegWrite sp off size x) s = execTapRegWrite sp off size x s := rfl
@[simp] theorem exec_tapMemWrite (addr : Nat) (data : List Byte) : exec (.tapMemWrite addr data) s = execTapMemWrite addr data s := rfl
@[simp] theorem exec_tapFlash (off : Nat) (len : Nat) (data : Option (List Byte)) : exec (.tapFlash off len data) s = execTapFlash off len data s := rfl
@[simp] theorem exec_cavePwrOkFall (k : CaveId) : exec (.cavePwrOkFall k) s = execCavePwrOkFall k s := rfl
@[simp] theorem exec_cavePortTrainingDone (k : CaveId) (f : CaveFacts) : exec (.cavePortTrainingDone k f) s = execCavePortTrainingDone k f s := rfl
@[simp] theorem exec_holdupOk (energy : Nat) : exec (.holdupOk energy) s = execHoldupOk energy s := rfl
@[simp] theorem exec_detach (k : Nat) : exec (.detach k) s = execDetach k s := rfl
@[simp] theorem exec_promWalk (k : Nat) : exec (.promWalk k) s = execPromWalk k s := rfl
@[simp] theorem exec_promEnd (k : Nat) : exec (.promEnd k) s = execPromEnd k s := rfl
@[simp] theorem exec_promSet (k : Nat) : exec (.promSet k) s = execPromSet k s := rfl
@[simp] theorem exec_promReport (k : Nat) : exec (.promReport k) s = execPromReport k s := rfl
@[simp] theorem exec_promDone (k : Nat) : exec (.promDone k) s = execPromDone k s := rfl
@[simp] theorem exec_promAsk (k : Nat) : exec (.promAsk k) s = execPromAsk k s := rfl
@[simp] theorem exec_promAskAnswer (k : Nat) : exec (.promAskAnswer k) s = execPromAskAnswer k s := rfl
@[simp] theorem exec_accAdmission (site : AccId) (f : AccFacts) : exec (.accAdmission site f) s = execAccAdmission site f s := rfl
@[simp] theorem exec_partnerCmdTimeout (c : CoreId) (op : Nat) : exec (.partnerCmdTimeout c op) s = execPartnerCmdTimeout c op s := rfl
@[simp] theorem exec_partnerTempLoss (site : AccId) : exec (.partnerTempLoss site) s = execPartnerTempLoss site s := rfl
@[simp] theorem exec_partnerOverpower (site : AccId) : exec (.partnerOverpower site) s = execPartnerOverpower site s := rfl
@[simp] theorem exec_loopTestEnd (errs : List Nat) (margin : Nat) (res : UcieTrain) : exec (.loopTestEnd errs margin res) s = execLoopTestEnd errs margin res s := rfl
@[simp] theorem exec_cxlEvent (k : CaveId) (data : List Byte) : exec (.cxlEvent k data) s = execCxlEvent k data s := rfl
@[simp] theorem exec_overvoltageRecovery : exec .overvoltageRecovery s = execOvervoltageRecovery s := rfl
@[simp] theorem exec_tapIeee1500 (die : Nat) : exec (.tapIeee1500 die) s = execTapIeee1500 die s := rfl
@[simp] theorem exec_tapStandAlone (die : Nat) : exec (.tapStandAlone die) s = execTapStandAlone die s := rfl
@[simp] theorem exec_restoreComplete : exec .restoreComplete s = execRestoreComplete s := rfl
@[simp] theorem exec_memCommit : exec .memCommit s = execMemCommit s := rfl
@[simp] theorem exec_startBarrierDone : exec .startBarrierDone s = execStartBarrierDone s := rfl
@[simp] theorem exec_stepStart : exec .stepStart s = execStepStart s := rfl
@[simp] theorem exec_mapSwitchDrained : exec .mapSwitchDrained s = execMapSwitchDrained s := rfl
@[simp] theorem exec_mapswTimeout : exec .mapswTimeout s = execMapswTimeout s := rfl
@[simp] theorem exec_fabCommit : exec .fabCommit s = execFabCommit s := rfl
@[simp] theorem exec_promenadeTimeout : exec .promenadeTimeout s = execPromenadeTimeout s := rfl
@[simp] theorem exec_perstAssert : exec .perstAssert s = execPerstAssert s := rfl
@[simp] theorem exec_dllDown : exec .dllDown s = execDllDown s := rfl
@[simp] theorem exec_functionLevelReset : exec .functionLevelReset s = execFunctionLevelReset s := rfl
@[simp] theorem exec_busMasterEnableCleared : exec .busMasterEnableCleared s = execBusMasterEnableCleared s := rfl
@[simp] theorem exec_d3hotEntry : exec .d3hotEntry s = execD3hotEntry s := rfl
@[simp] theorem exec_heartbeatExpiry : exec .heartbeatExpiry s = execHeartbeatExpiry s := rfl
@[simp] theorem exec_hifHeartbeat : exec .hifHeartbeat s = execHifHeartbeat s := rfl
@[simp] theorem exec_bar4Sync : exec .bar4Sync s = execBar4Sync s := rfl
@[simp] theorem exec_hifHfence : exec .hifHfence s = execHifHfence s := rfl
@[simp] theorem exec_suppress : exec .suppress s = execSuppress s := rfl
@[simp] theorem exec_inputApplied : exec .inputApplied s = execInputApplied s := rfl
@[simp] theorem exec_modResetNFall : exec .modResetNFall s = execModResetNFall s := rfl
@[simp] theorem exec_pwrEnFall : exec .pwrEnFall s = execPwrEnFall s := rfl
@[simp] theorem exec_pwrEnRise : exec .pwrEnRise s = execPwrEnRise s := rfl
@[simp] theorem exec_holdupExhausted : exec .holdupExhausted s = execHoldupExhausted s := rfl
@[simp] theorem exec_pwrReqStandby : exec .pwrReqStandby s = execPwrReqStandby s := rfl
@[simp] theorem exec_pwrReqResume : exec .pwrReqResume s = execPwrReqResume s := rfl
@[simp] theorem exec_p3Return : exec .p3Return s = execP3Return s := rfl
@[simp] theorem exec_startStepTimeout : exec .startStepTimeout s = execStartStepTimeout s := rfl
@[simp] theorem exec_portsSettled : exec .portsSettled s = execPortsSettled s := rfl
@[simp] theorem exec_askTimeout : exec .askTimeout s = execAskTimeout s := rfl
@[simp] theorem exec_deltaComplete : exec .deltaComplete s = execDeltaComplete s := rfl
@[simp] theorem exec_deltaMergeDone : exec .deltaMergeDone s = execDeltaMergeDone s := rfl
@[simp] theorem exec_i3cRstdaa : exec .i3cRstdaa s = execI3cRstdaa s := rfl
@[simp] theorem exec_pollEvent : exec .pollEvent s = execPollEvent s := rfl
@[simp] theorem exec_activateFirmware : exec .activateFirmware s = execActivateFirmware s := rfl
@[simp] theorem exec_cancelUpdate : exec .cancelUpdate s = execCancelUpdate s := rfl
@[simp] theorem exec_getId : exec .getId s = execGetId s := rfl
@[simp] theorem exec_challenge : exec .challenge s = execChallenge s := rfl
@[simp] theorem exec_lifecycleComplete : exec .lifecycleComplete s = execLifecycleComplete s := rfl
@[simp] theorem exec_tapBypass : exec .tapBypass s = execTapBypass s := rfl
@[simp] theorem exec_tapIdcode : exec .tapIdcode s = execTapIdcode s := rfl
@[simp] theorem exec_tapExtest : exec .tapExtest s = execTapExtest s := rfl
@[simp] theorem exec_exportComplete : exec .exportComplete s = execExportComplete s := rfl
@[simp] theorem exec_importComplete : exec .importComplete s = execImportComplete s := rfl

end Sys2Proof.Machine
end

