-- ==== Sys2Proof/Laws/Frame.lean ====
section
/-! SUPPORT. What every operation of the machine but those of the debug level and of the power states leaves alone: one lemma each. -/

set_option linter.unusedSimpArgs false

namespace Sys2Proof.Machine

/-- What most commands leave alone: the waiting commands, the debug level, a raise waiting, the lifecycle fuses. -/
def State.quiet (s : State) : List Instr × Nat × Bool × BitVec 3 := (s.pending, s.sec.level, s.sec.raise, s.fuses.lc)

@[simp] theorem quiet_upd (t : State) (free : Nat) (reply : List Byte) (cores : Vector Core 256) (mem : MemSt) (emb : Vector EmbSt 4) (press : Vector PressSt 4) (upd : Vector UpdSt 4) (collCel : Vector CollCel 4) (coll : CollSt) (gathers : List Gather) (gsubs : List GSub) (gparts : List GPart) (grads : List GradPacket) (gacks : List GradAck) (shardReqs : List Packet) (shardReps : List Packet) (fab : FabSt) (dl : DlSt) (hif : HifSt) (cave : CaveSt) (fw : FwSt) (mbx : MbxSt) (log : LogSt) (job : JobSt) (ras : RasSt) (inp : Inputs) (pwr : PowerSt) (start : StartSt) (mgmt : MgmtSt) (tap : TapSt) :
    (State.mk t.pending free reply cores mem emb press upd collCel coll gathers gsubs gparts grads gacks shardReqs shardReps fab dl hif cave fw mbx log job ras inp pwr start t.fuses t.sec mgmt tap).quiet = t.quiet := rfl

@[simp] theorem quiet_upd_sec (t : State) (free : Nat) (reply : List Byte) (cores : Vector Core 256) (mem : MemSt) (emb : Vector EmbSt 4) (press : Vector PressSt 4) (upd : Vector UpdSt 4) (collCel : Vector CollCel 4) (coll : CollSt) (gathers : List Gather) (gsubs : List GSub) (gparts : List GPart) (grads : List GradPacket) (gacks : List GradAck) (shardReqs : List Packet) (shardReps : List Packet) (fab : FabSt) (dl : DlSt) (hif : HifSt) (cave : CaveSt) (fw : FwSt) (mbx : MbxSt) (log : LogSt) (job : JobSt) (ras : RasSt) (inp : Inputs) (pwr : PowerSt) (start : StartSt) (mgmt : MgmtSt) (tap : TapSt) (nonce1 : Option (BitVec 256)) (index1 : Nat) (mark1 : Nat) (cfg1 : W64) (quotes1 : W64) (tokenFail1 : W64) (tapDeny1 : W64) (quoteWait1 : Bool) (pending1 : Option Nat) (update1 : Option FwUpdate) (queue1 : List SecMsg) (held1 : List (Nat × List Byte)) :
    (State.mk t.pending free reply cores mem emb press upd collCel coll gathers gsubs gparts grads gacks shardReqs shardReps fab dl hif cave fw mbx log job ras inp pwr start t.fuses (SecSt.mk t.sec.level nonce1 index1 mark1 cfg1 quotes1 tokenFail1 tapDeny1 quoteWait1 pending1 t.sec.raise update1 queue1 held1) mgmt tap).quiet = t.quiet := rfl

@[simp] theorem quiet_upd_fuses (t : State) (free : Nat) (reply : List Byte) (cores : Vector Core 256) (mem : MemSt) (emb : Vector EmbSt 4) (press : Vector PressSt 4) (upd : Vector UpdSt 4) (collCel : Vector CollCel 4) (coll : CollSt) (gathers : List Gather) (gsubs : List GSub) (gparts : List GPart) (grads : List GradPacket) (gacks : List GradAck) (shardReqs : List Packet) (shardReps : List Packet) (fab : FabSt) (dl : DlSt) (hif : HifSt) (cave : CaveSt) (fw : FwSt) (mbx : MbxSt) (log : LogSt) (job : JobSt) (ras : RasSt) (inp : Inputs) (pwr : PowerSt) (start : StartSt) (mgmt : MgmtSt) (tap : TapSt) (lx2 : Bool) (hubId2 : W64) (serial2 : Nat) (revLetter2 : Nat) (revDigit2 : Nat) (accCode2 : Vector Nat 2) (keyKill2 : Bool) (fwPk2 : BitVec 512) (authPk2 : BitVec 512) (idPk2 : BitVec 512) (idSk2 : BitVec 512) (floor2 : Nat) :
    (State.mk t.pending free reply cores mem emb press upd collCel coll gathers gsubs gparts grads gacks shardReqs shardReps fab dl hif cave fw mbx log job ras inp pwr start (Fuses.mk lx2 hubId2 serial2 revLetter2 revDigit2 accCode2 t.fuses.lc keyKill2 fwPk2 authPk2 idPk2 idSk2 floor2) t.sec mgmt tap).quiet = t.quiet := rfl

theorem foldl_quiet {α : Type} {f : State → α → State} (h : ∀ s x, (f s x).quiet = s.quiet) (l : List α) (s : State) :
    (l.foldl f s).quiet = s.quiet := by
  induction l generalizing s with
  | nil => rfl
  | cons a l ih => rw [List.foldl_cons, ih, h]

theorem foldl_quiet_snd {α β : Type} {f : β × State → α → β × State} (h : ∀ b s x, (f (b, s) x).2.quiet = s.quiet) (l : List α)
    (y : β × State) : (l.foldl f y).2.quiet = y.2.quiet := by
  induction l generalizing y with
  | nil => rfl
  | cons a l ih => rw [List.foldl_cons, ih]; exact h y.1 y.2 a

theorem foldl_quiet_fst {α β : Type} {f : State × β → α → State × β} (h : ∀ b s x, (f (s, b) x).1.quiet = s.quiet) (l : List α)
    (y : State × β) : (l.foldl f y).1.quiet = y.1.quiet := by
  induction l generalizing y with
  | nil => rfl
  | cons a l ih => rw [List.foldl_cons, ih]; exact h y.2 y.1 a

theorem foldl_quiet_of {α β : Type} (g : β → State) {f : β → α → β} (h : ∀ p x, (g (f p x)).quiet = (g p).quiet) (l : List α) (p : β) :
    (g (l.foldl f p)).quiet = (g p).quiet := by
  induction l generalizing p with
  | nil => rfl
  | cons a l ih => rw [List.foldl_cons, ih, h]

theorem unchanged_quiet {s : State} {t : State} (h : unchanged s = .next t) : t.quiet = s.quiet := by
  unfold unchanged at h
  simp only [reduceCtorEq, Host.Outcome.next.injEq, Option.some.injEq, Except.ok.injEq, reduceCtorEq] at h
  subst h
  simp only [quiet_upd]

/-- What an event whose conditions are tested answers. -/
theorem onlyIf_next {b : Bool} {s : State} {f : State → Res} {t : State} (h : onlyIf b s f = .next t) :
    t = s ∨ (b = true ∧ f s = .next t) := by
  unfold onlyIf at h
  split at h
  · exact .inr ⟨‹_›, h⟩
  · injection h with h; exact .inl h.symm

@[simp] theorem State.setCore_quiet (s : State) (c : CoreId) (x : Core) : (State.setCore s c x).quiet = s.quiet := by
  unfold State.setCore
  rfl

@[simp] theorem State.updCore_quiet (s : State) (c : CoreId) (f : Core → Core) : (State.updCore s c f).quiet = s.quiet := by
  unfold State.updCore
  rfl

@[simp] theorem State.drawn_quiet (s : State) (n : Nat) : (State.drawn s n).quiet = s.quiet := by
  unfold State.drawn
  rfl

@[simp] theorem State.updProc_quiet (s : State) (p : ProcId) (f : Proc → Proc) : (State.updProc s p f).quiet = s.quiet := by
  unfold State.updProc
  rfl

@[simp] theorem State.receiveStamp_quiet (s : State) (p : ProcId) (m : W64) : (State.receiveStamp s p m).quiet = s.quiet := by
  unfold State.receiveStamp
  rfl

@[simp] theorem State.message_quiet (s : State) (p q : ProcId) : (State.message s p q).quiet = s.quiet := by
  unfold State.message
  simp only [↓quiet_upd, ↓quiet_upd_sec, ↓quiet_upd_fuses, apply_ite State.quiet, ite_self, foldl_quiet, foldl_quiet_snd, foldl_quiet_fst, implies_true, forall_const, List.foldl_cons, List.foldl_nil, State.updProc_quiet, State.receiveStamp_quiet]

@[simp] theorem State.stampNext_quiet (s : State) (p : ProcId) : (State.stampNext s p).2.2.quiet = s.quiet := by
  unfold State.stampNext
  rfl

@[simp] theorem State.putRecord_quiet (s : State) (r : LogRec) : (State.putRecord s r).quiet = s.quiet := by
  unfold State.putRecord
  simp only [quiet_upd, apply_ite State.quiet, ite_self]

@[simp] theorem State.logAlways_quiet (s : State) (p : ProcId) (typ : Nat) (fields : List Nat) : (State.logAlways s p typ fields).quiet = s.quiet := by
  unfold State.logAlways
  simp only [quiet_upd, State.stampNext_quiet, State.putRecord_quiet]

@[simp] theorem State.logRec_quiet (s : State) (p : ProcId) (typ : Nat) (fields : List Nat) : (State.logRec s p typ fields).quiet = s.quiet := by
  unfold State.logRec
  simp only [quiet_upd, apply_ite State.quiet, ite_self, State.logAlways_quiet]

@[simp] theorem State.event_quiet (s : State) (p : ProcId) (block code : Nat) (fields : List Nat) : (State.event s p block code fields).quiet = s.quiet := by
  unfold State.event
  simp only [quiet_upd, State.logRec_quiet]

@[simp] theorem State.mgmtEvent_quiet (s : State) (sensor value : Nat) : (State.mgmtEvent s sensor value).quiet = s.quiet := by
  unfold State.mgmtEvent
  simp only [quiet_upd, apply_ite State.quiet, ite_self]

@[simp] theorem State.failStep_quiet (s : State) (rule : Nat) : (State.failStep s rule).quiet = s.quiet := by
  unfold State.failStep
  simp only [quiet_upd, apply_ite State.quiet, ite_self]

@[simp] theorem State.addTel_quiet (s : State) (e : TelEntry) : (State.addTel s e).quiet = s.quiet := by
  unfold State.addTel
  simp only [quiet_upd, apply_ite State.quiet, ite_self]

@[simp] theorem State.applyEv_quiet (s : State) (c : CoreId) (e : CoreEv) : (State.applyEv s c e).quiet = s.quiet := by
  unfold State.applyEv
  repeat' split
  all_goals (simp only [quiet_upd, State.event_quiet, State.logRec_quiet, State.addTel_quiet])

@[simp] theorem State.withCore_quiet (s : State) (c : CoreId) (r : Core × List CoreEv) : (State.withCore s c r).quiet = s.quiet := by
  unfold State.withCore
  simp only [quiet_upd, quiet_upd_sec, quiet_upd_fuses, apply_ite State.quiet, ite_self, foldl_quiet, foldl_quiet_snd, foldl_quiet_fst, implies_true, forall_const, List.foldl_cons, List.foldl_nil, State.applyEv_quiet, State.setCore_quiet]

@[simp] theorem State.postTo_quiet (s : State) (c : CoreId) (sem : SemId) (n : Nat) : (State.postTo s c sem n).quiet = s.quiet := by
  unfold State.postTo
  simp only [quiet_upd, State.withCore_quiet]

@[simp] theorem State.completionPost_quiet (s : State) (c : CoreId) (post : Option SemId) : (State.completionPost s c post).quiet = s.quiet := by
  unfold State.completionPost
  simp only [quiet_upd, State.withCore_quiet]

@[simp] theorem State.postVcid_quiet (s : State) (v sem n : Nat) : (State.postVcid s v sem n).2.quiet = s.quiet := by
  unfold State.postVcid
  simp only [quiet_upd, State.postTo_quiet]
  repeat' split
  all_goals (simp only [quiet_upd, State.postTo_quiet])

@[simp] theorem State.accessRecord_quiet (s : State) (who st a : Nat) : (State.accessRecord s who st a).quiet = s.quiet := by
  unfold State.accessRecord
  simp only [quiet_upd, apply_ite State.quiet, ite_self, State.event_quiet]

@[simp] theorem State.spoilAt_quiet (s : State) (q : Requester) (a n : Nat) (own : Option Nat := none) : (State.spoilAt s q a n own).quiet = s.quiet := by
  unfold State.spoilAt
  simp only [↓quiet_upd, ↓quiet_upd_sec, ↓quiet_upd_fuses, apply_ite State.quiet, ite_self, foldl_quiet, foldl_quiet_snd, foldl_quiet_fst, implies_true, forall_const, List.foldl_cons, List.foldl_nil]

@[simp] theorem State.writeStoreOf_quiet (s : State) (c : CoreId) (own a : Nat) (bs : List Byte) : (State.writeStoreOf s c own a bs).quiet = s.quiet := by
  unfold State.writeStoreOf
  simp only [↓quiet_upd, ↓quiet_upd_sec, ↓quiet_upd_fuses, apply_ite State.quiet, ite_self, foldl_quiet, foldl_quiet_snd, foldl_quiet_fst, implies_true, forall_const, List.foldl_cons, List.foldl_nil, State.updCore_quiet, State.drawn_quiet]

@[simp] theorem State.writeBytes_quiet (s : State) (a : Nat) (bs : List Byte) (alloc : Bool := true) : (State.writeBytes s a bs alloc).quiet = s.quiet := by
  unfold State.writeBytes
  repeat' split
  all_goals (simp only [↓quiet_upd, ↓quiet_upd_sec, ↓quiet_upd_fuses, apply_ite State.quiet, ite_self, foldl_quiet, foldl_quiet_snd, foldl_quiet_fst, implies_true, forall_const, List.foldl_cons, List.foldl_nil, State.writeStoreOf_quiet, *])

@[simp] theorem State.touchLines_quiet (s : State) (a n : Nat) (alloc : Bool := true) : (State.touchLines s a n alloc).quiet = s.quiet := by
  unfold State.touchLines
  simp only [quiet_upd, quiet_upd_sec, quiet_upd_fuses, apply_ite State.quiet, ite_self, foldl_quiet, foldl_quiet_snd, foldl_quiet_fst, implies_true, forall_const, List.foldl_cons, List.foldl_nil, State.drawn_quiet]

@[simp] theorem State.writeOpen_quiet (s : State) (q : Requester) (a : Nat) (bs : List Byte) (alloc : Bool := true) (own : Option Nat := none) : (State.writeOpen s q a bs alloc own).quiet = s.quiet := by
  unfold State.writeOpen
  simp only [↓quiet_upd, ↓quiet_upd_sec, ↓quiet_upd_fuses, apply_ite State.quiet, ite_self, foldl_quiet, foldl_quiet_snd, foldl_quiet_fst, implies_true, forall_const, List.foldl_cons, List.foldl_nil, State.spoilAt_quiet, State.writeBytes_quiet, State.drawn_quiet]

@[simp] theorem State.writeAs_quiet (s : State) (q : Requester) (a : Nat) (bs : List Byte) : (State.writeAs s q a bs).quiet = s.quiet := by
  unfold State.writeAs
  simp only [↓quiet_upd, ↓quiet_upd_sec, ↓quiet_upd_fuses, apply_ite State.quiet, ite_self, foldl_quiet, foldl_quiet_snd, foldl_quiet_fst, implies_true, forall_const, List.foldl_cons, List.foldl_nil, State.writeOpen_quiet]

@[simp] theorem State.endOp_quiet (s : State) (c : CoreId) (o : Op) : (State.endOp s c o).quiet = s.quiet := by
  unfold State.endOp
  simp only [↓quiet_upd, ↓quiet_upd_sec, ↓quiet_upd_fuses, apply_ite State.quiet, ite_self, foldl_quiet, foldl_quiet_snd, foldl_quiet_fst, implies_true, forall_const, List.foldl_cons, List.foldl_nil, State.updCore_quiet, State.drawn_quiet, State.completionPost_quiet]

@[simp] theorem State.standIns_quiet (s : State) (c : CoreId) (vs : List Nat) (item : Option WorkItem) : (State.standIns s c vs item).quiet = s.quiet := by
  unfold State.standIns
  (refine foldl_quiet (fun s x => ?_) _ _) <;> dsimp only <;> (repeat' split) <;> (first | rfl | simp only [↓quiet_upd, ↓quiet_upd_sec, ↓quiet_upd_fuses, apply_ite State.quiet, ite_self, foldl_quiet, foldl_quiet_snd, foldl_quiet_fst, implies_true, forall_const, List.foldl_cons, List.foldl_nil, State.failStep_quiet, State.updCore_quiet, *])

@[simp] theorem State.fence_quiet (s : State) (c : CoreId) (answers : Bool) (cause : Nat) : (State.fence s c answers cause).quiet = s.quiet := by
  unfold State.fence
  simp only [↓quiet_upd, ↓quiet_upd_sec, ↓quiet_upd_fuses, apply_ite State.quiet, ite_self, foldl_quiet, foldl_quiet_snd, foldl_quiet_fst, implies_true, forall_const, List.foldl_cons, List.foldl_nil, State.withCore_quiet, State.event_quiet, State.failStep_quiet, State.standIns_quiet]

@[simp] theorem State.fenceDie_quiet (s : State) (v : VatId) (cause : Nat) : (State.fenceDie s v cause).quiet = s.quiet := by
  unfold State.fenceDie
  simp only [quiet_upd, quiet_upd_sec, quiet_upd_fuses, apply_ite State.quiet, ite_self, foldl_quiet, foldl_quiet_snd, foldl_quiet_fst, implies_true, forall_const, List.foldl_cons, List.foldl_nil, State.fence_quiet]

@[simp] theorem State.answer_quiet (s : State) (bs : List Byte) : (State.answer s bs).quiet = s.quiet := by
  unfold State.answer
  rfl

@[simp] theorem State.noRoute_quiet (s : State) (p : Packet) : (State.noRoute s p).quiet = s.quiet := by
  unfold State.noRoute
  simp only [↓quiet_upd, ↓quiet_upd_sec, ↓quiet_upd_fuses, apply_ite State.quiet, ite_self, foldl_quiet, foldl_quiet_snd, foldl_quiet_fst, implies_true, forall_const, List.foldl_cons, List.foldl_nil, State.event_quiet]

@[simp] theorem State.route_quiet (s : State) (p : Packet) (arr : Option Nat) : (State.route s p arr).quiet = s.quiet := by
  unfold State.route
  simp only [↓quiet_upd, ↓quiet_upd_sec, ↓quiet_upd_fuses, apply_ite State.quiet, ite_self, foldl_quiet, foldl_quiet_snd, foldl_quiet_fst, implies_true, forall_const, List.foldl_cons, List.foldl_nil, State.noRoute_quiet]
  repeat' split
  all_goals (simp only [↓quiet_upd, ↓quiet_upd_sec, ↓quiet_upd_fuses, apply_ite State.quiet, ite_self, foldl_quiet, foldl_quiet_snd, foldl_quiet_fst, implies_true, forall_const, List.foldl_cons, List.foldl_nil, State.noRoute_quiet, *])

@[simp] theorem State.sendMsg_quiet (s : State) (p : Packet) : (State.sendMsg s p).quiet = s.quiet := by
  unfold State.sendMsg
  simp only [↓quiet_upd, ↓quiet_upd_sec, ↓quiet_upd_fuses, apply_ite State.quiet, ite_self, foldl_quiet, foldl_quiet_snd, foldl_quiet_fst, implies_true, forall_const, List.foldl_cons, List.foldl_nil, State.route_quiet]

@[simp] theorem State.detachBranch_quiet (s : State) (p : Packet) (d off : Nat) : (State.detachBranch s p d off).quiet = s.quiet := by
  unfold State.detachBranch
  simp only [↓quiet_upd, ↓quiet_upd_sec, ↓quiet_upd_fuses, apply_ite State.quiet, ite_self, foldl_quiet, foldl_quiet_snd, foldl_quiet_fst, implies_true, forall_const, List.foldl_cons, List.foldl_nil, State.route_quiet]

@[simp] theorem State.branch_quiet (s : State) (p : Packet) (arr : Option Nat) (d : Nat) : (State.branch s p arr d).quiet = s.quiet := by
  unfold State.branch
  simp only [↓quiet_upd, ↓quiet_upd_sec, ↓quiet_upd_fuses, apply_ite State.quiet, ite_self, foldl_quiet, foldl_quiet_snd, foldl_quiet_fst, implies_true, forall_const, List.foldl_cons, List.foldl_nil, State.detachBranch_quiet]

@[simp] theorem State.detachTrailing_quiet (s : State) (p : Packet) (ds : List Nat) : (State.detachTrailing s p ds).quiet = s.quiet := by
  unfold State.detachTrailing
  simp only [↓quiet_upd, ↓quiet_upd_sec, ↓quiet_upd_fuses, apply_ite State.quiet, ite_self, foldl_quiet, foldl_quiet_snd, foldl_quiet_fst, implies_true, forall_const, List.foldl_cons, List.foldl_nil, State.detachBranch_quiet]

@[simp] theorem State.routeMc_quiet (s : State) (p : Packet) (arr : Option Nat) : (State.routeMc s p arr).quiet = s.quiet := by
  unfold State.routeMc
  repeat' split
  all_goals (simp only [↓quiet_upd, ↓quiet_upd_sec, ↓quiet_upd_fuses, apply_ite State.quiet, ite_self, foldl_quiet, foldl_quiet_snd, foldl_quiet_fst, implies_true, forall_const, List.foldl_cons, List.foldl_nil, State.noRoute_quiet, State.branch_quiet, State.detachTrailing_quiet, *])

@[simp] theorem State.inject_quiet (s : State) (p : Packet) : (State.inject s p).quiet = s.quiet := by
  unfold State.inject
  simp only [↓quiet_upd, ↓quiet_upd_sec, ↓quiet_upd_fuses, apply_ite State.quiet, ite_self, foldl_quiet, foldl_quiet_snd, foldl_quiet_fst, implies_true, forall_const, List.foldl_cons, List.foldl_nil, State.routeMc_quiet, State.sendMsg_quiet]

@[simp] theorem State.launch_quiet (s : State) (r : NetReq) (t : Nat) : (State.launch s r t).quiet = s.quiet := by
  unfold State.launch
  repeat' split
  all_goals (simp only [↓quiet_upd, ↓quiet_upd_sec, ↓quiet_upd_fuses, apply_ite State.quiet, ite_self, foldl_quiet, foldl_quiet_snd, foldl_quiet_fst, implies_true, forall_const, List.foldl_cons, List.foldl_nil, State.inject_quiet, *])

@[simp] theorem State.request_quiet (s : State) (o : ReqOwner) (dst cel : Nat) (m : Msg) (place : Nat) (bytes : Nat := m.tagBytes) (cls : Nat := m.cls)
    (stripe : Bool := false) : (State.request s o dst cel m place bytes cls stripe).quiet = s.quiet := by
  unfold State.request
  simp only [quiet_upd, State.launch_quiet]
  repeat' split
  all_goals (simp only [quiet_upd, State.launch_quiet])

@[simp] theorem State.retryTags_quiet (n : Nat) (s : State) : (State.retryTags n s).quiet = s.quiet := by
  induction n generalizing s with
  | zero => rfl
  | succ n ih =>
    unfold State.retryTags
    split
    · rfl
    · rw [ih, State.launch_quiet, quiet_upd]

@[simp] theorem State.freeReq_quiet (s : State) (r : NetReq) (late : Bool) : (s.freeReq r late).quiet = s.quiet := by
  unfold State.freeReq
  exact (State.retryTags_quiet ..).trans rfl

@[simp] theorem State.freeLocal_quiet (s : State) (want : NetReq → Bool) : (s.freeLocal want).quiet = s.quiet := by
  unfold State.freeLocal
  split
  · rfl
  · exact (State.retryTags_quiet ..).trans rfl

@[simp] theorem State.takeDeliv_quiet (s : State) (k : Nat) : (State.takeDeliv s k).quiet = s.quiet := by
  unfold State.takeDeliv
  rfl

@[simp] theorem State.badPacket_quiet (s : State) : (State.badPacket s).quiet = s.quiet := by
  unfold State.badPacket
  rfl

@[simp] theorem State.lateResp_quiet (s : State) : (State.lateResp s).quiet = s.quiet := by
  unfold State.lateResp
  rfl

@[simp] theorem State.requeue_quiet (s : State) (d : Nat) (e : SendEnt) : (State.requeue s d e).quiet = s.quiet := by
  unfold State.requeue
  simp only [↓quiet_upd, ↓quiet_upd_sec, ↓quiet_upd_fuses, apply_ite State.quiet, ite_self, foldl_quiet, foldl_quiet_snd, foldl_quiet_fst, implies_true, forall_const, List.foldl_cons, List.foldl_nil, State.detachBranch_quiet, State.route_quiet]

@[simp] theorem State.portState_quiet (s : State) (i : PortId) (st : Nat) : (State.portState s i st).quiet = s.quiet := by
  unfold State.portState
  simp only [↓quiet_upd, ↓quiet_upd_sec, ↓quiet_upd_fuses, apply_ite State.quiet, ite_self, foldl_quiet, foldl_quiet_snd, foldl_quiet_fst, implies_true, forall_const, List.foldl_cons, List.foldl_nil, State.event_quiet, State.requeue_quiet]

@[simp] theorem State.unitTouch_quiet (s : State) (x : Side) (first alloc : Bool) : (State.unitTouch s x first alloc).quiet = s.quiet := by
  unfold State.unitTouch
  repeat' split
  all_goals (simp only [↓quiet_upd, ↓quiet_upd_sec, ↓quiet_upd_fuses, apply_ite State.quiet, ite_self, foldl_quiet, foldl_quiet_snd, foldl_quiet_fst, implies_true, forall_const, List.foldl_cons, List.foldl_nil, State.touchLines_quiet, *])

@[simp] theorem State.sideWrite_quiet (s : State) (c : CoreId) (own : Nat) (alloc : Bool) (x : Side) (bs : List Byte) : (State.sideWrite s c own alloc x bs).2.quiet = s.quiet := by
  unfold State.sideWrite
  repeat' split
  all_goals (simp only [↓quiet_upd, ↓quiet_upd_sec, ↓quiet_upd_fuses, apply_ite State.quiet, ite_self, foldl_quiet, foldl_quiet_snd, foldl_quiet_fst, implies_true, forall_const, List.foldl_cons, List.foldl_nil, State.writeOpen_quiet, State.writeStoreOf_quiet, *])

@[simp] theorem XProg.err_quiet (p : XProg) (code addr : Nat) : (p.err code addr).st.quiet = p.st.quiet := by
  unfold XProg.err
  split <;> simp only [State.drawn_quiet]

@[simp] theorem XProg.gatherUnit_quiet (c : CoreId) (d : XDesc) (a : XProg × List (Nat × List Byte)) (l : Nat) :
    (XProg.gatherUnit c d a l).1.st.quiet = a.1.st.quiet := by
  obtain ⟨p, rs⟩ := a
  unfold XProg.gatherUnit
  dsimp only
  (repeat' split) <;>
    simp only [XProg.err_quiet, apply_ite XProg.st, apply_ite State.quiet, State.unitTouch_quiet, ite_self]

@[simp] theorem XProg.gather_quiet (p : XProg) (c : CoreId) (d : XDesc) (l n : Nat) : (p.gather c d l n).1.st.quiet = p.st.quiet := by
  unfold XProg.gather
  exact foldl_quiet_of (fun a : XProg × List (Nat × List Byte) => a.1.st) (fun a i => XProg.gatherUnit_quiet ..) _ _

@[simp] theorem XProg.put_quiet (p : XProg) (c : CoreId) (own : Nat) (d : XDesc) (l : Nat) (bs : List Byte) :
    (p.put c own d l bs).st.quiet = p.st.quiet := by
  unfold XProg.put
  refine foldl_quiet_of (fun p : XProg => p.st) (fun p k => ?_) _ _
  dsimp only
  split
  · exact (State.sideWrite_quiet ..).trans (State.drawn_quiet ..)
  · rw [XProg.err_quiet]; exact (State.sideWrite_quiet ..).trans (State.drawn_quiet ..)

@[simp] theorem XProg.chunk_quiet (c : CoreId) (own : Nat) (d : XDesc) (p : XProg) (l n : Nat) :
    (XProg.chunk c own d p l n).st.quiet = p.st.quiet := by
  unfold XProg.chunk
  dsimp only
  exact (foldl_quiet_of (fun p : XProg => p.st) (fun p r => XProg.put_quiet ..) _ _).trans (XProg.gather_quiet ..)

@[simp] theorem State.xferRequest_quiet (s : State) (c : CoreId) (own : Nat) (d : XDesc) (dst : Nat) (m : Msg) (l : Nat) : (State.xferRequest s c own d dst m l).quiet = s.quiet := by
  unfold State.xferRequest
  simp only [↓quiet_upd, ↓quiet_upd_sec, ↓quiet_upd_fuses, apply_ite State.quiet, ite_self, foldl_quiet, foldl_quiet_snd, foldl_quiet_fst, implies_true, forall_const, List.foldl_cons, List.foldl_nil, State.request_quiet]

@[simp] theorem State.sendPieces_quiet (c : CoreId) (own : Nat) (d : XDesc) (p : XProg) (x : Nat × Nat) :
    (State.sendPieces c own d p x).st.quiet = p.st.quiet := by
  unfold State.sendPieces
  split
  · rfl
  · dsimp only
    refine (foldl_quiet_of (fun p : XProg => p.st) (fun p r => ?_) _ _).trans (XProg.gather_quiet ..)
    split
    · exact State.xferRequest_quiet ..
    · rfl

@[simp] theorem State.readPieces_quiet (s : State) (c : CoreId) (own : Nat) (d : XDesc) (ls : List (Nat × Nat)) :
    (s.readPieces c own d ls).quiet = s.quiet := by
  unfold State.readPieces
  refine foldl_quiet (fun s p => ?_) _ _
  split
  · exact State.xferRequest_quiet ..
  · rfl

@[simp] theorem State.wbackRows_quiet (s : State) (l : List (Side × Nat)) : (s.wbackRows l).2.2.quiet = s.quiet := by
  unfold State.wbackRows
  refine foldl_quiet_of (fun r : Nat × Nat × State => r.2.2) (fun r x => ?_) _ _
  split
  · rfl
  split
  · split <;> rfl
  · rfl
  · rfl

@[simp] theorem State.warmRows_quiet (s : State) (l : List (Side × Nat)) : (s.warmRows l).2.2.quiet = s.quiet := by
  unfold State.warmRows
  refine foldl_quiet_of (fun r : Nat × Nat × State => r.2.2) (fun r x => ?_) _ _
  split
  · rfl
  split
  · refine foldl_quiet_of (fun r : Nat × Nat × State => r.2.2) (fun r k => ?_) _ _
    split
    · rfl
    · dsimp only
      split
      · rfl
      · exact State.touchLines_quiet ..
  · rfl
  · rfl

@[simp] theorem State.setXfer_quiet (s : State) (c : CoreId) (own done code bad : Nat) : (State.setXfer s c own done code bad).quiet = s.quiet := by
  unfold State.setXfer
  rfl

@[simp] theorem State.failXfer_quiet (s : State) (c : CoreId) (own done code bad : Nat) : (State.failXfer s c own done code bad).quiet = s.quiet := by
  unfold State.failXfer
  simp only [↓quiet_upd, ↓quiet_upd_sec, ↓quiet_upd_fuses, apply_ite State.quiet, ite_self, foldl_quiet, foldl_quiet_snd, foldl_quiet_fst, implies_true, forall_const, List.foldl_cons, List.foldl_nil, State.setXfer_quiet]

@[simp] theorem State.startXfer_quiet (s : State) (c : CoreId) (addr : Nat) (post : Option SemId) : (s.startXfer c addr post).quiet = s.quiet := by
  unfold State.startXfer
  extract_lets raw d own live rd wr u remoteSrc _ _ p1 p2
  have hu : u.quiet = s.quiet := State.updCore_quiet ..
  rw [← hu]
  split
  · rfl
  split
  · rw [State.setXfer_quiet, State.wbackRows_quiet]
  split
  · exact State.readPieces_quiet ..
  split
  · rw [State.setXfer_quiet, State.warmRows_quiet]
  split
  · rw [State.failXfer_quiet]
    exact foldl_quiet_of (fun p : XProg => p.st) (fun p x => State.sendPieces_quiet ..) _ _
  · rw [State.setXfer_quiet]
    exact foldl_quiet_of (fun p : XProg => p.st) (fun p x => XProg.chunk_quiet ..) _ _

@[simp] theorem State.placeRead_quiet (s : State) (c : CoreId) (o : Op) (l : Nat) (bs : List Byte) : (s.placeRead c o l bs).quiet = s.quiet := by
  unfold State.placeRead
  split
  · dsimp only
    split
    · rfl
    · split
      · exact (State.xferRequest_quiet ..).trans (State.drawn_quiet ..)
      · rw [State.failXfer_quiet, XProg.put_quiet]
  · rfl

@[simp] theorem State.finishXfer_quiet (s : State) (c : CoreId) (o : Op) (raw : List Byte) (addr done code bad : Nat) :
    (s.finishXfer c o raw addr done code bad).quiet = s.quiet := by
  unfold State.finishXfer
  extract_lets d s1 s2 s3
  have h1 : s1.quiet = s.quiet := by
    show (if _ then _ else _ : State).quiet = _
    split
    · refine foldl_quiet (fun s x => ?_) _ _
      split <;> rfl
    · rfl
  have h2 : s2.quiet = s1.quiet := by
    show (if _ then _ else _ : State).quiet = _
    split
    · rfl
    · exact State.event_quiet ..
  rw [State.endOp_quiet, ← h1, ← h2]
  show (if _ then _ else _ : State).quiet = _
  split
  · exact State.writeStoreOf_quiet ..
  · rfl

@[simp] theorem State.startImem_quiet (s : State) (c : CoreId) (addr : Nat) (post : Option SemId) : (State.startImem s c addr post).quiet = s.quiet := by
  unfold State.startImem
  simp only [↓quiet_upd, ↓quiet_upd_sec, ↓quiet_upd_fuses, apply_ite State.quiet, ite_self, foldl_quiet, foldl_quiet_snd, foldl_quiet_fst, implies_true, forall_const, List.foldl_cons, List.foldl_nil, State.updCore_quiet]

@[simp] theorem State.loadBundles_quiet (s : State) (c : CoreId) (src first addr : Nat) (is : List Nat) : (State.loadBundles s c src first addr is).quiet = s.quiet := by
  unfold State.loadBundles
  simp only [↓quiet_upd, ↓quiet_upd_sec, ↓quiet_upd_fuses, apply_ite State.quiet, ite_self, foldl_quiet, foldl_quiet_snd, foldl_quiet_fst, implies_true, forall_const, List.foldl_cons, List.foldl_nil, State.unitTouch_quiet, State.updCore_quiet, State.event_quiet]

@[simp] theorem State.rowRead_quiet (s : State) (a n : Nat) (alloc : Bool) : (State.rowRead s a n alloc).2.2.quiet = s.quiet := by
  unfold State.rowRead
  simp only [↓quiet_upd, ↓quiet_upd_sec, ↓quiet_upd_fuses, apply_ite State.quiet, ite_self, foldl_quiet, foldl_quiet_snd, foldl_quiet_fst, implies_true, forall_const, List.foldl_cons, List.foldl_nil, State.touchLines_quiet]

@[simp] theorem GProg.index_quiet (p : GProg) (c : CoreId) (d : GReq) (t : TDesc) (k b o ord : Nat) :
    (p.index c d t k b o ord).st.quiet = p.st.quiet := by
  unfold GProg.index
  dsimp only
  split
  · rfl
  split
  · rw [quiet_upd, State.rowRead_quiet]
  · split <;> rfl

@[simp] theorem State.sendSub_quiet (s : State) (t : TDesc) (m : GSub) : (State.sendSub s t m).quiet = s.quiet := by
  unfold State.sendSub
  simp only [quiet_upd, apply_ite State.quiet, ite_self, State.request_quiet]

@[simp] theorem State.setGather_quiet (s : State) (g : Gather) : (State.setGather s g).quiet = s.quiet := by
  unfold State.setGather
  rfl

@[simp] theorem State.gatherChunk_quiet (s : State) (g : Gather) (is : List (Nat × Nat)) (k : Nat) : (s.gatherChunk g is k).quiet = s.quiet := by
  unfold State.gatherChunk
  dsimp only
  refine (foldl_quiet (fun s m => State.sendSub_quiet ..) _ _).trans ?_
  rw [State.setGather_quiet]
  exact foldl_quiet_of (fun p : GProg => p.st) (fun p x => GProg.index_quiet ..) _ _

@[simp] theorem State.advanceGather_quiet (core op n : Nat) (s : State) : (State.advanceGather core op n s).quiet = s.quiet := by
  induction n generalizing s with
  | zero => rfl
  | succ n ih =>
    unfold State.advanceGather
    split
    · rfl
    · dsimp only
      split
      · rfl
      · rw [ih, State.gatherChunk_quiet]

@[simp] theorem State.startGather_quiet (s : State) (c : CoreId) (addr : Nat) (post : Option SemId) : (s.startGather c addr post).quiet = s.quiet := by
  unfold State.startGather
  dsimp only
  split
  · rw [quiet_upd, State.updCore_quiet]
  · rw [State.advanceGather_quiet, quiet_upd, State.updCore_quiet]

@[simp] theorem State.serveSub_quiet (s : State) (m : GSub) : (State.serveSub s m).2.quiet = s.quiet := by
  unfold State.serveSub
  simp only [↓quiet_upd, ↓quiet_upd_sec, ↓quiet_upd_fuses, apply_ite State.quiet, ite_self, foldl_quiet, foldl_quiet_snd, foldl_quiet_fst, implies_true, forall_const, List.foldl_cons, List.foldl_nil, State.rowRead_quiet, State.drawn_quiet]
  repeat' split
  all_goals ((try have p0 := congrArg (fun x => x.2.2.quiet) ‹State.rowRead _ _ _ _ = _›); (try simp only [State.rowRead_quiet] at p0); simp only [↓quiet_upd, ↓quiet_upd_sec, ↓quiet_upd_fuses, apply_ite State.quiet, ite_self, foldl_quiet, foldl_quiet_snd, foldl_quiet_fst, implies_true, forall_const, List.foldl_cons, List.foldl_nil, State.rowRead_quiet, State.drawn_quiet, *])

@[simp] theorem State.addPart_quiet (s : State) (m : GPart) : (s.addPart m).quiet = s.quiet := by
  unfold State.addPart
  split
  · rfl
  split
  · rfl
  · dsimp only
    rw [State.advanceGather_quiet, State.setGather_quiet, quiet_upd]

@[simp] theorem State.storeAll_quiet (s : State) (c : CoreId) (own : Nat) (ws : List (Nat × List Byte)) : (State.storeAll s c own ws).quiet = s.quiet := by
  unfold State.storeAll
  simp only [↓quiet_upd, ↓quiet_upd_sec, ↓quiet_upd_fuses, apply_ite State.quiet, ite_self, foldl_quiet, foldl_quiet_snd, foldl_quiet_fst, implies_true, forall_const, List.foldl_cons, List.foldl_nil, State.writeStoreOf_quiet]

@[simp] theorem State.finishGather_quiet (s : State) (c : CoreId) (o : Op) (g : Gather) : (State.finishGather s c o g).quiet = s.quiet := by
  unfold State.finishGather
  simp only [↓quiet_upd, ↓quiet_upd_sec, ↓quiet_upd_fuses, apply_ite State.quiet, ite_self, foldl_quiet, foldl_quiet_snd, foldl_quiet_fst, implies_true, forall_const, List.foldl_cons, List.foldl_nil, State.storeAll_quiet, State.drawn_quiet, State.event_quiet, State.endOp_quiet]

@[simp] theorem State.dropReplicas_quiet (s : State) (t : Nat) : (State.dropReplicas s t).quiet = s.quiet := by
  unfold State.dropReplicas
  rfl

@[simp] theorem State.dropAllReplicas_quiet (s : State) : (State.dropAllReplicas s).quiet = s.quiet := by
  unfold State.dropAllReplicas
  rfl

@[simp] theorem State.runDesc_quiet (s : State) (c : CoreId) (addr : Nat) (post : Option SemId) : (State.runDesc s c addr post).quiet = s.quiet := by
  unfold State.runDesc
  simp only [↓quiet_upd, ↓quiet_upd_sec, ↓quiet_upd_fuses, apply_ite State.quiet, ite_self, foldl_quiet, foldl_quiet_snd, foldl_quiet_fst, implies_true, forall_const, List.foldl_cons, List.foldl_nil, State.dropReplicas_quiet, State.writeStoreOf_quiet, State.updCore_quiet, State.completionPost_quiet]

@[simp] theorem State.sendExperts_quiet (s : State) (c : CoreId) (own : Nat) (d : RDesc) (m : Cells 8) (last : Bool) :
    (s.sendExperts c own d m last).quiet = s.quiet := by
  unfold State.sendExperts
  refine foldl_quiet (fun s w => ?_) _ _
  split
  · rfl
  · exact foldl_quiet (fun s b => foldl_quiet (fun s p => State.request_quiet ..) _ _) _ _

@[simp] theorem State.dispatchHeaders_quiet (s : State) (c : CoreId) (own : Nat) (raw : List Byte) : (State.dispatchHeaders s c own raw).quiet = s.quiet := by
  unfold State.dispatchHeaders
  simp only [↓quiet_upd, ↓quiet_upd_sec, ↓quiet_upd_fuses, apply_ite State.quiet, ite_self, foldl_quiet, foldl_quiet_snd, foldl_quiet_fst, implies_true, forall_const, List.foldl_cons, List.foldl_nil, State.sendExperts_quiet]

@[simp] theorem State.startDispatch_quiet (s : State) (c : CoreId) (addr : Nat) (post : Option SemId) : (State.startDispatch s c addr post).quiet = s.quiet := by
  unfold State.startDispatch
  simp only [↓quiet_upd, ↓quiet_upd_sec, ↓quiet_upd_fuses, apply_ite State.quiet, ite_self, foldl_quiet, foldl_quiet_snd, foldl_quiet_fst, implies_true, forall_const, List.foldl_cons, List.foldl_nil, State.route_quiet, State.updCore_quiet, State.sendExperts_quiet, State.dispatchHeaders_quiet]

@[simp] theorem State.finishDispatch_quiet (s : State) (c : CoreId) (o : Op) (raw : List Byte) (net : Nat) :
    (s.finishDispatch c o raw net).quiet = s.quiet := by
  unfold State.finishDispatch
  dsimp only
  rw [State.endOp_quiet, quiet_upd, State.storeAll_quiet]
  refine foldl_quiet (fun s w => ?_) _ _
  split
  · exact State.storeAll_quiet ..
  · rfl

@[simp] theorem State.startCollect_quiet (s : State) (c : CoreId) (addr : Nat) (post : Option SemId) : (State.startCollect s c addr post).quiet = s.quiet := by
  unfold State.startCollect
  simp only [↓quiet_upd, ↓quiet_upd_sec, ↓quiet_upd_fuses, apply_ite State.quiet, ite_self, foldl_quiet, foldl_quiet_snd, foldl_quiet_fst, implies_true, forall_const, List.foldl_cons, List.foldl_nil, State.route_quiet, State.updCore_quiet, State.request_quiet]

@[simp] theorem State.finishCollect_quiet (s : State) (c : CoreId) (o : Op) (raw : List Byte) (net : Nat) (got : Cells 8) : (State.finishCollect s c o raw net got).quiet = s.quiet := by
  unfold State.finishCollect
  simp only [↓quiet_upd, ↓quiet_upd_sec, ↓quiet_upd_fuses, apply_ite State.quiet, ite_self, foldl_quiet, foldl_quiet_snd, foldl_quiet_fst, implies_true, forall_const, List.foldl_cons, List.foldl_nil, State.storeAll_quiet, State.drawn_quiet, State.endOp_quiet]

@[simp] theorem State.sendGrads_quiet (s : State) (c : CoreId) (lead : Nat) (ps : List GradPacket) : (State.sendGrads s c lead ps).quiet = s.quiet := by
  unfold State.sendGrads
  simp only [quiet_upd, quiet_upd_sec, quiet_upd_fuses, apply_ite State.quiet, ite_self, foldl_quiet, foldl_quiet_snd, foldl_quiet_fst, implies_true, forall_const, List.foldl_cons, List.foldl_nil, State.updCore_quiet, State.request_quiet]

@[simp] theorem State.enterRow_quiet (s : State) (c : CoreId) (table row : Nat) (v : List W32) (x : ScatterCnt) : (State.enterRow s c table row v x).1.quiet = s.quiet := by
  unfold State.enterRow
  repeat' split
  all_goals (simp only [quiet_upd, State.setCore_quiet, State.updCore_quiet, State.sendGrads_quiet])

@[simp] theorem State.scatterBag_quiet (c : CoreId) (d : SReq) (t : TDesc) (m : Cells 8) (b lo n : Nat) (a : State × ScatterCnt) :
    (State.scatterBag c d t m b lo n a).1.quiet = a.1.quiet := by
  unfold State.scatterBag
  refine foldl_quiet_fst (fun b s x => ?_) _ _
  dsimp only
  repeat' split
  all_goals first | rfl | simp only [State.enterRow_quiet, State.drawn_quiet]

@[simp] theorem State.runScatter_quiet (s : State) (c : CoreId) (o : Op) (raw : List Byte) : (s.runScatter c o raw).quiet = s.quiet := by
  unfold State.runScatter
  dsimp only
  rw [State.updCore_quiet]
  iterate 5
    split
    · rfl
  refine foldl_quiet_of (fun a : State × ScatterCnt => a.1) (fun a b => ?_) _ _
  split
  · exact State.scatterBag_quiet ..
  · rfl

@[simp] theorem State.runFlush_quiet (s : State) (c : CoreId) (o : Op) (raw : List Byte) (auto : Bool) : (State.runFlush s c o raw auto).quiet = s.quiet := by
  unfold State.runFlush
  simp only [↓quiet_upd, ↓quiet_upd_sec, ↓quiet_upd_fuses, apply_ite State.quiet, ite_self, foldl_quiet, foldl_quiet_snd, foldl_quiet_fst, implies_true, forall_const, List.foldl_cons, List.foldl_nil, State.updCore_quiet, State.sendGrads_quiet]

@[simp] theorem State.startCmb_quiet (c : CoreId) (n : Nat) (s : State) : (State.startCmb c n s).quiet = s.quiet := by
  induction n generalizing s with
  | zero => rfl
  | succ n ih =>
    unfold State.startCmb
    split
    · rfl
    · rw [ih]
      split
      · exact State.runScatter_quiet ..
      · exact State.runFlush_quiet ..

@[simp] theorem State.startScatter_quiet (s : State) (c : CoreId) (addr : Nat) (post : Option SemId) : (s.startScatter c addr post).quiet = s.quiet := by
  unfold State.startScatter
  exact (State.startCmb_quiet ..).trans (State.updCore_quiet ..)

@[simp] theorem State.startFlush_quiet (s : State) (c : CoreId) (addr : Nat) (post : Option SemId) : (s.startFlush c addr post).quiet = s.quiet := by
  unfold State.startFlush
  exact (State.startCmb_quiet ..).trans (State.updCore_quiet ..)

@[simp] theorem State.startHalt_quiet (s : State) (c : CoreId) : (s.startHalt c).quiet = s.quiet := by
  unfold State.startHalt
  exact (State.startCmb_quiet ..).trans (State.updCore_quiet ..)

@[simp] theorem State.endCmb_quiet (s : State) (c : CoreId) (o : Op) : (s.endCmb c o).quiet = s.quiet := by
  unfold State.endCmb
  exact (State.startCmb_quiet ..).trans (State.endOp_quiet ..)

@[simp] theorem State.ackGrad_quiet (s : State) (a : GradAck) : (State.ackGrad s a).quiet = s.quiet := by
  unfold State.ackGrad
  rfl

@[simp] theorem State.flushReport_quiet (s : State) (c : CoreId) (f : FlushOp) : (State.flushReport s c f).quiet = s.quiet := by
  unfold State.flushReport
  simp only [quiet_upd, apply_ite State.quiet, ite_self, State.event_quiet, State.failStep_quiet]

@[simp] theorem State.finishFlush_quiet (s : State) (c : CoreId) (o : Op) (f : FlushOp) : (State.finishFlush s c o f).quiet = s.quiet := by
  unfold State.finishFlush
  simp only [↓quiet_upd, ↓quiet_upd_sec, ↓quiet_upd_fuses, apply_ite State.quiet, ite_self, foldl_quiet, foldl_quiet_snd, foldl_quiet_fst, implies_true, forall_const, List.foldl_cons, List.foldl_nil, State.flushReport_quiet, State.writeStoreOf_quiet, State.endCmb_quiet]

@[simp] theorem State.updBank_quiet (s : State) (n : CelId) (b : Fin 2) (f : GBank → GBank) : (State.updBank s n b f).quiet = s.quiet := by
  unfold State.updBank
  rfl

@[simp] theorem State.openKey_quiet (s : State) (n : CelId) (b : Fin 2) (k : GKey) (row : List W32) : (State.openKey s n b k row).quiet = s.quiet := by
  unfold State.openKey
  rfl

@[simp] theorem State.pressEntry_quiet (s : State) (n : CelId) (b : Fin 2) (table dim step : Nat) (e : GradEntry) : (State.pressEntry s n b table dim step e).2.quiet = s.quiet := by
  unfold State.pressEntry
  simp only [quiet_upd, State.openKey_quiet, State.event_quiet]
  repeat' split
  all_goals (simp only [quiet_upd, State.openKey_quiet, State.event_quiet])

@[simp] theorem State.applyGrad_quiet (s : State) (n : CelId) (p : GradPacket) : (s.applyGrad n p).2.quiet = s.quiet := by
  unfold State.applyGrad
  dsimp only
  split
  · rfl
  split
  · rfl
  split
  · rfl
  · dsimp only
    rw [State.drawn_quiet, quiet_upd]
    refine (foldl_quiet_snd (fun a s e => ?_) _ _).trans ?_
    · exact State.pressEntry_quiet ..
    · exact State.updBank_quiet ..

@[simp] theorem State.answerGrad_quiet (s : State) (p : GradPacket) (via : Option Packet) (code rej : Nat) : (State.answerGrad s p via code rej).quiet = s.quiet := by
  unfold State.answerGrad
  repeat' split
  all_goals (simp only [↓quiet_upd, ↓quiet_upd_sec, ↓quiet_upd_fuses, apply_ite State.quiet, ite_self, foldl_quiet, foldl_quiet_snd, foldl_quiet_fst, implies_true, forall_const, List.foldl_cons, List.foldl_nil, State.sendMsg_quiet, *])

@[simp] theorem State.clearBank_quiet (s : State) (b : Fin 2) : (State.clearBank s b).quiet = s.quiet := by
  unfold State.clearBank
  rfl

@[simp] theorem State.sealBanks_quiet (s : State) (step : Nat) : (State.sealBanks s step).quiet = s.quiet := by
  unfold State.sealBanks
  rfl

@[simp] theorem State.setColl_quiet (s : State) (c : Coll) : (State.setColl s c).quiet = s.quiet := by
  unfold State.setColl
  rfl

@[simp] theorem State.updColl_quiet (s : State) (id : Nat) (f : Coll → Coll) : (s.updColl id f).quiet = s.quiet := by
  unfold State.updColl
  cases s.collById id <;> rfl

@[simp] theorem State.noteColl_quiet (s : State) (id st a : Nat) : (State.noteColl s id st a).quiet = s.quiet := by
  unfold State.noteColl
  repeat' split
  all_goals (simp only [↓quiet_upd, ↓quiet_upd_sec, ↓quiet_upd_fuses, apply_ite State.quiet, ite_self, foldl_quiet, foldl_quiet_snd, foldl_quiet_fst, implies_true, forall_const, List.foldl_cons, List.foldl_nil, State.setColl_quiet, State.accessRecord_quiet, *])

@[simp] theorem State.tookSource_quiet (s : State) (d : CDesc) (id st a n : Nat) : (State.tookSource s d id st a n).quiet = s.quiet := by
  unfold State.tookSource
  simp only [↓quiet_upd, ↓quiet_upd_sec, ↓quiet_upd_fuses, apply_ite State.quiet, ite_self, foldl_quiet, foldl_quiet_snd, foldl_quiet_fst, implies_true, forall_const, List.foldl_cons, List.foldl_nil, State.touchLines_quiet, State.noteColl_quiet]

@[simp] theorem State.engineWrite_quiet (s : State) (c : Coll) (a : Nat) (bs : List Byte) : (State.engineWrite s c a bs).quiet = s.quiet := by
  unfold State.engineWrite
  simp only [↓quiet_upd, ↓quiet_upd_sec, ↓quiet_upd_fuses, apply_ite State.quiet, ite_self, foldl_quiet, foldl_quiet_snd, foldl_quiet_fst, implies_true, forall_const, List.foldl_cons, List.foldl_nil, State.writeOpen_quiet, State.updColl_quiet, State.noteColl_quiet]

@[simp] theorem State.collWrite_quiet (s : State) (c : Coll) (o : Nat) (bs : List Byte) : (State.collWrite s c o bs).quiet = s.quiet := by
  unfold State.collWrite
  simp only [↓quiet_upd, ↓quiet_upd_sec, ↓quiet_upd_fuses, apply_ite State.quiet, ite_self, foldl_quiet, foldl_quiet_snd, foldl_quiet_fst, implies_true, forall_const, List.foldl_cons, List.foldl_nil, State.writeStoreOf_quiet, State.updColl_quiet, State.noteColl_quiet, State.engineWrite_quiet]
  repeat' split
  all_goals (simp only [↓quiet_upd, ↓quiet_upd_sec, ↓quiet_upd_fuses, apply_ite State.quiet, ite_self, foldl_quiet, foldl_quiet_snd, foldl_quiet_fst, implies_true, forall_const, List.foldl_cons, List.foldl_nil, State.writeStoreOf_quiet, State.updColl_quiet, State.noteColl_quiet, State.engineWrite_quiet, *])

@[simp] theorem State.countSent_quiet (s : State) (f : CFrag) : (State.countSent s f).quiet = s.quiet := by
  unfold State.countSent
  rfl

@[simp] theorem State.unackedAdd_quiet (s : State) (c : Coll) (faddr units : Nat) : (State.unackedAdd s c faddr units).quiet = s.quiet := by
  unfold State.unackedAdd
  rfl

@[simp] theorem State.unackedSub_quiet (s : State) (comm cseq faddr units : Nat) : (State.unackedSub s comm cseq faddr units).quiet = s.quiet := by
  unfold State.unackedSub
  rfl

@[simp] theorem State.readFrag_quiet (s : State) (c : Coll) (f : CFrag) : (State.readFrag s c f).1.quiet = s.quiet := by
  unfold State.readFrag
  simp only [↓quiet_upd, ↓quiet_upd_sec, ↓quiet_upd_fuses, apply_ite State.quiet, ite_self, foldl_quiet, foldl_quiet_snd, foldl_quiet_fst, implies_true, forall_const, List.foldl_cons, List.foldl_nil, State.tookSource_quiet, State.countSent_quiet, State.drawn_quiet]

@[simp] theorem State.sendFrags_quiet (c : Coll) (p : CollPeer) (s : State) (l : List CFrag) :
    (State.sendFrags c p s l).1.quiet = s.quiet := by
  induction l generalizing s p with
  | nil => rfl
  | cons f fs ih =>
    unfold State.sendFrags
    split
    · dsimp only
      rw [ih, State.unackedAdd_quiet, State.inject_quiet, State.readFrag_quiet]
    · rfl

@[simp] theorem State.sendMulticast_quiet (s : State) (c : Coll) : (State.sendMulticast s c).quiet = s.quiet := by
  unfold State.sendMulticast
  simp only [↓quiet_upd, ↓quiet_upd_sec, ↓quiet_upd_fuses, apply_ite State.quiet, ite_self, foldl_quiet, foldl_quiet_snd, foldl_quiet_fst, implies_true, forall_const, List.foldl_cons, List.foldl_nil, State.readFrag_quiet, State.unackedAdd_quiet, State.inject_quiet, State.updColl_quiet]

@[simp] theorem State.pushColl_quiet (s : State) (id : Nat) : (s.pushColl id).quiet = s.quiet := by
  unfold State.pushColl
  split
  · rfl
  split
  · rfl
  split
  · exact State.sendMulticast_quiet ..
  · dsimp only
    rw [State.updColl_quiet]
    exact foldl_quiet_of (fun a : State × List CollPeer => a.1) (fun a p => State.sendFrags_quiet ..) _ _

@[simp] theorem State.putReduced_quiet (s : State) (c : Coll) (o : Nat) (xs : List W32) (finite bad : Nat → Bool) :
    (s.putReduced c o xs finite bad).quiet = s.quiet := by
  unfold State.putReduced
  dsimp only
  refine (foldl_quiet (fun s x => ?_) _ _).trans (quiet_upd ..)
  split
  · rfl
  · split <;> first | rfl | exact State.collWrite_quiet ..

@[simp] theorem State.reduceChunk_quiet (s : State) (c : Coll) : (State.reduceChunk s c).quiet = s.quiet := by
  unfold State.reduceChunk
  simp only [↓quiet_upd, ↓quiet_upd_sec, ↓quiet_upd_fuses, apply_ite State.quiet, ite_self, foldl_quiet, foldl_quiet_snd, foldl_quiet_fst, implies_true, forall_const, List.foldl_cons, List.foldl_nil, State.tookSource_quiet, State.drawn_quiet, State.updColl_quiet, State.putReduced_quiet]

@[simp] theorem State.ownPart_quiet (s : State) (c : Coll) : (State.ownPart s c).quiet = s.quiet := by
  unfold State.ownPart
  simp only [↓quiet_upd, ↓quiet_upd_sec, ↓quiet_upd_fuses, apply_ite State.quiet, ite_self, foldl_quiet, foldl_quiet_snd, foldl_quiet_fst, implies_true, forall_const, List.foldl_cons, List.foldl_nil, State.tookSource_quiet, State.collWrite_quiet, State.engineWrite_quiet]
  repeat' split
  all_goals (simp only [↓quiet_upd, ↓quiet_upd_sec, ↓quiet_upd_fuses, apply_ite State.quiet, ite_self, foldl_quiet, foldl_quiet_snd, foldl_quiet_fst, implies_true, forall_const, List.foldl_cons, List.foldl_nil, State.tookSource_quiet, State.collWrite_quiet, State.engineWrite_quiet, *])

@[simp] theorem State.advanceColl_quiet (s : State) (id : Nat) : (State.advanceColl s id).quiet = s.quiet := by
  unfold State.advanceColl
  repeat' split
  all_goals (simp only [↓quiet_upd, ↓quiet_upd_sec, ↓quiet_upd_fuses, apply_ite State.quiet, ite_self, foldl_quiet, foldl_quiet_snd, foldl_quiet_fst, implies_true, forall_const, List.foldl_cons, List.foldl_nil, State.reduceChunk_quiet, State.engineWrite_quiet, State.updColl_quiet, State.tookSource_quiet, State.collWrite_quiet, State.pushColl_quiet, *])

@[simp] theorem State.qpStamp_quiet (s : State) (n : Nat) : (State.qpStamp s n).2.quiet = s.quiet := by
  unfold State.qpStamp
  rfl

@[simp] theorem State.takeJoin_quiet (s : State) (id : Nat) (j : CollJoin) : (State.takeJoin s id j).quiet = s.quiet := by
  unfold State.takeJoin
  simp only [↓quiet_upd, ↓quiet_upd_sec, ↓quiet_upd_fuses, apply_ite State.quiet, ite_self, foldl_quiet, foldl_quiet_snd, foldl_quiet_fst, implies_true, forall_const, List.foldl_cons, List.foldl_nil, State.setColl_quiet, State.engineWrite_quiet]
  repeat' split
  all_goals (simp only [↓quiet_upd, ↓quiet_upd_sec, ↓quiet_upd_fuses, apply_ite State.quiet, ite_self, foldl_quiet, foldl_quiet_snd, foldl_quiet_fst, implies_true, forall_const, List.foldl_cons, List.foldl_nil, State.setColl_quiet, State.engineWrite_quiet, *])

@[simp] theorem State.activate_quiet (s : State) (id : Nat) : (State.activate s id).quiet = s.quiet := by
  unfold State.activate
  repeat' split
  all_goals ((try have p0 := congrArg (fun x => x.2.quiet) ‹State.qpStamp _ _ = _›); (try simp only [State.qpStamp_quiet] at p0); simp only [↓quiet_upd, ↓quiet_upd_sec, ↓quiet_upd_fuses, apply_ite State.quiet, ite_self, foldl_quiet, foldl_quiet_snd, foldl_quiet_fst, implies_true, forall_const, List.foldl_cons, List.foldl_nil, State.setColl_quiet, State.request_quiet, State.noteColl_quiet, State.tookSource_quiet, State.updColl_quiet, State.ownPart_quiet, State.qpStamp_quiet, State.inject_quiet, State.drawn_quiet, State.takeJoin_quiet, State.advanceColl_quiet, *])

@[simp] theorem State.activateNext_quiet (n : Nat) (s : State) : (State.activateNext n s).quiet = s.quiet := by
  induction n generalizing s with
  | zero => rfl
  | succ n ih =>
    unfold State.activateNext
    repeat' split
    all_goals first | rfl | rw [ih, State.activate_quiet]

@[simp] theorem State.issueColl_quiet (s : State) (who : CollIssuer) (raw : List Byte) : (State.issueColl s who raw).quiet = s.quiet := by
  unfold State.issueColl
  repeat' split
  all_goals (simp only [quiet_upd, apply_ite State.quiet, ite_self, State.activateNext_quiet])

@[simp] theorem State.startColl_quiet (s : State) (c : CoreId) (addr : Nat) (post : Option SemId) : (State.startColl s c addr post).quiet = s.quiet := by
  unfold State.startColl
  simp only [quiet_upd, State.updCore_quiet, State.issueColl_quiet]

@[simp] theorem State.tagReady_quiet (s : State) (ctag : Nat) : (State.tagReady s ctag).quiet = s.quiet := by
  unfold State.tagReady
  simp only [quiet_upd, apply_ite State.quiet, ite_self]

@[simp] theorem State.spoilOutputs_quiet (s : State) (c : Coll) : (State.spoilOutputs s c).quiet = s.quiet := by
  unfold State.spoilOutputs
  simp only [↓quiet_upd, ↓quiet_upd_sec, ↓quiet_upd_fuses, apply_ite State.quiet, ite_self, foldl_quiet, foldl_quiet_snd, foldl_quiet_fst, implies_true, forall_const, List.foldl_cons, List.foldl_nil, State.engineWrite_quiet, State.collWrite_quiet]

@[simp] theorem State.finishColl_quiet (s : State) (c : Coll) : (State.finishColl s c).quiet = s.quiet := by
  unfold State.finishColl
  simp only [↓quiet_upd, ↓quiet_upd_sec, ↓quiet_upd_fuses, apply_ite State.quiet, ite_self, foldl_quiet, foldl_quiet_snd, foldl_quiet_fst, implies_true, forall_const, List.foldl_cons, List.foldl_nil, State.spoilOutputs_quiet, State.drawn_quiet, State.event_quiet, State.failStep_quiet, State.tagReady_quiet, State.activateNext_quiet, State.issueColl_quiet, State.writeStoreOf_quiet, State.endOp_quiet]
  repeat' split
  all_goals (simp only [↓quiet_upd, ↓quiet_upd_sec, ↓quiet_upd_fuses, apply_ite State.quiet, ite_self, foldl_quiet, foldl_quiet_snd, foldl_quiet_fst, implies_true, forall_const, List.foldl_cons, List.foldl_nil, State.spoilOutputs_quiet, State.drawn_quiet, State.event_quiet, State.failStep_quiet, State.tagReady_quiet, State.activateNext_quiet, State.issueColl_quiet, State.writeStoreOf_quiet, State.endOp_quiet, *])

@[simp] theorem State.takeData_quiet (s : State) (c : Coll) (p : Packet) (seg off total status : Nat) (bs : List Byte) : (State.takeData s c p seg off total status bs).quiet = s.quiet := by
  unfold State.takeData
  simp only [↓quiet_upd, ↓quiet_upd_sec, ↓quiet_upd_fuses, apply_ite State.quiet, ite_self, foldl_quiet, foldl_quiet_snd, foldl_quiet_fst, implies_true, forall_const, List.foldl_cons, List.foldl_nil, State.badPacket_quiet, State.setColl_quiet, State.putReduced_quiet, State.collWrite_quiet, State.engineWrite_quiet, State.sendMsg_quiet, State.advanceColl_quiet]
  repeat' split
  all_goals (simp only [↓quiet_upd, ↓quiet_upd_sec, ↓quiet_upd_fuses, apply_ite State.quiet, ite_self, foldl_quiet, foldl_quiet_snd, foldl_quiet_fst, implies_true, forall_const, List.foldl_cons, List.foldl_nil, State.badPacket_quiet, State.setColl_quiet, State.putReduced_quiet, State.collWrite_quiet, State.engineWrite_quiet, State.sendMsg_quiet, State.advanceColl_quiet, *])

@[simp] theorem State.serveShard_quiet (s : State) (who table version shard cel first n step : Nat) (lease release : Bool) :
    (s.serveShard who table version shard cel first n step lease release).2.quiet = s.quiet := by
  unfold State.serveShard
  extract_lets t i u sh qs
  have hu : u.quiet = s.quiet := by
    show (if _ then _ else _ : State).quiet = _
    split <;> rfl
  split
  · rfl
  split
  · rfl
  rw [← hu]
  clear_value u
  have h : ∀ l : List Nat, (l.foldl (fun (a : Nat × List (Nat × List Byte) × State) q =>
      let (code, rows, s) := a
      let (st, bs, s) := s.rowRead (t.rowAddr sh q) t.rowBytes true
      let s := if (st = stUnmapped || st = stCaveDown) && code = stOk then s.accessRecord who st (t.rowAddr sh q) else s
      if st = stOk then (code, rows ++ [(q, s.openBytes (s.isWild table) bs)], s.drawn bs.length) else (collWorse code st, rows, s))
      (stOk, [], u)).2.2.quiet = u.quiet := by
    intro l
    refine foldl_quiet_of (fun a : Nat × List (Nat × List Byte) × State => a.2.2) (fun a q => ?_) l _
    have hr := State.rowRead_quiet a.2.2 (t.rowAddr sh q) t.rowBytes true
    dsimp only
    split
    · rw [State.drawn_quiet]
      split
      · exact (State.accessRecord_quiet ..).trans hr
      · exact hr
    · dsimp only
      split
      · exact (State.accessRecord_quiet ..).trans hr
      · exact hr
  dsimp only
  split
  · rw [quiet_upd]; exact h _
  · exact h _

@[simp] theorem State.takeShard_quiet (s : State) (id home table shard cel status uver : Nat) (rows : List (Nat × List Byte)) :
    (s.takeShard id home table shard cel status uver rows).quiet = s.quiet := by
  unfold State.takeShard
  split
  · rfl
  · refine (foldl_quiet (fun s r => ?_) _ _).trans (State.setColl_quiet ..)
    dsimp only
    split
    · split <;> first | rfl | exact State.collWrite_quiet ..
    · rfl

@[simp] theorem State.serveRead_quiet (s : State) (who a n : Nat) : (s.serveRead who a n).2.quiet = s.quiet := by
  unfold State.serveRead
  split
  · extract_lets rs parts u
    have hu : u.quiet = s.quiet := by
      refine foldl_quiet (fun s r => ?_) _ _
      split
      · exact State.touchLines_quiet ..
      · rfl
    rw [← hu]
    dsimp only
    split
    · exact State.accessRecord_quiet ..
    · rfl
  · rfl
  · exact State.accessRecord_quiet ..

@[simp] theorem State.serveWrite_quiet (s : State) (who a : Nat) (wb : Bool) (bs : List Byte) : (s.serveWrite who a wb bs).2.2.quiet = s.quiet := by
  unfold State.serveWrite
  split
  · dsimp only
    have h : ∀ (a : Nat) (l : List (Nat × Nat)), (l.foldl (fun (r : Nat × Nat × State) k =>
        if r.1 ≠ stOk then r
        else
          let st := r.2.2.accessAt .remote (a + k.1)
          if st = stOk then (stOk, r.2.1 + k.2, r.2.2.writeOpen .remote (a + k.1) ((bs.drop k.1).take k.2))
          else (st, r.2.1, r.2.2.accessRecord who st (a + k.1))) (stOk, 0, s)).2.2.quiet = s.quiet := by
      intro a l
      refine foldl_quiet_of (fun r : Nat × Nat × State => r.2.2) (fun r k => ?_) l _
      split
      · rfl
      · dsimp only
        split
        · exact State.writeOpen_quiet ..
        · exact State.accessRecord_quiet ..
    split
    · rw [quiet_upd]; exact h _ _
    · exact h _ _
  · exact State.writeStoreOf_quiet ..
  · exact State.accessRecord_quiet ..

@[simp] theorem State.updReq_quiet (s : State) (r : NetReq) (f : NetReq → NetReq) : (State.updReq s r f).quiet = s.quiet := by
  unfold State.updReq
  rfl

@[simp] theorem State.readPart_quiet (s : State) (r : NetReq) (status off : Nat) (bs : List Byte) : (State.readPart s r status off bs).quiet = s.quiet := by
  unfold State.readPart
  simp only [↓quiet_upd, ↓quiet_upd_sec, ↓quiet_upd_fuses, apply_ite State.quiet, ite_self, foldl_quiet, foldl_quiet_snd, foldl_quiet_fst, implies_true, forall_const, List.foldl_cons, List.foldl_nil, State.updReq_quiet, State.placeRead_quiet, State.failXfer_quiet]
  repeat' split
  all_goals (simp only [↓quiet_upd, ↓quiet_upd_sec, ↓quiet_upd_fuses, apply_ite State.quiet, ite_self, foldl_quiet, foldl_quiet_snd, foldl_quiet_fst, implies_true, forall_const, List.foldl_cons, List.foldl_nil, State.updReq_quiet, State.placeRead_quiet, State.failXfer_quiet, *])

@[simp] theorem State.toCore_quiet (s : State) (r : NetReq) (c : CoreId) (op status : Nat) (resp : Option Msg) : (State.toCore s r c op status resp).quiet = s.quiet := by
  unfold State.toCore
  repeat' split
  all_goals (simp only [↓quiet_upd, ↓quiet_upd_sec, ↓quiet_upd_fuses, apply_ite State.quiet, ite_self, foldl_quiet, foldl_quiet_snd, foldl_quiet_fst, implies_true, forall_const, List.foldl_cons, List.foldl_nil, State.addPart_quiet, State.ackGrad_quiet, State.failXfer_quiet, State.setXfer_quiet, State.dispatchHeaders_quiet, *])

@[simp] theorem State.completeReq_quiet (s : State) (r : NetReq) (status : Nat) (resp : Option Msg) (late : Bool) : (State.completeReq s r status resp late).quiet = s.quiet := by
  unfold State.completeReq
  repeat' split
  all_goals (simp only [↓quiet_upd, ↓quiet_upd_sec, ↓quiet_upd_fuses, apply_ite State.quiet, ite_self, foldl_quiet, foldl_quiet_snd, foldl_quiet_fst, implies_true, forall_const, List.foldl_cons, List.foldl_nil, State.freeReq_quiet, State.toCore_quiet, State.takeShard_quiet, *])

@[simp] theorem State.respondTo_quiet (s : State) (r : NetReq) (p : Packet) : (State.respondTo s r p).quiet = s.quiet := by
  unfold State.respondTo
  simp only [↓quiet_upd, ↓quiet_upd_sec, ↓quiet_upd_fuses, apply_ite State.quiet, ite_self, foldl_quiet, foldl_quiet_snd, foldl_quiet_fst, implies_true, forall_const, List.foldl_cons, List.foldl_nil, State.completeReq_quiet, State.readPart_quiet]
  repeat' split
  all_goals (simp only [↓quiet_upd, ↓quiet_upd_sec, ↓quiet_upd_fuses, apply_ite State.quiet, ite_self, foldl_quiet, foldl_quiet_snd, foldl_quiet_fst, implies_true, forall_const, List.foldl_cons, List.foldl_nil, State.completeReq_quiet, State.readPart_quiet, *])

/-- What the handling of a delivered packet answers. -/
theorem State.onDelivered_next {s : State} {k : Nat} {want : Msg → Bool} {f : State → Packet → Res} {t : State}
    (h : s.onDelivered k want f = .next t) :
    t = s ∨ t = (s.takeDeliv k).badPacket ∨ ∃ p, s.fab.deliv[k]? = some p ∧ f (s.takeDeliv k) p = .next t := by
  unfold State.onDelivered at h
  repeat' split at h
  · injection h with h; exact .inl h.symm
  · injection h with h; exact .inl h.symm
  · injection h with h; exact .inr (.inl h.symm)
  · exact .inr (.inr ⟨_, ‹_›, h⟩)

theorem State.onResponse_quiet {s : State} {k : Nat} {want : Msg → Bool} {t : State}
    (h : s.onResponse k want = .next t) : t.quiet = s.quiet := by
  unfold State.onResponse at h
  rcases State.onDelivered_next h with rfl | rfl | ⟨p, -, hv⟩
  · rfl
  · rw [State.badPacket_quiet]; rfl
  · split at hv <;> injection hv with hv <;> subst hv
    · rw [State.lateResp_quiet]; rfl
    · rw [State.respondTo_quiet]; rfl

@[simp] theorem State.dropReqs_quiet (s : State) (c : CoreId) (op : Nat) : (State.dropReqs s c op).quiet = s.quiet := by
  unfold State.dropReqs
  rfl

@[simp] theorem State.coreFault_quiet (s : State) (c : CoreId) (code pc : Nat) : (State.coreFault s c code pc).quiet = s.quiet := by
  unfold State.coreFault
  simp only [↓quiet_upd, ↓quiet_upd_sec, ↓quiet_upd_fuses, apply_ite State.quiet, ite_self, foldl_quiet, foldl_quiet_snd, foldl_quiet_fst, implies_true, forall_const, List.foldl_cons, List.foldl_nil, State.updCore_quiet, State.logRec_quiet, State.failStep_quiet]

@[simp] theorem State.startAsync_quiet (s : State) (c : CoreId) (k : DKind) (addr : Nat) (post : Option SemId) : (State.startAsync s c k addr post).quiet = s.quiet := by
  unfold State.startAsync
  repeat' split
  all_goals (simp only [↓quiet_upd, ↓quiet_upd_sec, ↓quiet_upd_fuses, apply_ite State.quiet, ite_self, foldl_quiet, foldl_quiet_snd, foldl_quiet_fst, implies_true, forall_const, List.foldl_cons, List.foldl_nil, State.startXfer_quiet, State.startImem_quiet, State.startColl_quiet, State.startGather_quiet, State.runDesc_quiet, State.startScatter_quiet, State.startFlush_quiet, State.startDispatch_quiet, State.startCollect_quiet, *])

@[simp] theorem State.decideCommit_quiet (s : State) (c : CoreId) (pc : Nat) : (State.decideCommit s c pc).quiet = s.quiet := by
  unfold State.decideCommit
  simp only [quiet_upd, apply_ite State.quiet, ite_self, State.withCore_quiet, State.coreFault_quiet, State.updCore_quiet]

@[simp] theorem State.serveReq_quiet (s : State) (c : CoreId) (pc : Nat) (req : DReq) : (State.serveReq s c pc req).quiet = s.quiet := by
  unfold State.serveReq
  repeat' split
  all_goals (simp only [↓quiet_upd, ↓quiet_upd_sec, ↓quiet_upd_fuses, apply_ite State.quiet, ite_self, foldl_quiet, foldl_quiet_snd, foldl_quiet_fst, implies_true, forall_const, List.foldl_cons, List.foldl_nil, State.startAsync_quiet, State.updCore_quiet, State.decideCommit_quiet, *])

theorem State.issue_quiet {s : State} {c : CoreId} {b : Bundle} {t : State} (h : State.issue s c b = .next t) : t.quiet = s.quiet := by
  unfold State.issue at h
  dsimp only at h
  repeat' split at h
  all_goals first
    | contradiction
    | (simp only [reduceCtorEq, Host.Outcome.next.injEq, Option.some.injEq, Except.ok.injEq, reduceCtorEq] at h; subst h; (try have q0 := unchanged_quiet ‹_›); first | rfl | simp only [↓quiet_upd, ↓quiet_upd_sec, ↓quiet_upd_fuses, apply_ite State.quiet, ite_self, foldl_quiet, foldl_quiet_snd, foldl_quiet_fst, implies_true, forall_const, List.foldl_cons, List.foldl_nil, State.setCore_quiet, State.coreFault_quiet, State.withCore_quiet, State.drawn_quiet, State.serveReq_quiet, State.startHalt_quiet, *])
    | ((try have q0 := unchanged_quiet ‹_›); first | assumption | (simp only [↓quiet_upd, ↓quiet_upd_sec, ↓quiet_upd_fuses, apply_ite State.quiet, ite_self, foldl_quiet, foldl_quiet_snd, foldl_quiet_fst, implies_true, forall_const, List.foldl_cons, List.foldl_nil, State.setCore_quiet, State.coreFault_quiet, State.withCore_quiet, State.drawn_quiet, State.serveReq_quiet, State.startHalt_quiet, *] at *; done) | simp_all only [↓quiet_upd, ↓quiet_upd_sec, ↓quiet_upd_fuses, apply_ite State.quiet, ite_self, foldl_quiet, foldl_quiet_snd, foldl_quiet_fst, implies_true, forall_const, List.foldl_cons, List.foldl_nil, State.setCore_quiet, State.coreFault_quiet, State.withCore_quiet, State.drawn_quiet, State.serveReq_quiet, State.startHalt_quiet])

theorem State.issueS_quiet {s : State} {c : CoreId} {g : Guard} {op : SOp} {t : State} (h : State.issueS s c g op = .next t) : t.quiet = s.quiet := by
  unfold State.issueS at h
  repeat' split at h
  all_goals first
    | contradiction
    | (injection h with h; subst h; (try have q0 := State.issue_quiet ‹_›); simp only [quiet_upd, *])
    | ((try have q0 := State.issue_quiet ‹_›); have q := h; simp only [quiet_upd, *] at q ⊢; done)

theorem State.issueM_quiet {s : State} {c : CoreId} {g : Guard} {op : MOp} {t : State} (h : State.issueM s c g op = .next t) : t.quiet = s.quiet := by
  unfold State.issueM at h
  repeat' split at h
  all_goals first
    | contradiction
    | (injection h with h; subst h; (try have q0 := State.issue_quiet ‹_›); simp only [quiet_upd, *])
    | ((try have q0 := State.issue_quiet ‹_›); have q := h; simp only [quiet_upd, *] at q ⊢; done)

theorem State.issueV_quiet {s : State} {c : CoreId} {g : Guard} {op : VOp} {t : State} (h : State.issueV s c g op = .next t) : t.quiet = s.quiet := by
  unfold State.issueV at h
  repeat' split at h
  all_goals first
    | contradiction
    | (injection h with h; subst h; (try have q0 := State.issue_quiet ‹_›); simp only [quiet_upd, *])
    | ((try have q0 := State.issue_quiet ‹_›); have q := h; simp only [quiet_upd, *] at q ⊢; done)

theorem State.issueD_quiet {s : State} {c : CoreId} {g : Guard} {op : DOp} {t : State} (h : State.issueD s c g op = .next t) : t.quiet = s.quiet := by
  unfold State.issueD at h
  repeat' split at h
  all_goals first
    | contradiction
    | (injection h with h; subst h; (try have q0 := State.issue_quiet ‹_›); simp only [quiet_upd, *])
    | ((try have q0 := State.issue_quiet ‹_›); have q := h; simp only [quiet_upd, *] at q ⊢; done)

theorem State.fetch_quiet {s : State} {c : CoreId} {t : State} (h : State.fetch s c = .next t) : t.quiet = s.quiet := by
  unfold State.fetch at h
  dsimp only at h
  repeat' split at h
  all_goals first
    | contradiction
    | (simp only [reduceCtorEq, Host.Outcome.next.injEq, Option.some.injEq, Except.ok.injEq, reduceCtorEq] at h; subst h; (try have q0 := State.issue_quiet ‹_›); (try have q1 := unchanged_quiet ‹_›); first | rfl | simp only [quiet_upd, State.coreFault_quiet])
    | ((try have q0 := State.issue_quiet ‹_›); (try have q1 := unchanged_quiet ‹_›); first | assumption | (simp only [quiet_upd, State.coreFault_quiet] at *; done) | simp_all only [quiet_upd, State.coreFault_quiet])

@[simp] theorem State.putThrough_quiet (s : State) (a : Nat) (bs : List Byte) : (State.putThrough s a bs).quiet = s.quiet := by
  unfold State.putThrough
  rfl

@[simp] theorem State.unitPut_quiet (s : State) (t a : Nat) (bs : List Byte) : (State.unitPut s t a bs).quiet = s.quiet := by
  unfold State.unitPut
  simp only [↓quiet_upd, ↓quiet_upd_sec, ↓quiet_upd_fuses, apply_ite State.quiet, ite_self, foldl_quiet, foldl_quiet_snd, foldl_quiet_fst, implies_true, forall_const, List.foldl_cons, List.foldl_nil, State.putThrough_quiet, State.drawn_quiet]

@[simp] theorem State.skipRow_quiet (s : State) (c : UpdCtx) (g : UpdGroup) (r : UpdRow) (cause : Nat) : (State.skipRow s c g r cause).quiet = s.quiet := by
  unfold State.skipRow
  simp only [quiet_upd, apply_ite State.quiet, ite_self, State.event_quiet]

@[simp] theorem State.markDirty_quiet (s : State) (k : GroupKey) : (State.markDirty s k).quiet = s.quiet := by
  unfold State.markDirty
  simp only [quiet_upd, apply_ite State.quiet, ite_self]

@[simp] theorem State.sweep1_quiet (s : State) (c : UpdCtx) (g : UpdGroup) : (s.sweep1 c g).1.quiet = s.quiet := by
  unfold State.sweep1
  dsimp only
  rw [State.unitPut_quiet, State.unitPut_quiet, State.unitPut_quiet]
  refine foldl_quiet_of (fun a : State × Nat × List FVal × List FVal => a.1) (fun a r => ?_) _ _
  split
  · rfl
  · split
    · exact State.skipRow_quiet ..
    · exact foldl_quiet (fun s p => State.unitPut_quiet ..) _ _

@[simp] theorem State.sweep2_quiet (s : State) (c : UpdCtx) (g : UpdGroup) (phi : Option W32) : (s.sweep2 c g phi).quiet = s.quiet := by
  unfold State.sweep2
  dsimp only
  rw [State.unitPut_quiet, State.unitPut_quiet, State.unitPut_quiet, State.unitPut_quiet]
  refine foldl_quiet_of (fun a : State × Nat => a.1) (fun a r => ?_) _ _
  split
  · rfl
  · split
    · exact State.skipRow_quiet ..
    · rw [quiet_upd, State.markDirty_quiet]; exact foldl_quiet (fun s p => State.unitPut_quiet ..) _ _

@[simp] theorem State.putJournal_quiet (s : State) (t o : Nat) (bs : List Byte) : (State.putJournal s t o bs).quiet = s.quiet := by
  unfold State.putJournal
  rfl

@[simp] theorem State.openJournal_quiet (s : State) (e : UpdEntry) (step scale : Nat) : (State.openJournal s e step scale).quiet = s.quiet := by
  unfold State.openJournal
  rfl

@[simp] theorem State.commitStep_quiet (s : State) : (State.commitStep s).quiet = s.quiet := by
  unfold State.commitStep
  simp only [quiet_upd, apply_ite State.quiet, ite_self, State.clearBank_quiet]

@[simp] theorem State.finishTensor_quiet (s : State) (n : CelId) (t : Nat) : (State.finishTensor s n t).quiet = s.quiet := by
  unfold State.finishTensor
  simp only [quiet_upd, apply_ite State.quiet, ite_self, State.putJournal_quiet, State.commitStep_quiet]

@[simp] theorem State.formNorms_quiet (s : State) (t : Nat) : (State.formNorms s t).quiet = s.quiet := by
  unfold State.formNorms
  simp only [quiet_upd, apply_ite State.quiet, ite_self, State.putJournal_quiet, State.drawn_quiet]

@[simp] theorem State.suspectGroup_quiet (s : State) (c : UpdCtx) (g : UpdGroup) : (State.suspectGroup s c g).quiet = s.quiet := by
  unfold State.suspectGroup
  simp only [↓quiet_upd, ↓quiet_upd_sec, ↓quiet_upd_fuses, apply_ite State.quiet, ite_self, foldl_quiet, foldl_quiet_snd, foldl_quiet_fst, implies_true, forall_const, List.foldl_cons, List.foldl_nil, State.unitPut_quiet, State.event_quiet]

@[simp] theorem State.recoverGroup_quiet (s : State) (c : UpdCtx) (phi : Option W32) (second : Bool) (g : UpdGroup) : (State.recoverGroup s c phi second g).quiet = s.quiet := by
  unfold State.recoverGroup
  simp only [quiet_upd, State.suspectGroup_quiet, State.sweep2_quiet, State.sweep1_quiet]
  repeat' split
  all_goals (simp only [quiet_upd, State.suspectGroup_quiet, State.sweep2_quiet, State.sweep1_quiet])

@[simp] theorem State.recoverNorms_quiet (s : State) (e : UpdEntry) : (State.recoverNorms s e).quiet = s.quiet := by
  unfold State.recoverNorms
  rfl

@[simp] theorem State.recoverTensor_quiet (s : State) (n : CelId) (t : Nat) : (State.recoverTensor s n t).quiet = s.quiet := by
  unfold State.recoverTensor
  simp only [quiet_upd, quiet_upd_sec, quiet_upd_fuses, apply_ite State.quiet, ite_self, foldl_quiet, foldl_quiet_snd, foldl_quiet_fst, implies_true, forall_const, List.foldl_cons, List.foldl_nil, State.recoverGroup_quiet, State.recoverNorms_quiet, State.finishTensor_quiet]

@[simp] theorem State.scrubRow_quiet (s : State) (c : UpdCtx) (sh : Shard) (base : Nat) (r : UpdRow) : (State.scrubRow s c sh base r).2.quiet = s.quiet := by
  unfold State.scrubRow
  repeat' split
  all_goals (simp only [↓quiet_upd, ↓quiet_upd_sec, ↓quiet_upd_fuses, apply_ite State.quiet, ite_self, foldl_quiet, foldl_quiet_snd, foldl_quiet_fst, implies_true, forall_const, List.foldl_cons, List.foldl_nil, State.unitPut_quiet, *])

@[simp] theorem State.scrubGroup_quiet (s : State) (n : CelId) (t : Nat) (g : UpdGroup) : (State.scrubGroup s n t g).2.quiet = s.quiet := by
  unfold State.scrubGroup
  simp only [↓quiet_upd, ↓quiet_upd_sec, ↓quiet_upd_fuses, apply_ite State.quiet, ite_self, foldl_quiet, foldl_quiet_snd, foldl_quiet_fst, implies_true, forall_const, List.foldl_cons, List.foldl_nil, State.scrubRow_quiet, State.unitPut_quiet, State.markDirty_quiet]
  repeat' split
  all_goals ((try have p0 := congrArg (fun x => x.2.quiet) ‹State.scrubRow _ _ _ _ _ = _›); (try simp only [State.scrubRow_quiet] at p0); simp only [↓quiet_upd, ↓quiet_upd_sec, ↓quiet_upd_fuses, apply_ite State.quiet, ite_self, foldl_quiet, foldl_quiet_snd, foldl_quiet_fst, implies_true, forall_const, List.foldl_cons, List.foldl_nil, State.scrubRow_quiet, State.unitPut_quiet, State.markDirty_quiet, *])

@[simp] theorem State.commitMem_quiet (s : State) (job : Bool) : (State.commitMem s job).quiet = s.quiet := by
  unfold State.commitMem
  simp only [quiet_upd, apply_ite State.quiet, ite_self, State.drawn_quiet]

@[simp] theorem State.markChannel_quiet (s : State) (pc cause : Nat) : (State.markChannel s pc cause).quiet = s.quiet := by
  unfold State.markChannel
  simp only [quiet_upd, apply_ite State.quiet, ite_self, State.event_quiet, State.mgmtEvent_quiet, State.drawn_quiet]

@[simp] theorem State.uncorrEffect_quiet (s : State) (kind a : Nat) : (State.uncorrEffect s kind a).quiet = s.quiet := by
  unfold State.uncorrEffect
  repeat' split
  all_goals (simp only [quiet_upd, State.failStep_quiet])

@[simp] theorem State.eccFault_quiet (s : State) (c : CoreId) : (State.eccFault s c).quiet = s.quiet := by
  unfold State.eccFault
  simp only [quiet_upd, State.updCore_quiet, State.logRec_quiet]

@[simp] theorem State.promote_quiet (s : State) (p : ProcId) : (State.promote s p).quiet = s.quiet := by
  unfold State.promote
  simp only [quiet_upd, quiet_upd_sec, quiet_upd_fuses, apply_ite State.quiet, ite_self, foldl_quiet, foldl_quiet_snd, foldl_quiet_fst, implies_true, forall_const, List.foldl_cons, List.foldl_nil, State.logRec_quiet]

@[simp] theorem State.dropCounts_quiet (s : State) : (State.dropCounts s).quiet = s.quiet := by
  unfold State.dropCounts
  rfl

@[simp] theorem State.swapTelemetry_quiet (s : State) : (State.swapTelemetry s).quiet = s.quiet := by
  unfold State.swapTelemetry
  exact quiet_upd s ..

@[simp] theorem State.putImage_quiet (s : State) (i : GroupImg) : (State.putImage s i).quiet = s.quiet := by
  unfold State.putImage
  simp only [quiet_upd, quiet_upd_sec, quiet_upd_fuses, apply_ite State.quiet, ite_self, foldl_quiet, foldl_quiet_snd, foldl_quiet_fst, implies_true, forall_const, List.foldl_cons, List.foldl_nil, State.putThrough_quiet, State.markDirty_quiet]

@[simp] theorem State.putHeader_quiet (s : State) : (State.putHeader s).quiet = s.quiet := by
  unfold State.putHeader
  simp only [quiet_upd, apply_ite State.quiet, ite_self]

@[simp] theorem State.sendCkpt_quiet (s : State) (dst tag : Nat) (b : CkptBody) : (State.sendCkpt s dst tag b).quiet = s.quiet := by
  unfold State.sendCkpt
  simp only [quiet_upd, State.inject_quiet]

@[simp] theorem State.sendBuddy_quiet (s : State) (step : Nat) : (State.sendBuddy s step).quiet = s.quiet := by
  unfold State.sendBuddy
  repeat' split
  all_goals (simp only [quiet_upd, quiet_upd_sec, quiet_upd_fuses, apply_ite State.quiet, ite_self, foldl_quiet, foldl_quiet_snd, foldl_quiet_fst, implies_true, forall_const, List.foldl_cons, List.foldl_nil, State.event_quiet, State.sendCkpt_quiet])

@[simp] theorem State.startDelta_quiet (s : State) (step : Nat) : (State.startDelta s step).quiet = s.quiet := by
  unfold State.startDelta
  simp only [quiet_upd, apply_ite State.quiet, ite_self, State.sendBuddy_quiet]

@[simp] theorem State.endDelta_quiet (s : State) (d : Delta) : (State.endDelta s d).quiet = s.quiet := by
  unfold State.endDelta
  simp only [quiet_upd, State.putHeader_quiet, State.event_quiet]

@[simp] theorem State.restoreGroup_quiet (s : State) (g : GroupKey) : (State.restoreGroup s g).quiet = s.quiet := by
  unfold State.restoreGroup
  repeat' split
  all_goals (simp only [quiet_upd, State.putImage_quiet, State.event_quiet])

@[simp] theorem State.restoreSuspects_quiet (s : State) : (State.restoreSuspects s).quiet = s.quiet := by
  unfold State.restoreSuspects
  simp only [quiet_upd, quiet_upd_sec, quiet_upd_fuses, apply_ite State.quiet, ite_self, foldl_quiet, foldl_quiet_snd, foldl_quiet_fst, implies_true, forall_const, List.foldl_cons, List.foldl_nil, State.restoreGroup_quiet]

@[simp] theorem State.clearJournals_quiet (s : State) : (State.clearJournals s).quiet = s.quiet := by
  unfold State.clearJournals
  simp only [quiet_upd, quiet_upd_sec, quiet_upd_fuses, apply_ite State.quiet, ite_self, foldl_quiet, foldl_quiet_snd, foldl_quiet_fst, implies_true, forall_const, List.foldl_cons, List.foldl_nil, State.putThrough_quiet]

@[simp] theorem State.restoreTo_quiet (s : State) (t : Nat) (scale : ScaleSt) (noCopy : Bool) (slot : List Byte) :
    (s.restoreTo t scale noCopy slot).quiet = s.quiet := by
  unfold State.restoreTo
  extract_lets r live buddy marked s1 undone _ keep sc _ s2 s3 j s4 s5
  have h1 : s1.quiet = s.quiet := by
    show (if _ then _ else _ : State).quiet = _
    split
    · exact State.event_quiet ..
    · refine foldl_quiet (fun s g => ?_) _ _
      split <;> first | rfl | exact State.putImage_quiet ..
  rw [State.event_quiet, State.putHeader_quiet]
  have h3 : s3.quiet = s1.quiet := by
    show (State.dropCounts _).quiet = _
    rw [State.dropCounts_quiet, State.dropAllReplicas_quiet, State.clearBank_quiet, State.clearBank_quiet, State.clearJournals_quiet]
    rfl
  rw [← h1, ← h3]
  rfl

@[simp] theorem State.stopUnits_quiet (s : State) : (State.stopUnits s).quiet = s.quiet := by
  unfold State.stopUnits
  rfl

@[simp] theorem State.freeUnits_quiet (s : State) : (State.freeUnits s).quiet = s.quiet := by
  unfold State.freeUnits
  rfl

@[simp] theorem State.setJob_quiet (s : State) (st : Nat) : (State.setJob s st).quiet = s.quiet := by
  unfold State.setJob
  simp only [↓quiet_upd, ↓quiet_upd_sec, ↓quiet_upd_fuses, apply_ite State.quiet, ite_self, foldl_quiet, foldl_quiet_snd, foldl_quiet_fst, implies_true, forall_const, List.foldl_cons, List.foldl_nil, State.stopUnits_quiet, State.mgmtEvent_quiet, State.putHeader_quiet]

@[simp] theorem State.meetQps_quiet (s : State) : (State.meetQps s).quiet = s.quiet := by
  unfold State.meetQps
  repeat' split
  all_goals (simp only [↓quiet_upd, ↓quiet_upd_sec, ↓quiet_upd_fuses, apply_ite State.quiet, ite_self, foldl_quiet, foldl_quiet_snd, foldl_quiet_fst, implies_true, forall_const, List.foldl_cons, List.foldl_nil, State.message_quiet, *])

@[simp] theorem State.finishOp_quiet (s : State) (o : AccOp) (code : Nat) : (State.finishOp s o code).quiet = s.quiet := by
  unfold State.finishOp
  simp only [↓quiet_upd, ↓quiet_upd_sec, ↓quiet_upd_fuses, apply_ite State.quiet, ite_self, foldl_quiet, foldl_quiet_snd, foldl_quiet_fst, implies_true, forall_const, List.foldl_cons, List.foldl_nil, State.message_quiet, State.logRec_quiet]

@[simp] theorem State.endOpOf_quiet (s : State) (op code : Nat) : (State.endOpOf s op code).quiet = s.quiet := by
  unfold State.endOpOf
  repeat' split
  all_goals (simp only [quiet_upd, State.finishOp_quiet])

@[simp] theorem State.remap_quiet (s : State) : (State.remap s).quiet = s.quiet := by
  unfold State.remap
  simp only [quiet_upd, apply_ite State.quiet, ite_self]

@[simp] theorem State.fenceLate_quiet (s : State) : (State.fenceLate s).quiet = s.quiet := by
  unfold State.fenceLate
  simp only [quiet_upd, quiet_upd_sec, quiet_upd_fuses, apply_ite State.quiet, ite_self, foldl_quiet, foldl_quiet_snd, foldl_quiet_fst, implies_true, forall_const, List.foldl_cons, List.foldl_nil, State.fence_quiet]

@[simp] theorem State.endJob_quiet (s : State) : (State.endJob s).quiet = s.quiet := by
  unfold State.endJob
  simp only [↓quiet_upd, ↓quiet_upd_sec, ↓quiet_upd_fuses, apply_ite State.quiet, ite_self, foldl_quiet, foldl_quiet_snd, foldl_quiet_fst, implies_true, forall_const, List.foldl_cons, List.foldl_nil, State.setJob_quiet, State.stopUnits_quiet]

@[simp] theorem State.startExchange_quiet (s : State) : (State.startExchange s).quiet = s.quiet := by
  unfold State.startExchange
  simp only [quiet_upd, quiet_upd_sec, quiet_upd_fuses, apply_ite State.quiet, ite_self, foldl_quiet, foldl_quiet_snd, foldl_quiet_fst, implies_true, forall_const, List.foldl_cons, List.foldl_nil, State.sendCkpt_quiet]
  repeat' split
  all_goals (simp only [quiet_upd, quiet_upd_sec, quiet_upd_fuses, apply_ite State.quiet, ite_self, foldl_quiet, foldl_quiet_snd, foldl_quiet_fst, implies_true, forall_const, List.foldl_cons, List.foldl_nil, State.sendCkpt_quiet])

@[simp] theorem State.commitReshard_quiet (s : State) (new : JobConfig) : (State.commitReshard s new).quiet = s.quiet := by
  unfold State.commitReshard
  simp only [quiet_upd, quiet_upd_sec, quiet_upd_fuses, apply_ite State.quiet, ite_self, foldl_quiet, foldl_quiet_snd, foldl_quiet_fst, implies_true, forall_const, List.foldl_cons, List.foldl_nil, State.putThrough_quiet, State.commitMem_quiet, State.drawn_quiet, State.markDirty_quiet, State.clearJournals_quiet, State.dropAllReplicas_quiet, State.putHeader_quiet, State.endOpOf_quiet]

@[simp] theorem State.abandonReshard_quiet (s : State) : (State.abandonReshard s).quiet = s.quiet := by
  unfold State.abandonReshard
  simp only [quiet_upd, State.endOpOf_quiet, State.startExchange_quiet]

@[simp] theorem State.pumpReshard_quiet (s : State) : (State.pumpReshard s).quiet = s.quiet := by
  unfold State.pumpReshard
  repeat' split
  all_goals (simp only [quiet_upd, apply_ite State.quiet, ite_self, State.commitReshard_quiet, State.issueColl_quiet])

@[simp] theorem State.beginReshard_quiet (s : State) (o : AccOp) : (State.beginReshard s o).quiet = s.quiet := by
  unfold State.beginReshard
  simp only [quiet_upd, State.finishOp_quiet, State.pumpReshard_quiet]
  repeat' split
  all_goals (simp only [quiet_upd, State.finishOp_quiet, State.pumpReshard_quiet])

@[simp] theorem State.startOp_quiet (s : State) (o : AccOp) : (State.startOp s o).quiet = s.quiet := by
  unfold State.startOp
  rfl

@[simp] theorem State.serveOne_quiet (s : State) (op : Nat) : (State.serveOne s op).quiet = s.quiet := by
  unfold State.serveOne
  repeat' split
  all_goals (simp only [quiet_upd, quiet_upd_sec, quiet_upd_fuses, apply_ite State.quiet, ite_self, foldl_quiet, foldl_quiet_snd, foldl_quiet_fst, implies_true, forall_const, List.foldl_cons, List.foldl_nil, State.setJob_quiet, State.finishOp_quiet, State.endJob_quiet, State.endOpOf_quiet, State.startOp_quiet, State.beginReshard_quiet])

@[simp] theorem State.serveBoundary_quiet (s : State) : (State.serveBoundary s).quiet = s.quiet := by
  unfold State.serveBoundary
  simp only [quiet_upd, quiet_upd_sec, quiet_upd_fuses, apply_ite State.quiet, ite_self, foldl_quiet, foldl_quiet_snd, foldl_quiet_fst, implies_true, forall_const, List.foldl_cons, List.foldl_nil, State.setJob_quiet, State.serveOne_quiet]

@[simp] theorem State.resetPromo_quiet (s : State) : (State.resetPromo s).quiet = s.quiet := by
  unfold State.resetPromo
  simp only [quiet_upd, apply_ite State.quiet, ite_self]

@[simp] theorem State.boundary_quiet (s : State) : (State.boundary s).quiet = s.quiet := by
  unfold State.boundary
  simp only [↓quiet_upd, ↓quiet_upd_sec, ↓quiet_upd_fuses, apply_ite State.quiet, ite_self, foldl_quiet, foldl_quiet_snd, foldl_quiet_fst, implies_true, forall_const, List.foldl_cons, List.foldl_nil, State.meetQps_quiet, State.fenceLate_quiet, State.remap_quiet, State.restoreSuspects_quiet, State.resetPromo_quiet, State.serveBoundary_quiet]

@[simp] theorem State.failNow_quiet (s : State) (govf counted : Bool) : (State.failNow s govf counted).quiet = s.quiet := by
  unfold State.failNow
  simp only [↓quiet_upd, ↓quiet_upd_sec, ↓quiet_upd_fuses, apply_ite State.quiet, ite_self, foldl_quiet, foldl_quiet_snd, foldl_quiet_fst, implies_true, forall_const, List.foldl_cons, List.foldl_nil, State.event_quiet, State.clearBank_quiet, State.dropCounts_quiet, State.setJob_quiet, State.boundary_quiet]

@[simp] theorem State.sendState_quiet (s : State) : (State.sendState s).quiet = s.quiet := by
  unfold State.sendState
  simp only [quiet_upd, State.sendCkpt_quiet]
  repeat' split
  all_goals (simp only [quiet_upd, State.sendCkpt_quiet])

@[simp] theorem State.takeGo_quiet (s : State) (r : CkptRec) (none' : Bool) : (State.takeGo s r none').quiet = s.quiet := by
  unfold State.takeGo
  repeat' split
  all_goals (simp only [quiet_upd])

@[simp] theorem State.tryGo_quiet (s : State) : (State.tryGo s).quiet = s.quiet := by
  unfold State.tryGo
  simp only [quiet_upd, quiet_upd_sec, quiet_upd_fuses, apply_ite State.quiet, ite_self, foldl_quiet, foldl_quiet_snd, foldl_quiet_fst, implies_true, forall_const, List.foldl_cons, List.foldl_nil, State.event_quiet, State.sendCkpt_quiet, State.takeGo_quiet]
  repeat' split
  all_goals (simp only [quiet_upd, quiet_upd_sec, quiet_upd_fuses, apply_ite State.quiet, ite_self, foldl_quiet, foldl_quiet_snd, foldl_quiet_fst, implies_true, forall_const, List.foldl_cons, List.foldl_nil, State.event_quiet, State.sendCkpt_quiet, State.takeGo_quiet])

@[simp] theorem State.payState_quiet (s : State) : (State.payState s).quiet = s.quiet := by
  unfold State.payState
  simp only [quiet_upd, apply_ite State.quiet, ite_self, State.sendState_quiet, State.tryGo_quiet]

@[simp] theorem State.setPress_quiet (s : State) (c : JobConfig) : (State.setPress s c).quiet = s.quiet := by
  unfold State.setPress
  rfl

theorem State.setArea_quiet {s : State} {c : JobConfig} {t : State} (h : State.setArea s c = some t) : t.quiet = s.quiet := by
  unfold State.setArea at h
  dsimp only at h
  repeat' split at h
  all_goals first
    | contradiction
    | (simp only [reduceCtorEq, Host.Outcome.next.injEq, Option.some.injEq, Except.ok.injEq, reduceCtorEq] at h; subst h; first | rfl | simp only [quiet_upd, State.event_quiet])

@[simp] theorem State.loadUnits_quiet (s : State) : (State.loadUnits s).quiet = s.quiet := by
  unfold State.loadUnits
  repeat' split
  all_goals (simp only [quiet_upd])

theorem State.loadProgram_quiet {s : State} {c : JobConfig} {t : State} (h : State.loadProgram s c = some t) : t.quiet = s.quiet := by
  unfold State.loadProgram at h
  repeat' split at h
  all_goals first
    | contradiction
    | (injection h with h; subst h; (try have q0 := State.setArea_quiet ‹_›); simp only [↓quiet_upd, ↓quiet_upd_sec, ↓quiet_upd_fuses, apply_ite State.quiet, ite_self, foldl_quiet, foldl_quiet_snd, foldl_quiet_fst, implies_true, forall_const, List.foldl_cons, List.foldl_nil, State.event_quiet, *])
    | ((try have q0 := State.setArea_quiet ‹_›); have q := h; simp only [↓quiet_upd, ↓quiet_upd_sec, ↓quiet_upd_fuses, apply_ite State.quiet, ite_self, foldl_quiet, foldl_quiet_snd, foldl_quiet_fst, implies_true, forall_const, List.foldl_cons, List.foldl_nil, State.event_quiet, *] at q ⊢; done)

@[simp] theorem State.loadRegions_quiet (s : State) (c : JobConfig) : (State.loadRegions s c).quiet = s.quiet := by
  unfold State.loadRegions
  repeat' split
  all_goals (simp only [quiet_upd, State.commitMem_quiet])

@[simp] theorem State.loadTables_quiet (s : State) (c : JobConfig) : (State.loadTables s c).1.quiet = s.quiet := by
  unfold State.loadTables
  extract_lets _ _ _ s1 _ s2 s3 s4
  have h4 : s4.quiet = s.quiet :=
    (quiet_upd s3 ..).trans ((State.setPress_quiet ..).trans ((quiet_upd s2 ..).trans ((State.loadUnits_quiet ..).trans (State.loadRegions_quiet ..))))
  have h1 : s1.quiet = s.quiet := State.loadRegions_quiet ..
  clear_value s1 s4
  split
  · rfl
  split
  · exact h1
  split
  · exact h1
  split
  · rename_i t ht
    exact (State.loadProgram_quiet ht).trans h4
  · exact h4

@[simp] theorem State.jobCores_quiet (s : State) : (State.jobCores s).quiet = s.quiet := by
  unfold State.jobCores
  rfl

@[simp] theorem State.loadJob_quiet (s : State) (c : JobConfig) : (State.loadJob s c).1.quiet = s.quiet := by
  unfold State.loadJob
  repeat' split
  all_goals ((try have p0 := congrArg (fun x => x.1.quiet) ‹State.loadTables _ _ = _›); (try simp only [State.loadTables_quiet] at p0); simp only [↓quiet_upd, ↓quiet_upd_sec, ↓quiet_upd_fuses, apply_ite State.quiet, ite_self, foldl_quiet, foldl_quiet_snd, foldl_quiet_fst, implies_true, forall_const, List.foldl_cons, List.foldl_nil, State.loadTables_quiet, State.jobCores_quiet, State.putHeader_quiet, *])

@[simp] theorem State.ckptLost_quiet (s : State) (cause : Nat) : (State.ckptLost s cause).quiet = s.quiet := by
  unfold State.ckptLost
  simp only [quiet_upd, State.event_quiet]

@[simp] theorem State.reloadJob_quiet (s : State) : s.reloadJob.quiet = s.quiet := by
  unfold State.reloadJob
  extract_lets s0 s1
  have h1 : s1.quiet = s.quiet := rfl
  rw [← h1]
  clear_value s1
  split
  · split
    · rfl
    · split
      · exact State.ckptLost_quiet ..
      · have h2 := State.loadTables_quiet s1 ‹JobConfig›
        split <;> rename_i h <;> rw [h] at h2
        · exact (State.ckptLost_quiet ..).trans h2
        · rw [State.startExchange_quiet, State.mgmtEvent_quiet, quiet_upd, State.restoreTo_quiet, State.jobCores_quiet, quiet_upd]
          exact h2
  · exact State.ckptLost_quiet ..

@[simp] theorem State.updQueue_quiet (s : State) (q : QId) (f : Queue → Queue) : (State.updQueue s q f).quiet = s.quiet := by
  unfold State.updQueue
  rfl

@[simp] theorem State.putRecordOf_quiet (s : State) (q : QId) (tag : W64) (seq : W32) (code : Nat) (done : W64) : (State.putRecordOf s q tag seq code done).quiet = s.quiet := by
  unfold State.putRecordOf
  rfl

@[simp] theorem State.complete_quiet (s : State) (q : QId) (e : Sqe) (code done : Nat) : (State.complete s q e code done).quiet = s.quiet := by
  unfold State.complete
  simp only [quiet_upd, apply_ite State.quiet, ite_self, State.updQueue_quiet, State.putRecordOf_quiet]

@[simp] theorem State.abortUnstarted_quiet (s : State) (q : QId) : (State.abortUnstarted s q).quiet = s.quiet := by
  unfold State.abortUnstarted
  simp only [quiet_upd, quiet_upd_sec, quiet_upd_fuses, apply_ite State.quiet, ite_self, foldl_quiet, foldl_quiet_snd, foldl_quiet_fst, implies_true, forall_const, List.foldl_cons, List.foldl_nil, State.complete_quiet]

@[simp] theorem State.pumpQueue_quiet (s : State) (q : QId) : (State.pumpQueue s q).quiet = s.quiet := by
  unfold State.pumpQueue
  simp only [↓quiet_upd, ↓quiet_upd_sec, ↓quiet_upd_fuses, apply_ite State.quiet, ite_self, foldl_quiet, foldl_quiet_snd, foldl_quiet_fst, implies_true, forall_const, List.foldl_cons, List.foldl_nil, State.drawn_quiet, State.updQueue_quiet]
  repeat' split
  all_goals (simp only [↓quiet_upd, ↓quiet_upd_sec, ↓quiet_upd_fuses, apply_ite State.quiet, ite_self, foldl_quiet, foldl_quiet_snd, foldl_quiet_fst, implies_true, forall_const, List.foldl_cons, List.foldl_nil, State.drawn_quiet, State.updQueue_quiet, *])

@[simp] theorem State.pumpQueues_quiet (s : State) : (State.pumpQueues s).quiet = s.quiet := by
  unfold State.pumpQueues
  simp only [quiet_upd, quiet_upd_sec, quiet_upd_fuses, apply_ite State.quiet, ite_self, foldl_quiet, foldl_quiet_snd, foldl_quiet_fst, implies_true, forall_const, List.foldl_cons, List.foldl_nil, State.pumpQueue_quiet]

@[simp] theorem State.enableQueue_quiet (s : State) (q : QId) : (State.enableQueue s q).quiet = s.quiet := by
  unfold State.enableQueue
  simp only [quiet_upd, apply_ite State.quiet, ite_self, State.updQueue_quiet]

@[simp] theorem State.disableQueue_quiet (s : State) (q : QId) : (State.disableQueue s q).quiet = s.quiet := by
  unfold State.disableQueue
  simp only [quiet_upd, apply_ite State.quiet, ite_self, State.abortUnstarted_quiet, State.updQueue_quiet]

@[simp] theorem State.detachSession_quiet (s : State) (cause : Nat) : (s.detachSession cause).quiet = s.quiet := by
  unfold State.detachSession
  dsimp only
  split
  · rfl
  · rw [State.event_quiet]
    refine (foldl_quiet (fun s c => foldl_quiet (fun s o => ?_) _ _) _ _).trans (quiet_upd ..)
    repeat' split
    all_goals first | rfl | exact State.setXfer_quiet ..

@[simp] theorem State.resumeSession_quiet (s : State) : (State.resumeSession s).quiet = s.quiet := by
  unfold State.resumeSession
  simp only [quiet_upd, quiet_upd_sec, quiet_upd_fuses, apply_ite State.quiet, ite_self, foldl_quiet, foldl_quiet_snd, foldl_quiet_fst, implies_true, forall_const, List.foldl_cons, List.foldl_nil, State.updQueue_quiet, State.stampNext_quiet, State.pumpQueue_quiet]

@[simp] theorem State.newSession_quiet (s : State) : (State.newSession s).quiet = s.quiet := by
  unfold State.newSession
  simp only [quiet_upd, quiet_upd_sec, quiet_upd_fuses, apply_ite State.quiet, ite_self, foldl_quiet, foldl_quiet_snd, foldl_quiet_fst, implies_true, forall_const, List.foldl_cons, List.foldl_nil, State.disableQueue_quiet, State.drawn_quiet]

@[simp] theorem State.doorbell_quiet (s : State) (q : QId) (t : W32) : (State.doorbell s q t).quiet = s.quiet := by
  unfold State.doorbell
  simp only [↓quiet_upd, ↓quiet_upd_sec, ↓quiet_upd_fuses, apply_ite State.quiet, ite_self, foldl_quiet, foldl_quiet_snd, foldl_quiet_fst, implies_true, forall_const, List.foldl_cons, List.foldl_nil, State.updQueue_quiet, State.event_quiet, State.pumpQueue_quiet]

@[simp] theorem State.resumeQueue_quiet (s : State) (q : QId) : (State.resumeQueue s q).quiet = s.quiet := by
  unfold State.resumeQueue
  simp only [quiet_upd, apply_ite State.quiet, ite_self, State.updQueue_quiet, State.pumpQueue_quiet]

@[simp] theorem State.resetQueue_quiet (s : State) (q : QId) (seq : W32) : (State.resetQueue s q seq).quiet = s.quiet := by
  unfold State.resetQueue
  simp only [quiet_upd, apply_ite State.quiet, ite_self, State.abortUnstarted_quiet, State.updQueue_quiet]

@[simp] theorem State.cqHeadWrite_quiet (s : State) (q : QId) (x : W64) : (State.cqHeadWrite s q x).quiet = s.quiet := by
  unfold State.cqHeadWrite
  rfl

@[simp] theorem State.sqeDone_quiet (s : State) (q : Nat) (seq : W32) (code done : Nat) : (State.sqeDone s q seq code done).quiet = s.quiet := by
  unfold State.sqeDone
  rfl

@[simp] theorem State.claimRing_quiet (ring n : Nat) (s : State) : (State.claimRing ring n s).2.quiet = s.quiet := by
  induction n generalizing s with
  | zero => rfl
  | succ n ih =>
    unfold State.claimRing
    split
    · rfl
    · dsimp only
      split <;> simp only [ih, State.sqeDone_quiet, quiet_upd]

@[simp] theorem State.claimAll_quiet (s : State) : s.claimAll.2.quiet = s.quiet := by
  unfold State.claimAll
  dsimp only
  refine foldl_quiet (fun s r => ?_) _ _
  split
  · rfl
  · have h := State.claimRing_quiet r s.job.rings.length s
    split
    · rename_i b u hu
      rw [hu] at h; exact h
    · rename_i u hu
      rw [hu] at h; exact h

@[simp] theorem State.setMicros_quiet (s : State) : (State.setMicros s).quiet = s.quiet := by
  unfold State.setMicros
  rfl

@[simp] theorem State.rewriteTables_quiet (s : State) : (State.rewriteTables s).quiet = s.quiet := by
  unfold State.rewriteTables
  repeat' split
  all_goals (simp only [↓quiet_upd, ↓quiet_upd_sec, ↓quiet_upd_fuses, apply_ite State.quiet, ite_self, foldl_quiet, foldl_quiet_snd, foldl_quiet_fst, implies_true, forall_const, List.foldl_cons, List.foldl_nil, *])

@[simp] theorem State.healFirmware_quiet (s : State) : (State.healFirmware s).quiet = s.quiet := by
  unfold State.healFirmware
  simp only [↓quiet_upd, ↓quiet_upd_sec, ↓quiet_upd_fuses, apply_ite State.quiet, ite_self, foldl_quiet, foldl_quiet_snd, foldl_quiet_fst, implies_true, forall_const, List.foldl_cons, List.foldl_nil, State.rewriteTables_quiet]

@[simp] theorem State.applyConfigs_quiet (s : State) : (State.applyConfigs s).quiet = s.quiet := by
  unfold State.applyConfigs
  rfl

@[simp] theorem State.endScale_quiet (s : State) (govf : Bool) (ftz total : Nat) : (State.endScale s govf ftz total).quiet = s.quiet := by
  unfold State.endScale
  simp only [quiet_upd, State.logRec_quiet]

@[simp] theorem State.endStep_quiet (s : State) (govf : Bool) (ftz total : Nat) : (State.endStep s govf ftz total).quiet = s.quiet := by
  unfold State.endStep
  simp only [↓quiet_upd, ↓quiet_upd_sec, ↓quiet_upd_fuses, apply_ite State.quiet, ite_self, foldl_quiet, foldl_quiet_snd, foldl_quiet_fst, implies_true, forall_const, List.foldl_cons, List.foldl_nil, State.promote_quiet, State.swapTelemetry_quiet, State.dropAllReplicas_quiet, State.endScale_quiet, State.startDelta_quiet, State.boundary_quiet]

@[simp] theorem State.eraseFull_quiet (s : State) : (State.eraseFull s).quiet = s.quiet := by
  unfold State.eraseFull
  rfl

@[simp] theorem State.dropUpdate_quiet (s : State) : (State.dropUpdate s).quiet = s.quiet := by
  unfold State.dropUpdate
  repeat' split
  all_goals (simp only [quiet_upd])

@[simp] theorem State.secAnswer_quiet (s : State) (status : Nat) (bs : List Byte) : (State.secAnswer s status bs).quiet = s.quiet := by
  unfold State.secAnswer
  rfl

@[simp] theorem State.secDenied_quiet (s : State) (reason : Nat) : (State.secDenied s reason).quiet = s.quiet := by
  unfold State.secDenied
  rfl

@[simp] theorem State.useToken_quiet (s : State) : (State.useToken s).quiet = s.quiet := by
  unfold State.useToken
  rfl

@[simp] theorem State.tokenFailed_quiet (s : State) (typ : Nat) : (State.tokenFailed s typ).quiet = s.quiet := by
  unfold State.tokenFailed
  simp only [quiet_upd, quiet_upd_sec, quiet_upd_fuses, apply_ite State.quiet, ite_self, foldl_quiet, foldl_quiet_snd, foldl_quiet_fst, implies_true, forall_const, List.foldl_cons, List.foldl_nil, State.event_quiet, State.secDenied_quiet]

@[simp] theorem State.tellPower_quiet (s : State) (old : Nat) : (State.tellPower s old).quiet = s.quiet := by
  unfold State.tellPower
  simp only [quiet_upd, apply_ite State.quiet, ite_self, State.mgmtEvent_quiet]

@[simp] theorem State.setStage_quiet (s : State) (n : Nat) : (State.setStage s n).quiet = s.quiet := by
  unfold State.setStage
  simp only [quiet_upd, apply_ite State.quiet, ite_self, State.mgmtEvent_quiet]

@[simp] theorem State.setReady_quiet (s : State) (b : Bool) : (State.setReady s b).quiet = s.quiet := by
  unfold State.setReady
  simp only [quiet_upd, apply_ite State.quiet, ite_self, State.mgmtEvent_quiet]

@[simp] theorem State.dropTraffic_quiet (s : State) : (State.dropTraffic s).quiet = s.quiet := by
  unfold State.dropTraffic
  rfl

@[simp] theorem State.endAllOps_quiet (s : State) (code : Nat) : (State.endAllOps s code).quiet = s.quiet := by
  unfold State.endAllOps
  simp only [quiet_upd, quiet_upd_sec, quiet_upd_fuses, apply_ite State.quiet, ite_self, foldl_quiet, foldl_quiet_snd, foldl_quiet_fst, implies_true, forall_const, List.foldl_cons, List.foldl_nil, State.finishOp_quiet]

@[simp] theorem State.vcoreOff_quiet (s : State) : (State.vcoreOff s).quiet = s.quiet := by
  unfold State.vcoreOff
  simp only [quiet_upd, apply_ite State.quiet, ite_self, State.failStep_quiet]

@[simp] theorem State.portsDown_quiet (s : State) : (State.portsDown s).quiet = s.quiet := by
  unfold State.portsDown
  simp only [quiet_upd, quiet_upd_sec, quiet_upd_fuses, apply_ite State.quiet, ite_self, foldl_quiet, foldl_quiet_snd, foldl_quiet_fst, implies_true, forall_const, List.foldl_cons, List.foldl_nil, State.portState_quiet]

@[simp] theorem State.enterP3_quiet (s : State) : (State.enterP3 s).quiet = s.quiet := by
  unfold State.enterP3
  simp only [quiet_upd, State.portsDown_quiet, State.vcoreOff_quiet, State.dropTraffic_quiet, State.setReady_quiet, State.tellPower_quiet]

@[simp] theorem State.startProtect_quiet (s : State) (toP4 : Bool) : (State.startProtect s toP4).quiet = s.quiet := by
  unfold State.startProtect
  repeat' split
  all_goals (simp only [quiet_upd, apply_ite State.quiet, ite_self, State.endOpOf_quiet])

@[simp] theorem State.protectFlush_quiet (s : State) : (State.protectFlush s).quiet = s.quiet := by
  unfold State.protectFlush
  repeat' split
  all_goals (simp only [quiet_upd, State.portsDown_quiet, State.vcoreOff_quiet, State.dropTraffic_quiet])

@[simp] theorem State.protectAdvance_quiet (s : State) : (State.protectAdvance s).quiet = s.quiet := by
  unfold State.protectAdvance
  simp only [quiet_upd, apply_ite State.quiet, ite_self, State.protectFlush_quiet]

@[simp] theorem State.needP3_quiet (s : State) : (State.needP3 s).quiet = s.quiet := by
  unfold State.needP3
  simp only [quiet_upd, apply_ite State.quiet, ite_self, State.startProtect_quiet, State.protectAdvance_quiet, State.enterP3_quiet]

@[simp] theorem State.caveLost_quiet (s : State) : (State.caveLost s).quiet = s.quiet := by
  unfold State.caveLost
  simp only [quiet_upd, apply_ite State.quiet, ite_self, State.event_quiet, State.pumpReshard_quiet]

@[simp] theorem State.setCavePort_quiet (s : State) (k : CaveId) (p : CavePortSt) : (State.setCavePort s k p).quiet = s.quiet := by
  unfold State.setCavePort
  rfl

@[simp] theorem State.failCavePort_quiet (s : State) (k : CaveId) : (State.failCavePort s k).quiet = s.quiet := by
  unfold State.failCavePort
  simp only [quiet_upd, State.setCavePort_quiet, State.caveLost_quiet]

@[simp] theorem State.loseCave_quiet (s : State) : (State.loseCave s).quiet = s.quiet := by
  unfold State.loseCave
  rfl

@[simp] theorem State.fixCave_quiet (s : State) : (State.fixCave s).quiet = s.quiet := by
  unfold State.fixCave
  simp only [quiet_upd, apply_ite State.quiet, ite_self, State.loseCave_quiet]

@[simp] theorem State.startCave_quiet (s : State) : (State.startCave s).quiet = s.quiet := by
  unfold State.startCave
  simp only [quiet_upd, State.fixCave_quiet]

@[simp] theorem State.ackCkpt_quiet (s : State) (p : Packet) (code : Nat) : (State.ackCkpt s p code).quiet = s.quiet := by
  unfold State.ackCkpt
  simp only [quiet_upd, State.inject_quiet]

theorem State.issueXfer_quiet {s : State} {c : CoreId} {g : Guard} {rs : SReg} {post : Option SemId} {k : Nat} {t : State} (h : State.issueXfer s c g rs post k = .next t) : t.quiet = s.quiet := by
  unfold State.issueXfer at h
  dsimp only at h
  repeat' split at h
  all_goals first
    | contradiction
    | (simp only [reduceCtorEq, Host.Outcome.next.injEq, Option.some.injEq, Except.ok.injEq, reduceCtorEq] at h; subst h; (try have q0 := State.issueD_quiet ‹_›); (try have q1 := unchanged_quiet ‹_›); first | rfl | simp only [quiet_upd])
    | ((try have q0 := State.issueD_quiet ‹_›); (try have q1 := unchanged_quiet ‹_›); first | assumption | (simp only [quiet_upd] at *; done) | simp_all only [quiet_upd])

/-- What an event on a core's operation answers. -/
theorem State.onOp_next {s : State} {c : CoreId} {op : Nat} {f : Op → Res} {t : State} (h : s.onOp c op f = .next t) :
    t = s ∨ ∃ o, s.cores[c].opAt op = some o ∧ f o = .next t := by
  unfold State.onOp at h
  split at h
  · injection h with h; exact .inl h.symm
  · exact .inr ⟨_, ‹_›, h⟩

theorem State.issueCollOp_quiet {s : State} {src : CollSrc} {k : Nat} {t : State}
    (h : s.issueCollOp src k = .next t) : t.quiet = s.quiet := by
  unfold State.issueCollOp at h
  cases src with
  | core c g rs post =>
    dsimp only at h
    split at h
    · exact unchanged_quiet h
    · exact State.issueD_quiet h
  | qp n desc =>
    rcases onlyIf_next h with rfl | ⟨-, h⟩
    · rfl
    · injection h with h; subst h; exact State.issueColl_quiet ..

@[simp] theorem State.answerShard_quiet (s : State) (p : Packet) : (State.answerShard s p).2.quiet = s.quiet := by
  unfold State.answerShard
  repeat' split
  all_goals ((try have p0 := congrArg (fun x => x.2.quiet) ‹State.serveShard _ _ _ _ _ _ _ _ _ _ _ = _›); (try simp only [State.serveShard_quiet] at p0); simp only [↓quiet_upd, ↓quiet_upd_sec, ↓quiet_upd_fuses, apply_ite State.quiet, ite_self, foldl_quiet, foldl_quiet_snd, foldl_quiet_fst, implies_true, forall_const, List.foldl_cons, List.foldl_nil, State.serveShard_quiet, *])

@[simp] theorem State.afterColl_quiet (s : State) (c : Coll) : (State.afterColl s c).quiet = s.quiet := by
  unfold State.afterColl
  repeat' split
  all_goals (simp only [quiet_upd, State.pumpReshard_quiet, State.abandonReshard_quiet])

/-- A change of power state told to the management path changes what the change itself does. -/
theorem State.withPower_quiet (s : State) (f : State → State) : (s.withPower f).quiet = (f s).quiet := State.tellPower_quiet ..

@[simp] theorem State.setSensor_quiet (s : State) (sensor v : Nat) : (State.setSensor s sensor v).quiet = s.quiet := by
  unfold State.setSensor
  rfl

@[simp] theorem State.sagProtect_quiet (s : State) (mv dur : Nat) : (State.sagProtect s mv dur).quiet = s.quiet := by
  unfold State.sagProtect
  simp only [quiet_upd, State.event_quiet, State.startProtect_quiet, State.protectAdvance_quiet]

@[simp] theorem State.trainModules_quiet (s : State) (want : Nat → Bool) : (State.trainModules s want).quiet = s.quiet := by
  unfold State.trainModules
  rfl

@[simp] theorem State.trainVatLinks_quiet (s : State) : (State.trainVatLinks s).quiet = s.quiet := by
  unfold State.trainVatLinks
  simp only [quiet_upd, State.trainModules_quiet]

@[simp] theorem State.trainPorts_quiet (s : State) : (State.trainPorts s).quiet = s.quiet := by
  unfold State.trainPorts
  simp only [quiet_upd, quiet_upd_sec, quiet_upd_fuses, apply_ite State.quiet, ite_self, foldl_quiet, foldl_quiet_snd, foldl_quiet_fst, implies_true, forall_const, List.foldl_cons, List.foldl_nil, State.portState_quiet]

@[simp] theorem State.vcoreStart_quiet (s : State) : (State.vcoreStart s).quiet = s.quiet := by
  unfold State.vcoreStart
  simp only [quiet_upd, State.trainVatLinks_quiet, State.trainPorts_quiet, State.startCave_quiet, State.setStage_quiet]

@[simp] theorem State.leaveP3_quiet (s : State) : (State.leaveP3 s).quiet = s.quiet := by
  unfold State.leaveP3
  simp only [↓quiet_upd, ↓quiet_upd_sec, ↓quiet_upd_fuses, apply_ite State.quiet, ite_self, foldl_quiet, foldl_quiet_snd, foldl_quiet_fst, implies_true, forall_const, List.foldl_cons, List.foldl_nil, State.freeUnits_quiet, State.trainVatLinks_quiet, State.trainPorts_quiet, State.remap_quiet, State.setReady_quiet, State.tellPower_quiet, State.pumpQueues_quiet]

@[simp] theorem State.standbyReq_quiet (s : State) : (State.standbyReq s).quiet = s.quiet := by
  unfold State.standbyReq
  simp only [quiet_upd, apply_ite State.quiet, ite_self, State.enterP3_quiet]

@[simp] theorem State.resumeReq_quiet (s : State) : (State.resumeReq s).quiet = s.quiet := by
  unfold State.resumeReq
  rfl

@[simp] theorem State.powerReq_quiet (s : State) (x : Nat) : (State.powerReq s x).quiet = s.quiet := by
  unfold State.powerReq
  repeat' split
  all_goals (simp only [quiet_upd, State.standbyReq_quiet, State.resumeReq_quiet])

@[simp] theorem State.trainPort_quiet (s : State) (p : PortId) : (State.trainPort s p).quiet = s.quiet := by
  unfold State.trainPort
  simp only [quiet_upd, State.portState_quiet]

@[simp] theorem State.linkWord_quiet (s : State) (i : PortId) (f : Frame) : (State.linkWord s i f).quiet = s.quiet := by
  unfold State.linkWord
  simp only [quiet_upd, apply_ite State.quiet, ite_self, State.trainPort_quiet]

@[simp] theorem State.nakFrame_quiet (s : State) (i : PortId) (x : Port) : (State.nakFrame s i x).quiet = s.quiet := by
  unfold State.nakFrame
  rfl

@[simp] theorem State.receiveFrame_quiet (s : State) (i : PortId) (f : Frame) : (State.receiveFrame s i f).quiet = s.quiet := by
  unfold State.receiveFrame
  simp only [↓quiet_upd, ↓quiet_upd_sec, ↓quiet_upd_fuses, apply_ite State.quiet, ite_self, foldl_quiet, foldl_quiet_snd, foldl_quiet_fst, implies_true, forall_const, List.foldl_cons, List.foldl_nil, State.nakFrame_quiet, State.linkWord_quiet]

@[simp] theorem State.takeInq_quiet (s : State) (k : Nat) : (State.takeInq s k).quiet = s.quiet := by
  unfold State.takeInq
  repeat' split
  all_goals (simp only [quiet_upd])

@[simp] theorem State.forward_quiet (s : State) (i : Nat) (p : Packet) : (State.forward s i p).quiet = s.quiet := by
  unfold State.forward
  repeat' split
  all_goals (simp only [quiet_upd, apply_ite State.quiet, ite_self, State.badPacket_quiet, State.route_quiet, State.event_quiet, State.routeMc_quiet])

@[simp] theorem State.sendPromOn_quiet (s : State) (i : Nat) (root : W64) (m : PromMsg) : (State.sendPromOn s i root m).quiet = s.quiet := by
  unfold State.sendPromOn
  rfl

@[simp] theorem State.takeAcc_quiet (s : State) (site : AccId) (k : Nat) : (State.takeAcc s site k).2.quiet = s.quiet := by
  unfold State.takeAcc
  repeat' split
  all_goals (simp only [quiet_upd])

@[simp] theorem State.answerPartner_quiet (s : State) (site : AccId) (p : Packet) (st : Nat) (m : Msg) (bs : List Byte) : (State.answerPartner s site p st m bs).quiet = s.quiet := by
  unfold State.answerPartner
  simp only [quiet_upd, apply_ite State.quiet, ite_self]

@[simp] theorem State.wrAnswer_quiet (s : State) (site : Option AccId) (p : Packet) (st n : Nat) : (State.wrAnswer s site p st n).quiet = s.quiet := by
  unfold State.wrAnswer
  repeat' split
  all_goals (simp only [quiet_upd, State.route_quiet, State.answerPartner_quiet])

@[simp] theorem State.setDl_quiet (s : State) (i : Nat) (m : DlMod) : (State.setDl s i m).quiet = s.quiet := by
  unfold State.setDl
  rfl

@[simp] theorem State.putDl_quiet (s : State) (i : Nat) (m : DlMod) : (State.putDl s i m).quiet = s.quiet := by
  unfold State.putDl
  rfl

@[simp] theorem State.dropSite_quiet (s : State) (site : AccId) (code : Nat) : (State.dropSite s site code).quiet = s.quiet := by
  unfold State.dropSite
  rfl

@[simp] theorem State.loseLink_quiet (s : State) (l : Nat) : (State.loseLink s l).quiet = s.quiet := by
  unfold State.loseLink
  simp only [↓quiet_upd, ↓quiet_upd_sec, ↓quiet_upd_fuses, apply_ite State.quiet, ite_self, foldl_quiet, foldl_quiet_snd, foldl_quiet_fst, implies_true, forall_const, List.foldl_cons, List.foldl_nil, State.dropSite_quiet, State.failStep_quiet, State.setJob_quiet, State.setReady_quiet, State.fenceDie_quiet]

@[simp] theorem State.failModule_quiet (s : State) (i last : Nat) : (State.failModule s i last).quiet = s.quiet := by
  unfold State.failModule
  simp only [quiet_upd, apply_ite State.quiet, ite_self, State.event_quiet, State.loseLink_quiet]

@[simp] theorem State.moduleUp_quiet (s : State) (i : Nat) (m : DlMod) : (State.moduleUp s i m).quiet = s.quiet := by
  unfold State.moduleUp
  rfl

@[simp] theorem State.trainedModule_quiet (s : State) (i : Nat) (r : UcieTrain) : (State.trainedModule s i r).quiet = s.quiet := by
  unfold State.trainedModule
  simp only [↓quiet_upd, ↓quiet_upd_sec, ↓quiet_upd_fuses, apply_ite State.quiet, ite_self, foldl_quiet, foldl_quiet_snd, foldl_quiet_fst, implies_true, forall_const, List.foldl_cons, List.foldl_nil, State.setDl_quiet, State.failModule_quiet, State.event_quiet, State.moduleUp_quiet]

@[simp] theorem State.deliverReq_quiet (s : State) (l : Nat) (p : Packet) : (State.deliverReq s l p).quiet = s.quiet := by
  unfold State.deliverReq
  simp only [↓quiet_upd, ↓quiet_upd_sec, ↓quiet_upd_fuses, apply_ite State.quiet, ite_self, foldl_quiet, foldl_quiet_snd, foldl_quiet_fst, implies_true, forall_const, List.foldl_cons, List.foldl_nil, State.accessRecord_quiet, State.answerPartner_quiet]
  repeat' split
  all_goals (simp only [↓quiet_upd, ↓quiet_upd_sec, ↓quiet_upd_fuses, apply_ite State.quiet, ite_self, foldl_quiet, foldl_quiet_snd, foldl_quiet_fst, implies_true, forall_const, List.foldl_cons, List.foldl_nil, State.accessRecord_quiet, State.answerPartner_quiet, *])

@[simp] theorem State.deliverAnswer_quiet (s : State) (l : Nat) (p : Packet) : (State.deliverAnswer s l p).quiet = s.quiet := by
  unfold State.deliverAnswer
  repeat' split
  all_goals (simp only [↓quiet_upd, ↓quiet_upd_sec, ↓quiet_upd_fuses, apply_ite State.quiet, ite_self, foldl_quiet, foldl_quiet_snd, foldl_quiet_fst, implies_true, forall_const, List.foldl_cons, List.foldl_nil, *])

@[simp] theorem State.deliverUnit_quiet (s : State) (i : Nat) (u : Nat × List Byte) : (State.deliverUnit s i u).quiet = s.quiet := by
  unfold State.deliverUnit
  simp only [↓quiet_upd, ↓quiet_upd_sec, ↓quiet_upd_fuses, apply_ite State.quiet, ite_self, foldl_quiet, foldl_quiet_snd, foldl_quiet_fst, implies_true, forall_const, List.foldl_cons, List.foldl_nil, State.deliverReq_quiet]
  repeat' split
  all_goals (simp only [↓quiet_upd, ↓quiet_upd_sec, ↓quiet_upd_fuses, apply_ite State.quiet, ite_self, foldl_quiet, foldl_quiet_snd, foldl_quiet_fst, implies_true, forall_const, List.foldl_cons, List.foldl_nil, State.deliverReq_quiet, *])

@[simp] theorem State.deliverCmd_quiet (s : State) (i : Nat) (p : Packet) : (State.deliverCmd s i p).quiet = s.quiet := by
  unfold State.deliverCmd
  repeat' split
  all_goals (simp only [↓quiet_upd, ↓quiet_upd_sec, ↓quiet_upd_fuses, apply_ite State.quiet, ite_self, foldl_quiet, foldl_quiet_snd, foldl_quiet_fst, implies_true, forall_const, List.foldl_cons, List.foldl_nil, State.deliverReq_quiet, State.deliverAnswer_quiet, *])

@[simp] theorem State.deliverFlit_quiet (s : State) (i : Nat) (b : FlitBody) : (State.deliverFlit s i b).quiet = s.quiet := by
  unfold State.deliverFlit
  simp only [↓quiet_upd, ↓quiet_upd_sec, ↓quiet_upd_fuses, apply_ite State.quiet, ite_self, foldl_quiet, foldl_quiet_snd, foldl_quiet_fst, implies_true, forall_const, List.foldl_cons, List.foldl_nil, State.deliverUnit_quiet, State.deliverCmd_quiet]

@[simp] theorem State.receiveFlit_quiet (s : State) (i : Nat) (f : Flit) : (State.receiveFlit s i f).quiet = s.quiet := by
  unfold State.receiveFlit
  simp only [↓quiet_upd, ↓quiet_upd_sec, ↓quiet_upd_fuses, apply_ite State.quiet, ite_self, foldl_quiet, foldl_quiet_snd, foldl_quiet_fst, implies_true, forall_const, List.foldl_cons, List.foldl_nil, State.putDl_quiet, State.setDl_quiet, State.deliverFlit_quiet]

theorem State.startLoop_quiet {s : State} {i ms : Nat} {t : State} (h : State.startLoop s i ms = some t) : t.quiet = s.quiet := by
  unfold State.startLoop at h
  dsimp only at h
  repeat' split at h
  all_goals first
    | contradiction
    | (simp only [reduceCtorEq, Host.Outcome.next.injEq, Option.some.injEq, Except.ok.injEq, reduceCtorEq] at h; subst h; first | rfl | simp only [quiet_upd, State.setDl_quiet])

@[simp] theorem State.dlTestWrite_quiet (s : State) (x : W64) : (s.dlTestWrite x).quiet = s.quiet := by
  unfold State.dlTestWrite
  split
  · cases h : s.startLoop (bits x.toNat 8 0) (bits x.toNat 25 10) with
    | none => rfl
    | some t => exact State.startLoop_quiet h
  · rfl

@[simp] theorem State.fabMapLoad_quiet (s : State) (x : W64) : (State.fabMapLoad s x).quiet = s.quiet := by
  unfold State.fabMapLoad
  simp only [quiet_upd]
  repeat' split
  all_goals (simp only [quiet_upd])

@[simp] theorem State.fabCommit_quiet (s : State) : (State.fabCommit s).quiet = s.quiet := by
  unfold State.fabCommit
  rfl

@[simp] theorem State.sendMapsw_quiet (s : State) (dst mseq map : Nat) (release : Bool) : (State.sendMapsw s dst mseq map release).quiet = s.quiet := by
  unfold State.sendMapsw
  simp only [quiet_upd, State.route_quiet]

@[simp] theorem State.resumeInjection_quiet (s : State) : (State.resumeInjection s).quiet = s.quiet := by
  unfold State.resumeInjection
  simp only [quiet_upd, quiet_upd_sec, quiet_upd_fuses, apply_ite State.quiet, ite_self, foldl_quiet, foldl_quiet_snd, foldl_quiet_fst, implies_true, forall_const, List.foldl_cons, List.foldl_nil, State.inject_quiet]

@[simp] theorem State.release_quiet (s : State) (map mseq : Nat) : (State.release s map mseq).quiet = s.quiet := by
  unfold State.release
  simp only [quiet_upd, quiet_upd_sec, quiet_upd_fuses, apply_ite State.quiet, ite_self, foldl_quiet, foldl_quiet_snd, foldl_quiet_fst, implies_true, forall_const, List.foldl_cons, List.foldl_nil, State.sendMapsw_quiet, State.resumeInjection_quiet]

@[simp] theorem State.tryVote_quiet (s : State) : (State.tryVote s).quiet = s.quiet := by
  unfold State.tryVote
  repeat' split
  all_goals (simp only [quiet_upd, State.release_quiet, State.sendMapsw_quiet])

@[simp] theorem State.takeMapsw_quiet (s : State) (p : Packet) : (State.takeMapsw s p).quiet = s.quiet := by
  unfold State.takeMapsw
  repeat' split
  all_goals (simp only [quiet_upd, State.release_quiet, State.tryVote_quiet])

@[simp] theorem State.replayMapsw_quiet (s : State) : (State.replayMapsw s).quiet = s.quiet := by
  unfold State.replayMapsw
  simp only [quiet_upd, quiet_upd_sec, quiet_upd_fuses, apply_ite State.quiet, ite_self, foldl_quiet, foldl_quiet_snd, foldl_quiet_fst, implies_true, forall_const, List.foldl_cons, List.foldl_nil, State.takeMapsw_quiet]

@[simp] theorem State.requestSwitch_quiet (s : State) (map : Nat) : (State.requestSwitch s map).quiet = s.quiet := by
  unfold State.requestSwitch
  simp only [quiet_upd, apply_ite State.quiet, ite_self, State.replayMapsw_quiet]

@[simp] theorem State.wantedSwitch_quiet (s : State) : (State.wantedSwitch s).quiet = s.quiet := by
  unfold State.wantedSwitch
  repeat' split
  all_goals (simp only [quiet_upd, State.requestSwitch_quiet])

@[simp] theorem State.sendProm_quiet (s : State) (d : Nat) (root : W64) (m : PromMsg) : (State.sendProm s d root m).quiet = s.quiet := by
  unfold State.sendProm
  simp only [quiet_upd, apply_ite State.quiet, ite_self]

@[simp] theorem State.updProm_quiet (s : State) (f : PromSt → PromSt) : (State.updProm s f).quiet = s.quiet := by
  unfold State.updProm
  rfl

@[simp] theorem State.endProm_quiet (s : State) (outcome : Nat) : (s.endProm outcome).quiet = s.quiet := by
  unfold State.endProm
  extract_lets ok _ _ f s1
  have h1 : s1.quiet = s.quiet := by
    show (State.wantedSwitch _).quiet = _
    rw [State.wantedSwitch_quiet, State.endOpOf_quiet, State.event_quiet]
    rfl
  split
  · rw [State.reloadJob_quiet, h1]
  · exact h1

@[simp] theorem State.setAddress_quiet (s : State) (pos dims : Vector Nat 3) (rings : Vector Bool 3) (wx wy wz : Nat) : (State.setAddress s pos dims rings wx wy wz).quiet = s.quiet := by
  unfold State.setAddress
  rfl

@[simp] theorem State.startLine_quiet (s : State) (a : Axis) : (State.startLine s a).quiet = s.quiet := by
  unfold State.startLine
  simp only [quiet_upd, quiet_upd_sec, quiet_upd_fuses, apply_ite State.quiet, ite_self, foldl_quiet, foldl_quiet_snd, foldl_quiet_fst, implies_true, forall_const, List.foldl_cons, List.foldl_nil, State.updProm_quiet, State.sendProm_quiet]

@[simp] theorem State.takeDone_quiet (s : State) (from' : Option Nat) (nx ny nz wx wy wz : Nat) : (State.takeDone s from' nx ny nz wx wy wz).quiet = s.quiet := by
  unfold State.takeDone
  simp only [quiet_upd, quiet_upd_sec, quiet_upd_fuses, apply_ite State.quiet, ite_self, foldl_quiet, foldl_quiet_snd, foldl_quiet_fst, implies_true, forall_const, List.foldl_cons, List.foldl_nil, State.setAddress_quiet, State.endProm_quiet, State.sendProm_quiet]

@[simp] theorem State.rootDecide_quiet (s : State) : (State.rootDecide s).quiet = s.quiet := by
  unfold State.rootDecide
  simp only [quiet_upd, State.endProm_quiet, State.takeDone_quiet]
  repeat' split
  all_goals (simp only [quiet_upd, State.endProm_quiet, State.takeDone_quiet])

@[simp] theorem State.passReport_quiet (s : State) (axis n : Nat) : (State.passReport s axis n).quiet = s.quiet := by
  unfold State.passReport
  simp only [quiet_upd, apply_ite State.quiet, ite_self, State.sendProm_quiet, State.updProm_quiet, State.rootDecide_quiet]

theorem State.finishLine_quiet {s : State} {a : Axis} {t : State} (h : State.finishLine s a = some t) : t.quiet = s.quiet := by
  unfold State.finishLine at h
  dsimp only at h
  repeat' split at h
  all_goals first
    | contradiction
    | (simp only [reduceCtorEq, Host.Outcome.next.injEq, Option.some.injEq, Except.ok.injEq, reduceCtorEq] at h; subst h; first | rfl | simp only [quiet_upd, State.updProm_quiet, State.sendProm_quiet])

@[simp] theorem State.lineZ_quiet (s : State) : (State.lineZ s).quiet = s.quiet := by
  unfold State.lineZ
  repeat' split
  all_goals ((try have q0 := State.finishLine_quiet ‹_›); simp only [quiet_upd, State.passReport_quiet, *])

@[simp] theorem State.lineY_quiet (s : State) : (State.lineY s).quiet = s.quiet := by
  unfold State.lineY
  repeat' split
  all_goals ((try have q0 := State.finishLine_quiet ‹_›); simp only [quiet_upd, State.passReport_quiet, State.startLine_quiet, State.lineZ_quiet, *])

@[simp] theorem State.lineX_quiet (s : State) : (State.lineX s).quiet = s.quiet := by
  unfold State.lineX
  repeat' split
  all_goals ((try have q0 := State.finishLine_quiet ‹_›); simp only [quiet_upd, State.startLine_quiet, State.lineY_quiet, State.rootDecide_quiet, *])

@[simp] theorem State.lineDone_quiet (s : State) (a : Axis) : (State.lineDone s a).quiet = s.quiet := by
  unfold State.lineDone
  repeat' split
  all_goals (simp only [quiet_upd, State.lineX_quiet, State.lineY_quiet, State.lineZ_quiet])

@[simp] theorem State.beginProm_quiet (s : State) (root : W64) : (State.beginProm s root).quiet = s.quiet := by
  unfold State.beginProm
  rfl

@[simp] theorem State.runPromenade_quiet (s : State) : (State.runPromenade s).quiet = s.quiet := by
  unfold State.runPromenade
  simp only [quiet_upd, State.beginProm_quiet, State.startLine_quiet, State.lineDone_quiet]

@[simp] theorem State.lineEnd_quiet (s : State) (a : Axis) (dir c : Nat) (ring : Bool) : (State.lineEnd s a dir c ring).quiet = s.quiet := by
  unfold State.lineEnd
  simp only [quiet_upd, apply_ite State.quiet, ite_self, State.updProm_quiet, State.lineDone_quiet, State.sendProm_quiet]

@[simp] theorem State.rootConflict_quiet (s : State) : (State.rootConflict s).quiet = s.quiet := by
  unfold State.rootConflict
  simp only [↓quiet_upd, ↓quiet_upd_sec, ↓quiet_upd_fuses, apply_ite State.quiet, ite_self, foldl_quiet, foldl_quiet_snd, foldl_quiet_fst, implies_true, forall_const, List.foldl_cons, List.foldl_nil, State.endProm_quiet]

@[simp] theorem State.takeConflict_quiet (s : State) (root : W64) : (State.takeConflict s root).quiet = s.quiet := by
  unfold State.takeConflict
  simp only [↓quiet_upd, ↓quiet_upd_sec, ↓quiet_upd_fuses, apply_ite State.quiet, ite_self, foldl_quiet, foldl_quiet_snd, foldl_quiet_fst, implies_true, forall_const, List.foldl_cons, List.foldl_nil, State.rootConflict_quiet, State.sendProm_quiet]

@[simp] theorem State.takeWalk_quiet (s : State) (i : Nat) (root : W64) (axis dir c : Nat) : (State.takeWalk s i root axis dir c).quiet = s.quiet := by
  unfold State.takeWalk
  simp only [↓quiet_upd, ↓quiet_upd_sec, ↓quiet_upd_fuses, apply_ite State.quiet, ite_self, foldl_quiet, foldl_quiet_snd, foldl_quiet_fst, implies_true, forall_const, List.foldl_cons, List.foldl_nil, State.sendPromOn_quiet, State.rootConflict_quiet, State.beginProm_quiet, State.lineEnd_quiet, State.updProm_quiet, State.sendProm_quiet]

@[simp] theorem State.takeSet_quiet (s : State) (i axis n base : Nat) (ring : Bool) (pos roots : Vector Nat 3) (rings : Nat) : (State.takeSet s i axis n base ring pos roots rings).quiet = s.quiet := by
  unfold State.takeSet
  simp only [quiet_upd, State.sendProm_quiet, State.endProm_quiet, State.updProm_quiet, State.startLine_quiet, State.lineY_quiet, State.lineZ_quiet]
  repeat' split
  all_goals (simp only [quiet_upd, State.sendProm_quiet, State.endProm_quiet, State.updProm_quiet, State.startLine_quiet, State.lineY_quiet, State.lineZ_quiet])

@[simp] theorem State.askOn_quiet (s : State) (i : Nat) : (State.askOn s i).quiet = s.quiet := by
  unfold State.askOn
  rfl

@[simp] theorem State.askAll_quiet (s : State) : (State.askAll s).quiet = s.quiet := by
  unfold State.askAll
  simp only [↓quiet_upd, ↓quiet_upd_sec, ↓quiet_upd_fuses, apply_ite State.quiet, ite_self, foldl_quiet, foldl_quiet_snd, foldl_quiet_fst, implies_true, forall_const, List.foldl_cons, List.foldl_nil, State.updProm_quiet, State.askOn_quiet]

@[simp] theorem State.answerAsk_quiet (s : State) (i : Nat) (root : W64) : (State.answerAsk s i root).quiet = s.quiet := by
  unfold State.answerAsk
  simp only [quiet_upd, apply_ite State.quiet, ite_self, State.sendPromOn_quiet, State.answer_quiet]

@[simp] theorem State.concludeJoin_quiet (s : State) : (State.concludeJoin s).quiet = s.quiet := by
  unfold State.concludeJoin
  repeat' split
  all_goals (simp only [quiet_upd, State.endProm_quiet, State.setAddress_quiet, State.updProm_quiet])

/-- What the handling of a delivered promenade record answers. -/
theorem State.onProm_next {s : State} {k : Nat} {want : PromMsg → Bool} {f : State → Nat → W64 → PromMsg → State} {t : State}
    (h : s.onProm k want f = .next t) :
    t = s ∨ t = (s.takeInq k).badPacket ∨ ∃ i r m, t = f (s.takeInq k) i r m := by
  rcases onlyIf_next h with rfl | ⟨-, h⟩
  · exact .inl rfl
  · split at h
    · split at h
      · split at h
        · injection h with h; exact .inl h.symm
        split at h
        · injection h with h; exact .inr (.inl h.symm)
        · injection h with h; exact .inr (.inr ⟨_, _, _, h.symm⟩)
      · injection h with h; exact .inl h.symm
    · injection h with h; exact .inl h.symm

@[simp] theorem State.startIndex_quiet (s : State) : (State.startIndex s).quiet = s.quiet := by
  unfold State.startIndex
  rfl

@[simp] theorem State.startRecord_quiet (s : State) : (State.startRecord s).quiet = s.quiet := by
  unfold State.startRecord
  simp only [quiet_upd, State.logRec_quiet]

@[simp] theorem State.imageRecords_quiet (s : State) (sel : Option Nat) (split other : Bool) : (State.imageRecords s sel split other).quiet = s.quiet := by
  unfold State.imageRecords
  repeat' split
  all_goals (simp only [quiet_upd, State.logRec_quiet])

@[simp] theorem State.startHbm_quiet (s : State) (bad : List (Fin 1024)) : (State.startHbm s bad).quiet = s.quiet := by
  unfold State.startHbm
  rfl

@[simp] theorem State.startLog_quiet (s : State) : (State.startLog s).quiet = s.quiet := by
  unfold State.startLog
  simp only [quiet_upd, quiet_upd_sec, quiet_upd_fuses, apply_ite State.quiet, ite_self, foldl_quiet, foldl_quiet_snd, foldl_quiet_fst, implies_true, forall_const, List.foldl_cons, List.foldl_nil, State.putRecord_quiet, State.logAlways_quiet]

@[simp] theorem State.freshCounts_quiet (s : State) : (State.freshCounts s).quiet = s.quiet := by
  unfold State.freshCounts
  rfl

@[simp] theorem State.resetDie_quiet (s : State) (v : VatId) : (State.resetDie s v).quiet = s.quiet := by
  unfold State.resetDie
  simp only [quiet_upd, State.trainModules_quiet]

@[simp] theorem State.endDieReset_quiet (s : State) (v : VatId) (ok : Bool) : (State.endDieReset s v ok).quiet = s.quiet := by
  unfold State.endDieReset
  simp only [quiet_upd]

@[simp] theorem State.hostRead_quiet (s : State) (l : Nat) : (State.hostRead s l).2.quiet = s.quiet := by
  unfold State.hostRead
  repeat' split
  all_goals (simp only [↓quiet_upd, ↓quiet_upd_sec, ↓quiet_upd_fuses, apply_ite State.quiet, ite_self, foldl_quiet, foldl_quiet_snd, foldl_quiet_fst, implies_true, forall_const, List.foldl_cons, List.foldl_nil, State.touchLines_quiet, State.drawn_quiet, State.accessRecord_quiet, *])

@[simp] theorem State.hostReadLines_quiet (s : State) (ls : List Nat) : (State.hostReadLines s ls).2.quiet = s.quiet := by
  unfold State.hostReadLines
  simp only [quiet_upd, quiet_upd_sec, quiet_upd_fuses, apply_ite State.quiet, ite_self, foldl_quiet, foldl_quiet_snd, foldl_quiet_fst, implies_true, forall_const, List.foldl_cons, List.foldl_nil, State.hostRead_quiet]

@[simp] theorem State.sqCfgWrite_quiet (s : State) (q : QId) (x : W64) : (State.sqCfgWrite s q x).quiet = s.quiet := by
  unfold State.sqCfgWrite
  simp only [quiet_upd, apply_ite State.quiet, ite_self, State.updQueue_quiet, State.enableQueue_quiet, State.disableQueue_quiet]

@[simp] theorem State.respond_quiet (s : State) (ch : Chan) (r : MbxResp) : (State.respond s ch r).quiet = s.quiet := by
  unfold State.respond
  repeat' split
  all_goals (simp only [quiet_upd, State.answer_quiet])

@[simp] theorem State.reply'_quiet (s : State) (ch : Chan) (m : MbxReq) (status : Nat) (bs : List Byte) : (State.reply' s ch m status bs).quiet = s.quiet := by
  unfold State.reply'
  simp only [quiet_upd, State.respond_quiet]

@[simp] theorem State.attachSession_quiet (s : State) (id : W64) : (State.attachSession s id).2.quiet = s.quiet := by
  unfold State.attachSession
  repeat' split
  all_goals (simp only [↓quiet_upd, ↓quiet_upd_sec, ↓quiet_upd_fuses, apply_ite State.quiet, ite_self, foldl_quiet, foldl_quiet_snd, foldl_quiet_fst, implies_true, forall_const, List.foldl_cons, List.foldl_nil, State.message_quiet, State.newSession_quiet, State.resumeSession_quiet, *])

theorem State.setTrace_quiet {s : State} {first count : Nat} {on : Bool} {t : State} (h : State.setTrace s first count on = some t) : t.quiet = s.quiet := by
  unfold State.setTrace at h
  repeat' split at h
  all_goals first
    | contradiction
    | (injection h with h; subst h; simp only [quiet_upd])
    | (have q := h; simp only [quiet_upd] at q ⊢; done)

theorem State.promoResetOf_quiet {s : State} {l : Nat} {t : State} (h : State.promoResetOf s l = some t) : t.quiet = s.quiet := by
  unfold State.promoResetOf at h
  repeat' split at h
  all_goals first
    | contradiction
    | (injection h with h; subst h; simp only [quiet_upd, apply_ite State.quiet, ite_self, State.resetPromo_quiet])
    | (have q := h; simp only [quiet_upd, apply_ite State.quiet, ite_self, State.resetPromo_quiet] at q ⊢; done)

@[simp] theorem State.logMarkOf_quiet (s : State) (stamp : W64) (text : Nat) : (State.logMarkOf s stamp text).2.quiet = s.quiet := by
  unfold State.logMarkOf
  simp only [quiet_upd, State.receiveStamp_quiet, State.logRec_quiet]

@[simp] theorem State.abortNow_quiet (s : State) : (State.abortNow s).quiet = s.quiet := by
  unfold State.abortNow
  simp only [quiet_upd, quiet_upd_sec, quiet_upd_fuses, apply_ite State.quiet, ite_self, foldl_quiet, foldl_quiet_snd, foldl_quiet_fst, implies_true, forall_const, List.foldl_cons, List.foldl_nil, State.endOpOf_quiet, State.endJob_quiet, State.serveBoundary_quiet]

@[simp] theorem State.startLoad_quiet (s : State) (o : AccOp) : (s.startLoad o).quiet = s.quiet := by
  unfold State.startLoad
  split
  · exact State.finishOp_quiet ..
  · rename_i c _
    have h2 := (State.loadJob_quiet (s.setJob 1) c).trans (State.setJob_quiet s 1)
    split <;> rename_i h <;> rw [h] at h2
    · rw [State.finishOp_quiet, State.setJob_quiet]; exact h2
    · rw [State.startOp_quiet]; exact h2

@[simp] theorem State.startResume_quiet (s : State) (o : AccOp) : (State.startResume s o).quiet = s.quiet := by
  unfold State.startResume
  rfl

@[simp] theorem State.startLinkTest_quiet (s : State) (o : AccOp) : (State.startLinkTest s o).quiet = s.quiet := by
  unfold State.startLinkTest
  repeat' split
  all_goals ((try have q0 := State.startLoop_quiet ‹_›); simp only [quiet_upd, State.startOp_quiet, State.finishOp_quiet, *])

@[simp] theorem State.beginOp_quiet (s : State) (o : AccOp) : (State.beginOp s o).quiet = s.quiet := by
  unfold State.beginOp
  repeat' split
  all_goals (simp only [↓quiet_upd, ↓quiet_upd_sec, ↓quiet_upd_fuses, apply_ite State.quiet, ite_self, foldl_quiet, foldl_quiet_snd, foldl_quiet_fst, implies_true, forall_const, List.foldl_cons, List.foldl_nil, State.message_quiet, State.startLoad_quiet, State.startResume_quiet, State.abortNow_quiet, State.startOp_quiet, State.runPromenade_quiet, State.startLinkTest_quiet, State.serveBoundary_quiet, *])

@[simp] theorem State.quickOp_quiet (s : State) (m : MbxReq) : (State.quickOp s m).2.2.quiet = s.quiet := by
  unfold State.quickOp
  repeat' split
  all_goals ((try have q0 := State.promoResetOf_quiet ‹_›); (try have q1 := State.setTrace_quiet ‹_›); (try have p0 := congrArg (fun x => x.2.quiet) ‹State.attachSession _ _ = _›); (try simp only [State.attachSession_quiet] at p0); (try have p1 := congrArg (fun x => x.2.quiet) ‹State.logMarkOf _ _ _ = _›); (try simp only [State.logMarkOf_quiet] at p1); simp only [quiet_upd, State.attachSession_quiet, State.logMarkOf_quiet, *])

@[simp] theorem State.mbServe_quiet (s : State) (ch : Chan) (m : MbxReq) (cfg : Option JobConfig) : (State.mbServe s ch m cfg).quiet = s.quiet := by
  unfold State.mbServe
  repeat' split
  all_goals ((try have p0 := congrArg (fun x => x.2.2.quiet) ‹State.quickOp _ _ = _›); (try simp only [State.quickOp_quiet] at p0); simp only [↓quiet_upd, ↓quiet_upd_sec, ↓quiet_upd_fuses, apply_ite State.quiet, ite_self, foldl_quiet, foldl_quiet_snd, foldl_quiet_fst, implies_true, forall_const, List.foldl_cons, List.foldl_nil, State.reply'_quiet, State.quickOp_quiet, State.beginOp_quiet, *])

@[simp] theorem State.serveHeld_quiet (s : State) (ch : Chan) (m : MbxReq) : (State.serveHeld s ch m).quiet = s.quiet := by
  unfold State.serveHeld
  simp only [quiet_upd, apply_ite State.quiet, ite_self, State.quickOp_quiet, State.reply'_quiet]

@[simp] theorem State.serve_quiet (s : State) (ch : Chan) (m : MbxReq) (cfg : Option JobConfig) : (State.serve s ch m cfg).quiet = s.quiet := by
  unfold State.serve
  simp only [↓quiet_upd, ↓quiet_upd_sec, ↓quiet_upd_fuses, apply_ite State.quiet, ite_self, foldl_quiet, foldl_quiet_snd, foldl_quiet_fst, implies_true, forall_const, List.foldl_cons, List.foldl_nil, State.respond_quiet, State.serveHeld_quiet, State.mbServe_quiet]
  repeat' split
  all_goals (simp only [↓quiet_upd, ↓quiet_upd_sec, ↓quiet_upd_fuses, apply_ite State.quiet, ite_self, foldl_quiet, foldl_quiet_snd, foldl_quiet_fst, implies_true, forall_const, List.foldl_cons, List.foldl_nil, State.respond_quiet, State.serveHeld_quiet, State.mbServe_quiet, *])

theorem State.mbRow_quiet {s : State} {op : Nat} {ch : Chan} {m : MbxReq} {cfg : Option JobConfig} {t : State}
    (h : s.mbRow op ch m cfg = .next t) : t.quiet = s.quiet := by
  rcases onlyIf_next h with rfl | ⟨-, h⟩
  · rfl
  · injection h with h; subst h; exact State.serve_quiet ..

@[simp] theorem State.serveAll_quiet (s : State) (rs : List (Chan × MbxReq × Option JobConfig)) : (State.serveAll s rs).quiet = s.quiet := by
  unfold State.serveAll
  simp only [↓quiet_upd, ↓quiet_upd_sec, ↓quiet_upd_fuses, apply_ite State.quiet, ite_self, foldl_quiet, foldl_quiet_snd, foldl_quiet_fst, implies_true, forall_const, List.foldl_cons, List.foldl_nil, State.serve_quiet]

@[simp] theorem State.mbxDoorbell_quiet (s : State) (x : W64) (cfg : Option JobConfig) : (State.mbxDoorbell s x cfg).quiet = s.quiet := by
  unfold State.mbxDoorbell
  simp only [↓quiet_upd, ↓quiet_upd_sec, ↓quiet_upd_fuses, apply_ite State.quiet, ite_self, foldl_quiet, foldl_quiet_snd, foldl_quiet_fst, implies_true, forall_const, List.foldl_cons, List.foldl_nil, State.request_quiet, State.event_quiet, State.serve_quiet]

@[simp] theorem State.runExport_quiet (s : State) (o : AccOp) : (State.runExport s o).2.quiet = s.quiet := by
  unfold State.runExport
  simp only [quiet_upd]
  repeat' split
  all_goals (simp only [quiet_upd])

@[simp] theorem State.importTable_quiet (s : State) (d : TDesc) (a : Nat) : (State.importTable s d a).quiet = s.quiet := by
  unfold State.importTable
  simp only [quiet_upd, quiet_upd_sec, quiet_upd_fuses, apply_ite State.quiet, ite_self, foldl_quiet, foldl_quiet_snd, foldl_quiet_fst, implies_true, forall_const, List.foldl_cons, List.foldl_nil, State.putThrough_quiet, State.markDirty_quiet]

@[simp] theorem State.importFrom_quiet (s : State) (a : Nat) (seen : List Nat) (n : Nat) : (s.importFrom a seen n).1.quiet = s.quiet := by
  induction n generalizing s a seen with
  | zero => rfl
  | succ n ih =>
    unfold State.importFrom
    dsimp only
    split
    · rfl
    · rw [ih, State.importTable_quiet]

@[simp] theorem State.runImport_quiet (s : State) (o : AccOp) : (State.runImport s o).2.quiet = s.quiet := by
  unfold State.runImport
  simp only [quiet_upd, State.importFrom_quiet, State.clearJournals_quiet]
  repeat' split
  all_goals (simp only [quiet_upd, State.importFrom_quiet, State.clearJournals_quiet])

@[simp] theorem State.pldm_quiet (s : State) (code : Nat) (bs : List Byte) : (State.pldm s code bs).quiet = s.quiet := by
  unfold State.pldm
  rfl

@[simp] theorem State.readSensor_quiet (s : State) (n : Nat) : (State.readSensor s n).quiet = s.quiet := by
  unfold State.readSensor
  repeat' split
  all_goals (simp only [quiet_upd, State.pldm_quiet, State.drawn_quiet, State.setSensor_quiet])

@[simp] theorem State.pollEvents_quiet (s : State) : (State.pollEvents s).quiet = s.quiet := by
  unfold State.pollEvents
  repeat' split
  all_goals (simp only [quiet_upd, State.pldm_quiet])

@[simp] theorem State.setPwrField_quiet (s : State) (hi lo v : Nat) : (State.setPwrField s hi lo v).quiet = s.quiet := by
  unfold State.setPwrField
  rfl

@[simp] theorem State.setEffecter_quiet (s : State) (id v : Nat) : (State.setEffecter s id v).quiet = s.quiet := by
  unfold State.setEffecter
  repeat' split
  all_goals (simp only [quiet_upd, apply_ite State.quiet, ite_self, State.setPwrField_quiet, State.pldm_quiet])

@[simp] theorem State.setStandby_quiet (s : State) (id v : Nat) : (State.setStandby s id v).quiet = s.quiet := by
  unfold State.setStandby
  simp only [quiet_upd, apply_ite State.quiet, ite_self, State.pldm_quiet, State.powerReq_quiet]

@[simp] theorem State.assignEid_quiet (s : State) (eid : Nat) : (State.assignEid s eid).quiet = s.quiet := by
  unfold State.assignEid
  simp only [quiet_upd, apply_ite State.quiet, ite_self, State.pldm_quiet]

@[simp] theorem State.updateEvent_quiet (s : State) (stage result version : Nat) : (State.updateEvent s stage result version).quiet = s.quiet := by
  unfold State.updateEvent
  simp only [quiet_upd, State.event_quiet]

@[simp] theorem State.beginUpdate_quiet (s : State) (len : Nat) : (State.beginUpdate s len).quiet = s.quiet := by
  unfold State.beginUpdate
  simp only [quiet_upd, quiet_upd_sec, quiet_upd_fuses, apply_ite State.quiet, ite_self, foldl_quiet, foldl_quiet_snd, foldl_quiet_fst, implies_true, forall_const, List.foldl_cons, List.foldl_nil, State.pldm_quiet, State.updateEvent_quiet]

@[simp] theorem State.programBlock_quiet (s : State) (bs : List Byte) : (State.programBlock s bs).quiet = s.quiet := by
  unfold State.programBlock
  repeat' split
  all_goals (simp only [quiet_upd, quiet_upd_sec, quiet_upd_fuses, apply_ite State.quiet, ite_self, foldl_quiet, foldl_quiet_snd, foldl_quiet_fst, implies_true, forall_const, List.foldl_cons, List.foldl_nil, State.pldm_quiet, State.drawn_quiet, State.updateEvent_quiet])

@[simp] theorem State.activateUpdate_quiet (s : State) : (State.activateUpdate s).quiet = s.quiet := by
  unfold State.activateUpdate
  repeat' split
  all_goals (simp only [quiet_upd, quiet_upd_sec, quiet_upd_fuses, apply_ite State.quiet, ite_self, foldl_quiet, foldl_quiet_snd, foldl_quiet_fst, implies_true, forall_const, List.foldl_cons, List.foldl_nil, State.pldm_quiet, State.updateEvent_quiet])

@[simp] theorem State.cancelFirmware_quiet (s : State) : (State.cancelFirmware s).quiet = s.quiet := by
  unfold State.cancelFirmware
  repeat' split
  all_goals (simp only [quiet_upd, quiet_upd_sec, quiet_upd_fuses, apply_ite State.quiet, ite_self, foldl_quiet, foldl_quiet_snd, foldl_quiet_fst, implies_true, forall_const, List.foldl_cons, List.foldl_nil, State.pldm_quiet, State.updateEvent_quiet])

@[simp] theorem State.serveMgmt_quiet (s : State) (m : MgmtMsg) : (s.serveMgmt m).quiet = s.quiet := by
  cases m <;> simp only [State.serveMgmt, State.assignEid_quiet, State.pollEvents_quiet, State.readSensor_quiet, State.setEffecter_quiet,
    State.setStandby_quiet, State.beginUpdate_quiet, State.programBlock_quiet, State.activateUpdate_quiet, State.cancelFirmware_quiet]

@[simp] theorem State.mgmtMsg_quiet (s : State) (m : MgmtMsg) : (s.mgmtMsg m).quiet = s.quiet := by
  unfold State.mgmtMsg
  split
  · rfl
  split
  · rfl
  · exact State.serveMgmt_quiet ..

theorem State.reserveIndex_quiet {s : State} {t : State} (h : State.reserveIndex s = some t) : t.quiet = s.quiet := by
  unfold State.reserveIndex at h
  dsimp only at h
  repeat' split at h
  all_goals first
    | contradiction
    | (simp only [reduceCtorEq, Host.Outcome.next.injEq, Option.some.injEq, Except.ok.injEq, reduceCtorEq] at h; subst h; first | rfl | simp only [quiet_upd, quiet_upd_sec, quiet_upd_fuses, apply_ite State.quiet, ite_self, foldl_quiet, foldl_quiet_snd, foldl_quiet_fst, implies_true, forall_const, List.foldl_cons, List.foldl_nil, State.event_quiet])

@[simp] theorem State.signQuote_quiet (s : State) (nonce : BitVec 256) : (State.signQuote s nonce).quiet = s.quiet := by
  unfold State.signQuote
  rfl

@[simp] theorem State.takeQuote_quiet (s : State) (nonce : BitVec 256) : (State.takeQuote s nonce).quiet = s.quiet := by
  unfold State.takeQuote
  simp only [quiet_upd, State.secDenied_quiet, State.drawn_quiet, State.secAnswer_quiet, State.signQuote_quiet, State.event_quiet]
  repeat' split
  all_goals ((try have q0 := State.reserveIndex_quiet ‹_›); simp only [quiet_upd, State.secDenied_quiet, State.drawn_quiet, State.secAnswer_quiet, State.signQuote_quiet, State.event_quiet, *])

@[simp] theorem State.challengeNonce_quiet (s : State) : (State.challengeNonce s).quiet = s.quiet := by
  unfold State.challengeNonce
  rfl

@[simp] theorem State.lifecycleReq_quiet (s : State) (target : Nat) (token : List Byte) : (State.lifecycleReq s target token).quiet = s.quiet := by
  unfold State.lifecycleReq
  repeat' split
  all_goals (simp only [quiet_upd, quiet_upd_sec, quiet_upd_fuses, apply_ite State.quiet, ite_self, foldl_quiet, foldl_quiet_snd, foldl_quiet_fst, implies_true, forall_const, List.foldl_cons, List.foldl_nil, State.secAnswer_quiet, State.tokenFailed_quiet, State.useToken_quiet])

@[simp] theorem State.raiseFloor_quiet (s : State) (e : Nat) (token : List Byte) : (s.raiseFloor e token).quiet = s.quiet := by
  unfold State.raiseFloor
  dsimp only
  split
  · exact State.secAnswer_quiet ..
  split
  · exact State.secAnswer_quiet ..
  split
  · exact State.tokenFailed_quiet ..
  · rw [State.secAnswer_quiet, State.event_quiet, quiet_upd_fuses]; exact State.useToken_quiet ..

@[simp] theorem State.readLog_quiet (s : State) (pos count : Nat) : (State.readLog s pos count).quiet = s.quiet := by
  unfold State.readLog
  simp only [quiet_upd, apply_ite State.quiet, ite_self, State.secDenied_quiet, State.secAnswer_quiet]

@[simp] theorem State.swapMailbox_quiet (s : State) (c : CoreId) (out inn : Nat) : (State.swapMailbox s c out inn).quiet = s.quiet := by
  unfold State.swapMailbox
  simp only [quiet_upd, quiet_upd_sec, quiet_upd_fuses, apply_ite State.quiet, ite_self, foldl_quiet, foldl_quiet_snd, foldl_quiet_fst, implies_true, forall_const, List.foldl_cons, List.foldl_nil, State.updCore_quiet, State.postTo_quiet]

@[simp] theorem State.closeItem_quiet (s : State) (c : CoreId) (y : Core) : (State.closeItem s c y).quiet = s.quiet := by
  unfold State.closeItem
  simp only [quiet_upd, apply_ite State.quiet, ite_self, State.withCore_quiet, State.swapMailbox_quiet]

@[simp] theorem State.startEntry_quiet (s : State) (q : QId) (seq : W32) (code : Option Nat) (done : Nat) (dest : List (Nat × Nat)) : (State.startEntry s q seq code done dest).quiet = s.quiet := by
  unfold State.startEntry
  rfl

/-- What the start of a queue entry answers. -/
theorem State.startOf_next {s : State} {q : QId} {seq : W32} {opc : Nat} {f : State → Sqe → Res} {t : State}
    (h : s.startOf q seq opc f = .next t) :
    t = s ∨ t = s.startEntry q seq (some stBadDesc) 0 [] ∨ ∃ e, s.nextEntry q seq = some e ∧ e.ok = true ∧ f s e = .next t := by
  unfold State.startOf at h
  repeat' split at h
  · injection h with h; exact .inl h.symm
  · injection h with h; exact .inl h.symm
  · injection h with h; exact .inr (.inl h.symm)
  · rename_i e he _ hk
    refine .inr (.inr ⟨e, he, ?_, h⟩)
    cases hok : e.ok <;> simp [hok] at hk ⊢

theorem State.queueWrite_quiet {s : State} {q : QId} {seq : W32} {a : Nat} {bs : List Byte} {t : State} (h : State.queueWrite s q seq a bs = .next t) : t.quiet = s.quiet := by
  unfold State.queueWrite at h
  simp only [reduceCtorEq, Host.Outcome.next.injEq, Option.some.injEq, Except.ok.injEq, reduceCtorEq] at h
  subst h
  simp only [↓quiet_upd, ↓quiet_upd_sec, ↓quiet_upd_fuses, apply_ite State.quiet, ite_self, foldl_quiet, foldl_quiet_snd, foldl_quiet_fst, implies_true, forall_const, List.foldl_cons, List.foldl_nil, State.writeAs_quiet, State.accessRecord_quiet, State.startEntry_quiet]

@[simp] theorem State.visActions_quiet (s : State) (vis : Nat) (rs : List (Nat × Nat)) : (s.visActions vis rs).quiet = s.quiet := by
  unfold State.visActions
  extract_lets s1
  have h1 : s1.quiet = s.quiet := by
    show (if _ then _ else _ : State).quiet = _
    split
    · refine foldl_quiet (fun s r => ?_) _ _; rfl
    · rfl
  rw [← h1]
  split
  · refine foldl_quiet (fun s r => ?_) _ _; rfl
  · rfl

@[simp] theorem State.writeHif_quiet (s : State) (o : Nat) (x : W64) : (State.writeHif s o x).quiet = s.quiet := by
  unfold State.writeHif
  repeat' split
  all_goals (simp only [quiet_upd])

@[simp] theorem State.writeQueue_quiet (s : State) (q : QId) (o : Nat) (x : W64) : (State.writeQueue s q o x).quiet = s.quiet := by
  unfold State.writeQueue
  repeat' split
  all_goals (simp only [quiet_upd, apply_ite State.quiet, ite_self, State.sqCfgWrite_quiet, State.updQueue_quiet, State.cqHeadWrite_quiet, State.resumeQueue_quiet, State.resetQueue_quiet])

@[simp] theorem State.writeMem_quiet (s : State) (o : Nat) (x : W64) : (State.writeMem s o x).quiet = s.quiet := by
  unfold State.writeMem
  repeat' split
  all_goals (simp only [quiet_upd])

@[simp] theorem State.writeFab_quiet (s : State) (o : Nat) (x : W64) : (State.writeFab s o x).quiet = s.quiet := by
  unfold State.writeFab
  repeat' split
  all_goals (simp only [quiet_upd, State.fabCommit_quiet, State.fabMapLoad_quiet])

@[simp] theorem State.writeDl_quiet (s : State) (o : Nat) (x : W64) : (State.writeDl s o x).quiet = s.quiet := by
  unfold State.writeDl
  repeat' split
  all_goals (simp only [quiet_upd, State.dlTestWrite_quiet])

@[simp] theorem State.writeMbx_quiet (s : State) (o : Nat) (x : W64) : (State.writeMbx s o x).quiet = s.quiet := by
  unfold State.writeMbx
  simp only [quiet_upd, apply_ite State.quiet, ite_self, State.updProc_quiet]

@[simp] theorem State.writePort_quiet (s : State) (p : PortId) (o : Nat) (x : W64) : (State.writePort s p o x).quiet = s.quiet := by
  unfold State.writePort
  simp only [quiet_upd, apply_ite State.quiet, ite_self, State.trainPort_quiet]

@[simp] theorem State.writeCellar_quiet (s : State) (n : CelId) (o : Nat) (x : W64) (locked : Bool) : (State.writeCellar s n o x locked).quiet = s.quiet := by
  unfold State.writeCellar
  simp only [quiet_upd, apply_ite State.quiet, ite_self, State.writePort_quiet]

@[simp] theorem State.writeDev_quiet (s : State) (path : RegPath) (o : Nat) (x : W64) : (State.writeDev s path o x).quiet = s.quiet := by
  unfold State.writeDev
  simp only [quiet_upd, apply_ite State.quiet, ite_self, State.writeHif_quiet, State.writeQueue_quiet, State.writeMem_quiet, State.writeFab_quiet, State.writeDl_quiet, State.writeMbx_quiet, State.writeCellar_quiet]

@[simp] theorem State.writePriv_quiet (s : State) (o : Nat) (x : W64) : (State.writePriv s o x).quiet = s.quiet := by
  unfold State.writePriv
  repeat' split
  all_goals (simp only [quiet_upd, quiet_upd_sec, quiet_upd_fuses, apply_ite State.quiet, ite_self, foldl_quiet, foldl_quiet_snd, foldl_quiet_fst, implies_true, forall_const, List.foldl_cons, List.foldl_nil, State.powerReq_quiet])

@[simp] theorem State.regWrite_quiet (s : State) (path : RegPath) (sp : RegSpace) (off size : Nat) (x : W64) : (State.regWrite s path sp off size x).quiet = s.quiet := by
  unfold State.regWrite
  repeat' split
  all_goals (simp only [↓quiet_upd, ↓quiet_upd_sec, ↓quiet_upd_fuses, apply_ite State.quiet, ite_self, foldl_quiet, foldl_quiet_snd, foldl_quiet_fst, implies_true, forall_const, List.foldl_cons, List.foldl_nil, State.event_quiet, State.mbxDoorbell_quiet, State.writeMbx_quiet, State.writePriv_quiet, State.writeDev_quiet, *])

@[simp] theorem State.regRead_quiet (s : State) (path : RegPath) (sp : RegSpace) (off size : Nat) : (State.regRead s path sp off size).2.quiet = s.quiet := by
  unfold State.regRead
  repeat' split
  all_goals (simp only [↓quiet_upd, ↓quiet_upd_sec, ↓quiet_upd_fuses, apply_ite State.quiet, ite_self, foldl_quiet, foldl_quiet_snd, foldl_quiet_fst, implies_true, forall_const, List.foldl_cons, List.foldl_nil, State.event_quiet, State.updCore_quiet, State.drawn_quiet, *])

@[simp] theorem State.tapSelect_quiet (s : State) (ir : Nat) : (State.tapSelect s ir).quiet = s.quiet := by
  unfold State.tapSelect
  rfl

@[simp] theorem State.tapOut_quiet (s : State) (bs : List Byte) : (State.tapOut s bs).quiet = s.quiet := by
  unfold State.tapOut
  rfl

/-- What a TAP instruction answers: nothing in P5, its own work, or BYPASS with the refusal counted (R497, R500). -/
theorem State.tapTake_next {s : State} {ir : Nat} {b : Bool} {f : State → Res} {t : State} (h : s.tapTake ir b f = .next t) :
    t = s ∨ f (s.tapSelect ir) = .next t ∨ t = { s.tapSelect 0 with sec := { s.sec with tapDeny := s.sec.tapDeny + 1 } } := by
  unfold State.tapTake at h
  repeat' split at h
  · injection h with h; exact .inl h.symm
  · exact .inr (.inl h)
  · injection h with h; exact .inr (.inr h.symm)

@[simp] theorem State.tapRecord_quiet (s : State) (a n : Nat) : (State.tapRecord s a n).quiet = s.quiet := by
  unfold State.tapRecord
  repeat' split
  all_goals (simp only [quiet_upd, State.accessRecord_quiet])

@[simp] theorem State.tapRead_quiet (s : State) (a n : Nat) : (State.tapRead s a n).2.quiet = s.quiet := by
  unfold State.tapRead
  simp only [↓quiet_upd, ↓quiet_upd_sec, ↓quiet_upd_fuses, apply_ite State.quiet, ite_self, foldl_quiet, foldl_quiet_snd, foldl_quiet_fst, implies_true, forall_const, List.foldl_cons, List.foldl_nil, State.regRead_quiet, State.touchLines_quiet, State.tapRecord_quiet]

@[simp] theorem State.tapWriteLine_quiet (s : State) (a : Nat) (bs : List Byte) : (State.tapWriteLine s a bs).quiet = s.quiet := by
  unfold State.tapWriteLine
  repeat' split
  all_goals (simp only [↓quiet_upd, ↓quiet_upd_sec, ↓quiet_upd_fuses, apply_ite State.quiet, ite_self, foldl_quiet, foldl_quiet_snd, foldl_quiet_fst, implies_true, forall_const, List.foldl_cons, List.foldl_nil, State.writeOpen_quiet, *])

@[simp] theorem State.tapWriteLines_quiet (s : State) (a : Nat) (bs : List Byte) (ls : List Nat) : (State.tapWriteLines s a bs ls).quiet = s.quiet := by
  unfold State.tapWriteLines
  simp only [↓quiet_upd, ↓quiet_upd_sec, ↓quiet_upd_fuses, apply_ite State.quiet, ite_self, foldl_quiet, foldl_quiet_snd, foldl_quiet_fst, implies_true, forall_const, List.foldl_cons, List.foldl_nil, State.tapWriteLine_quiet]

@[simp] theorem State.tapWriteRegs_quiet (s : State) (a : Nat) (bs : List Byte) (rs : List (Nat × Nat)) : (State.tapWriteRegs s a bs rs).quiet = s.quiet := by
  unfold State.tapWriteRegs
  simp only [↓quiet_upd, ↓quiet_upd_sec, ↓quiet_upd_fuses, apply_ite State.quiet, ite_self, foldl_quiet, foldl_quiet_snd, foldl_quiet_fst, implies_true, forall_const, List.foldl_cons, List.foldl_nil, State.regWrite_quiet]

@[simp] theorem State.tapWrite_quiet (s : State) (a : Nat) (bs : List Byte) : (State.tapWrite s a bs).quiet = s.quiet := by
  unfold State.tapWrite
  simp only [↓quiet_upd, ↓quiet_upd_sec, ↓quiet_upd_fuses, apply_ite State.quiet, ite_self, foldl_quiet, foldl_quiet_snd, foldl_quiet_fst, implies_true, forall_const, List.foldl_cons, List.foldl_nil, State.tapWriteLines_quiet, State.tapRecord_quiet, State.tapWriteRegs_quiet]

@[simp] theorem State.haltTarget_quiet (s : State) (t : TapTarget) : (State.haltTarget s t).quiet = s.quiet := by
  unfold State.haltTarget
  repeat' split
  all_goals (simp only [quiet_upd, State.updProc_quiet, State.updCore_quiet])

theorem State.stepTarget_quiet {s : State} {x : TapTarget} {t : State} (h : s.stepTarget x = .next t) : t.quiet = s.quiet := by
  unfold State.stepTarget at h
  split at h
  · injection h with h; rw [h]
  · split at h
    · injection h with h; rw [h]
    · split at h
      · rename_i u hu
        injection h with h
        rw [← h, State.updCore_quiet, State.fetch_quiet hu, State.updCore_quiet]
      · rename_i hn
        exact absurd h (hn t)

@[simp] theorem State.releaseRecovered_quiet (s : State) : (State.releaseRecovered s).quiet = s.quiet := by
  unfold State.releaseRecovered
  simp only [↓quiet_upd, ↓quiet_upd_sec, ↓quiet_upd_fuses, apply_ite State.quiet, ite_self, foldl_quiet, foldl_quiet_snd, foldl_quiet_fst, implies_true, forall_const, List.foldl_cons, List.foldl_nil, State.clearBank_quiet]

@[simp] theorem State.chainFault_quiet (s : State) (c : CoreId) (pc : Nat) (x : Core) : (State.chainFault s c pc x).quiet = s.quiet := by
  unfold State.chainFault
  simp only [quiet_upd, apply_ite State.quiet, ite_self, State.setCore_quiet, State.coreFault_quiet]

end Sys2Proof.Machine
end

