-- ==== Sys2Proof/Laws/Keeps.lean ====
section
/-! SUPPORT. What the operations of the debug level and of the power states keep: the waiting commands, and that lifecycle FIELD never
reaches level FULL. With Laws/Frame.lean this covers every operation a command uses. -/

namespace Sys2Proof.Machine

/-- `t` has the waiting commands of `s`, and is secure when `s` is. -/
def Keeps (s t : State) : Prop := t.pending = s.pending ∧ (s.secOk → t.secOk)

theorem Keeps.refl (s : State) : Keeps s s := ⟨rfl, id⟩

theorem Keeps.trans {s t u : State} (h : Keeps s t) (k : Keeps t u) : Keeps s u := ⟨k.1.trans h.1, fun x => k.2 (h.2 x)⟩

/-- Equal views give equal waiting commands and the same security. -/
theorem Keeps.of_quiet {s t : State} (h : t.quiet = s.quiet) : Keeps s t := by
  simp only [State.quiet, Prod.mk.injEq] at h
  obtain ⟨h1, h2, h3, h4⟩ := h
  refine ⟨h1, fun hs => ?_⟩
  unfold State.secOk Fuses.lifecycle at hs ⊢
  rw [h2, h3, h4]
  exact hs

theorem Keeps.before {s t u : State} (h : t.quiet = s.quiet) (k : Keeps t u) : Keeps s u := (Keeps.of_quiet h).trans k

theorem Keeps.after {s t u : State} (k : Keeps s t) (h : u.quiet = t.quiet) : Keeps s u := k.trans (Keeps.of_quiet h)

theorem foldl_keeps {α : Type} {f : State → α → State} (h : ∀ s x, Keeps s (f s x)) (l : List α) (s : State) : Keeps s (l.foldl f s) := by
  induction l generalizing s with
  | nil => exact Keeps.refl s
  | cons a l ih => exact (h s a).trans (ih _)

/-- A level set anew. -/
theorem State.setLevel_views (s : State) (l : Nat) :
    (s.setLevel l).quiet = (s.pending, l, s.sec.raise, s.fuses.lc) := by
  unfold State.setLevel
  dsimp only
  split
  · rename_i h; simp only [State.quiet, h]
  · split
    · rw [State.mgmtEvent_quiet, State.event_quiet]; rfl
    · show (State.mgmtEvent ..).quiet = _
      rw [State.mgmtEvent_quiet, State.event_quiet]; rfl

theorem State.setLevel_keeps (s : State) (l : Nat) (hl : l ≤ 2) (hf : s.fuses.lifecycle = 2 → l ≠ 2) : Keeps s (s.setLevel l) := by
  have h := s.setLevel_views l
  simp only [State.quiet, Prod.mk.injEq] at h
  obtain ⟨h1, h2, h3, h4⟩ := h
  refine ⟨h1, fun hs => ?_⟩
  have h5 : (s.setLevel l).fuses.lifecycle = s.fuses.lifecycle := by unfold Fuses.lifecycle; rw [h4]
  unfold State.secOk at hs ⊢
  rw [h2, h3, h5]
  exact ⟨hl, fun h => ⟨hf h, (hs.2 h).2⟩⟩

theorem State.debugSet_keeps (s : State) (l : Nat) (token : List Byte) : Keeps s (s.debugSet l token).1 := by
  unfold State.debugSet
  dsimp only
  split
  · exact Keeps.of_quiet (State.secAnswer_quiet ..)
  split
  · exact Keeps.of_quiet (State.secAnswer_quiet ..)
  rename_i hl
  split
  · rename_i hc
    refine Keeps.after ?_ (State.secAnswer_quiet ..)
    refine ⟨?_, fun hs => ?_⟩
    · exact congrArg (·.1) (s.setLevel_views l)
    · refine (State.setLevel_keeps s l (by omega) fun hf => ?_).2 hs
      have := (hs.2 hf).1
      have := hs.1
      simp only [Bool.or_eq_true, decide_eq_true_eq] at hc
      omega
  split
  · exact Keeps.of_quiet (State.secDenied_quiet ..)
  rename_i h2
  split
  · exact Keeps.of_quiet (State.secAnswer_quiet ..)
  split
  · exact Keeps.of_quiet (State.tokenFailed_quiet ..)
  · refine Keeps.after ?_ (State.secAnswer_quiet ..)
    have hu : (if s.fuses.lifecycle = 0 then s else s.useToken).quiet = s.quiet := by
      split
      · rfl
      · exact State.useToken_quiet ..
    generalize (if s.fuses.lifecycle = 0 then s else s.useToken) = u at hu
    simp only [State.quiet, Prod.mk.injEq] at hu
    obtain ⟨h1, h3, h4, h5⟩ := hu
    refine ⟨h1, fun hs => ⟨?_, fun hf => absurd ?_ h2⟩⟩
    · show u.sec.level ≤ 2; rw [h3]; exact hs.1
    · unfold Fuses.lifecycle at hf ⊢; rw [← h5]; exact hf

theorem State.serveDebug_keeps (s : State) : Keeps s s.serveDebug.1 := by
  unfold State.serveDebug
  suffices h : ∀ (l : List (Nat × List Byte)) (x : State × Bool),
      Keeps x.1 (l.foldl (fun (x : State × Bool) h => let y := x.1.debugSet h.1 h.2; (y.1, x.2 || y.2)) x).1 from
    Keeps.before (t := { s with sec := { s.sec with held := [] } }) rfl (h _ _)
  intro l
  induction l with
  | nil => exact fun x => Keeps.refl _
  | cons a l ih => exact fun x => (State.debugSet_keeps x.1 a.1 a.2).trans (ih _)

theorem State.enterP4_keeps (s : State) (stage : Nat) : Keeps s (s.enterP4 stage) := by
  unfold State.enterP4
  extract_lets old s1 s2 d _ _ _ _ _ _ _ _ _ s3
  have h1 : s1.quiet = s.quiet := by
    show (State.detachSession ..).quiet = _
    rw [State.detachSession_quiet, State.endAllOps_quiet]
  have h2 : s2.quiet = s1.quiet := by
    show (if _ then _ else _ : State).quiet = _
    split
    · rfl
    · exact State.mgmtEvent_quiet ..
  have h3 : s3.quiet = s2.quiet := rfl
  refine Keeps.before ?_ (State.serveDebug_keeps _)
  rw [State.tellPower_quiet, State.setStage_quiet, State.setReady_quiet, State.dropTraffic_quiet, h3, h2, h1]

theorem State.abandonStart_keeps (s : State) (cause : Nat) : Keeps s (s.abandonStart cause) :=
  Keeps.before (t := { s with start := { s.start with nextCause := cause } }) rfl (State.enterP4_keeps _ _)

theorem State.trip_keeps (s : State) (sensor reading : Nat) : Keeps s (s.trip sensor reading) := by
  unfold State.trip
  refine Keeps.before ?_ (State.enterP4_keeps _ _)
  rw [quiet_upd, State.mgmtEvent_quiet, State.event_quiet]

theorem State.failStart_keeps (s : State) (code : Nat) : Keeps s (s.failStart code) := by
  unfold State.failStart
  refine Keeps.after (State.enterP4_keeps s 10) ?_
  rw [State.event_quiet, quiet_upd]

theorem State.protectEnd_keeps (s : State) (done : Bool) : Keeps s (s.protectEnd done) := by
  unfold State.protectEnd
  split
  · exact Keeps.refl s
  rename_i p _
  extract_lets s1 _ _ s2 s3 _ s4
  have h1 : s1.quiet = s.quiet := State.protectFlush_quiet ..
  have h2 : s2.quiet = s1.quiet := by
    show (match s1.ras.deltas.find? fun d => !d.ended with | some d => _ | none => _ : State).quiet = _
    split
    · split
      · exact State.endDelta_quiet ..
      · show (State.event ..).quiet = _
        exact State.event_quiet ..
    · split <;> rfl
  have h3 : s3.quiet = s2.quiet := by
    show (if _ then _ else _ : State).quiet = _
    split
    · exact State.failNow_quiet ..
    · rfl
  have h4 : s4.quiet = s3.quiet := by
    show (if _ then _ else _ : State).quiet = _
    split
    · exact State.mgmtEvent_quiet ..
    · rfl
  have h : s4.quiet = s.quiet := by rw [h4, h3, h2, h1]
  split
  · exact Keeps.before h (State.enterP4_keeps ..)
  · exact Keeps.of_quiet ((State.enterP3_quiet ..).trans h)

theorem State.becomeReady_keeps (s : State) (ms : Nat) : Keeps s (s.becomeReady ms) := by
  unfold State.becomeReady
  extract_lets cs n lo s1 _ s2 s3 d s4 lone _
  clear_value cs n lo
  have h3 : s3.quiet = s.quiet := by
    show (State.event ..).quiet = _
    rw [State.event_quiet, State.setReady_quiet, State.setStage_quiet]; rfl
  have hd : Keeps s d.1 := Keeps.before h3 (State.serveDebug_keeps _)
  split
  · exact hd.trans (State.enterP4_keeps _ _)
  · split
    · exact hd.after (State.reloadJob_quiet _)
    · exact hd.after rfl

/-- A state at the level the fuses give, with no raise waiting. -/
theorem secOk_at_start (t : State) (hl : t.sec.level = t.fuses.startLevel) (hr : t.sec.raise = false) : t.secOk := by
  unfold State.secOk
  rw [hl, hr]
  unfold Fuses.startLevel
  constructor
  · split <;> decide
  · intro h; rw [h]; decide

theorem State.levelAtStart_keeps (s : State) : Keeps s s.levelAtStart := by
  unfold State.levelAtStart
  extract_lets l _ s1
  have key : Keeps s s1 := by
    refine ⟨?_, fun hs => ?_⟩
    · exact congrArg (·.1) (State.setLevel_views _ l)
    · have hl : l ≤ 2 := by
        show (if s.sec.raise then 2 else s.fuses.startLevel) ≤ 2
        split
        · decide
        · unfold Fuses.startLevel; split <;> decide
      refine (State.setLevel_keeps { s with sec := { s.sec with raise := false, nonce := none, quoteWait := false } } l hl fun hf => ?_).2 ⟨hs.1, fun hf => ⟨(hs.2 hf).1, rfl⟩⟩
      show (if s.sec.raise then 2 else s.fuses.startLevel) ≠ 2
      have hf' : s.fuses.lifecycle = 2 := hf
      rw [(hs.2 hf').2]
      unfold Fuses.startLevel
      rw [hf']
      decide
  split
  · exact key.after (State.eraseFull_quiet _)
  · exact key

theorem State.startUp_keeps (s : State) (f : StartFacts) : Keeps s (s.startUp f) := by
  unfold State.startUp
  extract_lets old cause s1 _ s2 s3 _ _ s4 s5 _ s6 s7
  have h2 : s2.quiet = s.quiet := by
    show s1.quiet = _
    exact State.freshCounts_quiet ..
  have h3 : Keeps s s3 := Keeps.before ((State.startIndex_quiet _).trans h2) (State.levelAtStart_keeps _)
  split
  · exact h3.after (State.setStage_quiet ..)
  have h5 : s5.quiet = s3.quiet := by
    show (State.tellPower ..).quiet = _
    rw [State.tellPower_quiet, State.startHbm_quiet, State.trainModules_quiet]; rfl
  split
  · exact h3.after ((State.setStage_quiet ..).trans h5)
  split
  · exact h3.after ((State.setStage_quiet ..).trans h5)
  have h7 : s7.quiet = s3.quiet := by
    show (State.startRecord ..).quiet = _
    rw [State.startRecord_quiet, State.startLog_quiet]
    exact h5
  split
  · exact h3.after ((State.vcoreStart_quiet ..).trans h7)
  · exact h3.after ((State.setStage_quiet ..).trans h7)

theorem State.coldState_views (s : State) (z : Fuses) (root ref : Bool) :
    (s.coldState z root ref).quiet = (s.pending, z.startLevel, false, z.lc) := rfl

/-- The cold start keeps the waiting commands and leaves the level that the fuses give. -/
theorem State.coldPhase_keeps (s : State) (z : Fuses) (root ref : Bool) : (s.coldPhase z root ref).pending = s.pending ∧ (s.coldPhase z root ref).secOk := by
  have h : (s.coldPhase z root ref).quiet = (s.pending, z.startLevel, false, z.lc) := by
    unfold State.coldPhase
    extract_lets taken s1
    have h1 : s1.quiet = (s.pending, z.startLevel, false, z.lc) :=
      (State.coldState_views ..).trans (congrArg (fun q => (q.1, z.startLevel, false, z.lc)) (State.dropUpdate_quiet s))
    rw [← h1]
    clear_value s1
    split
    rename_i sel split other hs
    extract_lets _ _ _ _ s2 s3
    rw [State.setStage_quiet, State.startRecord_quiet, quiet_upd]
    have h2 : s2.quiet = s1.quiet := by
      show (State.startIndex _).quiet = _
      rw [State.startIndex_quiet, State.imageRecords_quiet]; rfl
    show (if _ then _ else _ : State).quiet = _
    split
    · exact (State.eraseFull_quiet _).trans h2
    · exact h2
  simp only [State.quiet, Prod.mk.injEq] at h
  obtain ⟨h1, h2, h3, h4⟩ := h
  refine ⟨h1, ?_⟩
  have hz : (s.coldPhase z root ref).fuses.startLevel = z.startLevel := by unfold Fuses.startLevel Fuses.lifecycle; rw [h4]
  exact secOk_at_start _ (h2.trans hz.symm) h3

/-- Entering P5 keeps the waiting commands and leaves the level that the fuses give. -/
theorem State.enterP5_keeps (s : State) : s.enterP5.pending = s.pending ∧ s.enterP5.secOk :=
  ⟨rfl, secOk_at_start _ rfl rfl⟩

theorem State.serveSec_keeps (s : State) (m : SecMsg) : Keeps s (s.serveSec m) := by
  cases m <;> dsimp only [State.serveSec]
  · exact Keeps.of_quiet (State.secAnswer_quiet ..)
  · exact Keeps.of_quiet (State.takeQuote_quiet ..)
  · exact Keeps.of_quiet (State.challengeNonce_quiet ..)
  · split
    · exact (State.debugSet_keeps ..).trans (State.enterP4_keeps ..)
    · exact State.debugSet_keeps ..
  · exact Keeps.of_quiet (State.lifecycleReq_quiet ..)
  · exact Keeps.of_quiet (State.raiseFloor_quiet ..)
  · exact Keeps.of_quiet (State.readLog_quiet ..)

theorem State.relay_keeps (s : State) (m : SecMsg) : Keeps s (s.relay m) :=
  Keeps.before (State.message_quiet ..) ((State.serveSec_keeps ..).after (State.message_quiet ..))

theorem State.toSp_keeps (s : State) (m : SecMsg) : Keeps s (s.toSp m) := by
  unfold State.toSp
  extract_lets full
  split
  · exact Keeps.of_quiet (State.secAnswer_quiet ..)
  split
  · split
    · exact Keeps.of_quiet (State.secAnswer_quiet ..)
    · exact Keeps.of_quiet rfl
  split
  · split
    · split
      · exact Keeps.of_quiet (State.secAnswer_quiet ..)
      · exact Keeps.of_quiet rfl
    · exact State.relay_keeps ..
  · exact State.relay_keeps ..

theorem State.secMsg_keeps (s : State) (m : SecMsg) : Keeps s (s.secMsg m) := by
  unfold State.secMsg
  split
  · exact Keeps.refl s
  split
  · exact Keeps.of_quiet rfl
  · exact State.toSp_keeps ..

theorem State.drainSp_keeps (s : State) : Keeps s s.drainSp := by
  unfold State.drainSp
  exact Keeps.before (t := { s with sec := { s.sec with queue := [] } }) rfl (foldl_keeps (fun s m => State.toSp_keeps s m) _ _)

theorem State.drainMgmt_keeps (s : State) : Keeps s s.drainMgmt := by
  unfold State.drainMgmt
  refine Keeps.before (t := { s with mgmt := { s.mgmt with held := [] } }) rfl (foldl_keeps (fun s m => ?_) _ _)
  split
  · exact State.secMsg_keeps ..
  · exact Keeps.of_quiet (State.mgmtMsg_quiet ..)

theorem State.servedAgain_keeps (s : State) (p : ProcId) : Keeps s (s.servedAgain p) := by
  unfold State.servedAgain
  extract_lets held st _ s1
  have h1 : s1.quiet = s.quiet := rfl
  clear_value s1
  split
  · refine Keeps.before h1 (Keeps.after ?_ (State.serveAll_quiet ..))
    split
    · exact State.drainMgmt_keeps ..
    · exact (State.drainMgmt_keeps ..).trans (State.drainSp_keeps ..)
  · exact Keeps.of_quiet (State.pumpQueues_quiet ..)

theorem State.resumeTarget_keeps {s t : State} {x : TapTarget} (h : s.resumeTarget x = .next t) : Keeps s t := by
  unfold State.resumeTarget at h
  split at h
  · split at h <;> injection h with h <;> subst h
    · exact Keeps.before (State.updProc_quiet ..) (State.servedAgain_keeps ..)
    · exact Keeps.refl s
  · injection h with h; subst h; exact Keeps.of_quiet (State.updCore_quiet ..)

/-- The lifecycle after the fuses are blown is the one aimed at; the waiting commands stay. -/
theorem State.blowFuses_views (s : State) (target : Nat) :
    (s.blowFuses target).pending = s.pending ∧ (s.blowFuses target).sec = s.sec := by
  unfold State.blowFuses
  dsimp only
  split <;> exact ⟨rfl, rfl⟩

theorem State.endLifecycle_keeps (s : State) (target : Nat) : Keeps s (s.endLifecycle target) := by
  unfold State.endLifecycle
  extract_lets old again s1 _ s2 s3 s4
  have hb := State.blowFuses_views s target
  have h3 : s3.quiet = (s.pending, s.sec.level, false, s1.fuses.lc) := by
    show (State.mgmtEvent ..).quiet = _
    rw [State.mgmtEvent_quiet]
    show (State.event ..).quiet = _
    rw [State.event_quiet]
    show (s1.pending, s1.sec.level, false, s1.fuses.lc) = _
    rw [hb.1, hb.2]
  have h4 : Keeps s s4 := by
    simp only [State.quiet, Prod.mk.injEq] at h3
    obtain ⟨p1, p2, p3, p4⟩ := h3
    show Keeps s (if _ then _ else _ : State)
    split
    · rename_i hc
      have hl := State.setLevel_views s3 0
      simp only [State.quiet, Prod.mk.injEq] at hl
      obtain ⟨l1, l2, l3, l4⟩ := hl
      refine ⟨l1.trans p1, fun hs => ?_⟩
      unfold State.secOk
      rw [l2, l3, p3]
      exact ⟨by decide, fun _ => ⟨by decide, rfl⟩⟩
    · rename_i hc
      refine ⟨p1, fun hs => ⟨?_, fun hf => ⟨fun hl => hc ?_, p3⟩⟩⟩
      · rw [p2]; exact hs.1
      · rw [hf, hl]; rfl
  refine Keeps.trans ?_ (State.drainSp_keeps _)
  split
  · exact h4
  · exact h4.trans (State.enterP4_keeps ..)

theorem State.takeover_keeps (s : State) (p : ProcId) : Keeps s (s.takeover p) := by
  unfold State.takeover
  extract_lets _ s1 s2 s3
  have h1 : s1.quiet = s.quiet := by
    show (if _ then _ else _ : State).quiet = _
    split
    · rw [State.serveBoundary_quiet, State.setReady_quiet]
      split <;> rfl
    · rfl
  have h2 : s2.quiet = s1.quiet := by
    show (if _ then _ else _ : State).quiet = _
    split
    · show (State.setReady ..).quiet = _
      rw [State.setReady_quiet, State.failStep_quiet]
    · rfl
  have h3 : Keeps s s3 := by
    refine Keeps.before (h2.trans h1) ?_
    show Keeps s2 (if _ then _ else _ : State)
    split
    · exact State.failStart_keeps ..
    · exact Keeps.refl _
  split
  · exact h3.after (State.pumpQueues_quiet _)
  · exact h3

theorem State.expire_keeps (s : State) (p : ProcId) : Keeps s (s.expire p) := by
  unfold State.expire
  extract_lets x n held w s1 s2 seq s3 s4
  have h1 : s1.quiet = s.quiet := by
    show (State.updProc ..).quiet = _
    rw [State.updProc_quiet, State.drawn_quiet]
  have h3 : s3.quiet = s.quiet := by
    show (State.updProc ..).quiet = _
    rw [State.updProc_quiet]
    show (State.logRec ..).quiet = _
    rw [State.logRec_quiet, h1]
  have h4 : s4.quiet = s.quiet := by
    show (if _ then _ else _ : State).quiet = _
    split
    · rw [State.failStep_quiet, h3]
    · exact h3
  split
  · exact Keeps.before h4 (State.takeover_keeps ..)
  · exact Keeps.of_quiet h4

end Sys2Proof.Machine
end

