-- ==== Sys2Proof/Laws/FrameExec.lean ====
section
/-! SUPPORT. What the commands leave alone whose meaning is one shared operation or a plain update: one lemma per command. -/

set_option linter.unusedSimpArgs false

namespace Sys2Proof.Machine

theorem execCavePortTimeout_quiet {k : CaveId} {s : State} {t : State} (h : execCavePortTimeout k s = .next t) : t.quiet = s.quiet := by
  unfold execCavePortTimeout at h
  rcases onlyIf_next h with rfl | ⟨-, h⟩
  · rfl
  injection h with h; subst h; simp only [quiet_upd, State.failCavePort_quiet]

theorem execCxlLinkDown_quiet {k : CaveId} {s : State} {t : State} (h : execCxlLinkDown k s = .next t) : t.quiet = s.quiet := by
  unfold execCxlLinkDown at h
  rcases onlyIf_next h with rfl | ⟨-, h⟩
  · rfl
  injection h with h; subst h; simp only [quiet_upd, State.failCavePort_quiet]

theorem execCxlEvent_quiet {k : CaveId} {data : List Byte} {s : State} {t : State} (h : execCxlEvent k data s = .next t) : t.quiet = s.quiet := by
  unfold execCxlEvent at h
  rcases onlyIf_next h with rfl | ⟨-, h⟩
  · rfl
  injection h with h; subst h; simp only [quiet_upd, State.event_quiet]

theorem execCavePwrOkFall_quiet {k : CaveId} {s : State} {t : State} (h : execCavePwrOkFall k s = .next t) : t.quiet = s.quiet := by
  unfold execCavePwrOkFall at h
  rcases onlyIf_next h with rfl | ⟨-, h⟩
  · rfl
  injection h with h; subst h; simp only [quiet_upd, apply_ite State.quiet, ite_self, State.setCavePort_quiet, State.caveLost_quiet, State.loseCave_quiet]

theorem execCavePortTrainingDone_quiet {k : CaveId} {f : CaveFacts} {s : State} {t : State} (h : execCavePortTrainingDone k f s = .next t) : t.quiet = s.quiet := by
  unfold execCavePortTrainingDone at h
  rcases onlyIf_next h with rfl | ⟨-, h⟩
  · rfl
  injection h with h; subst h; simp only [quiet_upd, State.setCavePort_quiet, State.fixCave_quiet]

theorem execDeltaComplete_quiet {s : State} {t : State} (h : execDeltaComplete s = .next t) : t.quiet = s.quiet := by
  unfold execDeltaComplete at h
  rcases onlyIf_next h with rfl | ⟨-, h⟩
  · rfl
  dsimp only at h
  repeat' split at h
  all_goals first
    | contradiction
    | (injection h with h; subst h; first | rfl | (simp only [↓quiet_upd, ↓quiet_upd_sec, ↓quiet_upd_fuses, apply_ite State.quiet, ite_self, foldl_quiet, foldl_quiet_snd, foldl_quiet_fst, implies_true, forall_const, List.foldl_cons, List.foldl_nil, State.drawn_quiet, State.endDelta_quiet, State.pumpReshard_quiet]; done) | simp only [↓quiet_upd, ↓quiet_upd_sec, ↓quiet_upd_fuses, apply_ite State.quiet, ite_self, foldl_quiet, foldl_quiet_snd, foldl_quiet_fst, implies_true, forall_const, List.foldl_cons, List.foldl_nil, State.drawn_quiet, State.endDelta_quiet, State.pumpReshard_quiet, *])
    | (first | assumption | (simp only [↓quiet_upd, ↓quiet_upd_sec, ↓quiet_upd_fuses, apply_ite State.quiet, ite_self, foldl_quiet, foldl_quiet_snd, foldl_quiet_fst, implies_true, forall_const, List.foldl_cons, List.foldl_nil, State.drawn_quiet, State.endDelta_quiet, State.pumpReshard_quiet, *] at *; done) | simp_all only [↓quiet_upd, ↓quiet_upd_sec, ↓quiet_upd_fuses, apply_ite State.quiet, ite_self, foldl_quiet, foldl_quiet_snd, foldl_quiet_fst, implies_true, forall_const, List.foldl_cons, List.foldl_nil, State.drawn_quiet, State.endDelta_quiet, State.pumpReshard_quiet])

theorem execDeltaMergeDone_quiet {s : State} {t : State} (h : execDeltaMergeDone s = .next t) : t.quiet = s.quiet := by
  unfold execDeltaMergeDone at h
  rcases onlyIf_next h with rfl | ⟨-, h⟩
  · rfl
  dsimp only at h
  repeat' split at h
  all_goals first
    | contradiction
    | (injection h with h; subst h; simp only [quiet_upd, State.putHeader_quiet])

theorem execXferCopy_quiet {c : CoreId} {g : Guard} {rs : SReg} {post : Option SemId} {s : State} {t : State} (h : execXferCopy c g rs post s = .next t) : t.quiet = s.quiet := by
  unfold execXferCopy at h
  exact State.issueXfer_quiet h

theorem execXferFill_quiet {c : CoreId} {g : Guard} {rs : SReg} {post : Option SemId} {s : State} {t : State} (h : execXferFill c g rs post s = .next t) : t.quiet = s.quiet := by
  unfold execXferFill at h
  exact State.issueXfer_quiet h

theorem execXferWback_quiet {c : CoreId} {g : Guard} {rs : SReg} {post : Option SemId} {s : State} {t : State} (h : execXferWback c g rs post s = .next t) : t.quiet = s.quiet := by
  unfold execXferWback at h
  exact State.issueXfer_quiet h

theorem execXferWarm_quiet {c : CoreId} {g : Guard} {rs : SReg} {post : Option SemId} {s : State} {t : State} (h : execXferWarm c g rs post s = .next t) : t.quiet = s.quiet := by
  unfold execXferWarm at h
  exact State.issueXfer_quiet h

theorem execDCopy_quiet {c : CoreId} {g : Guard} {rsrc : SReg} {rdst : SReg} {rlen : SReg} {post : Option SemId} {s : State} {t : State} (h : execDCopy c g rsrc rdst rlen post s = .next t) : t.quiet = s.quiet := by
  unfold execDCopy at h
  exact State.issueD_quiet h

theorem execDAgld_quiet {c : CoreId} {g : Guard} {ag : AgId} {rs : SReg} {s : State} {t : State} (h : execDAgld c g ag rs s = .next t) : t.quiet = s.quiet := by
  unfold execDAgld at h
  exact State.issueD_quiet h

theorem execDImem_quiet {c : CoreId} {g : Guard} {rs : SReg} {post : Option SemId} {s : State} {t : State} (h : execDImem c g rs post s = .next t) : t.quiet = s.quiet := by
  unfold execDImem at h
  exact State.issueD_quiet h

theorem execAllreduce_quiet {src : CollSrc} {s : State} {t : State} (h : execAllreduce src s = .next t) : t.quiet = s.quiet := by
  unfold execAllreduce at h
  exact State.issueCollOp_quiet h

theorem execReduceScatter_quiet {src : CollSrc} {s : State} {t : State} (h : execReduceScatter src s = .next t) : t.quiet = s.quiet := by
  unfold execReduceScatter at h
  exact State.issueCollOp_quiet h

theorem execAllgather_quiet {src : CollSrc} {s : State} {t : State} (h : execAllgather src s = .next t) : t.quiet = s.quiet := by
  unfold execAllgather at h
  exact State.issueCollOp_quiet h

theorem execAlltoall_quiet {src : CollSrc} {s : State} {t : State} (h : execAlltoall src s = .next t) : t.quiet = s.quiet := by
  unfold execAlltoall at h
  exact State.issueCollOp_quiet h

theorem execAlltoallv_quiet {src : CollSrc} {s : State} {t : State} (h : execAlltoallv src s = .next t) : t.quiet = s.quiet := by
  unfold execAlltoallv at h
  exact State.issueCollOp_quiet h

theorem execPermute_quiet {src : CollSrc} {s : State} {t : State} (h : execPermute src s = .next t) : t.quiet = s.quiet := by
  unfold execPermute at h
  exact State.issueCollOp_quiet h

theorem execMulticast_quiet {src : CollSrc} {s : State} {t : State} (h : execMulticast src s = .next t) : t.quiet = s.quiet := by
  unfold execMulticast at h
  exact State.issueCollOp_quiet h

theorem execBarrier_quiet {src : CollSrc} {s : State} {t : State} (h : execBarrier src s = .next t) : t.quiet = s.quiet := by
  unfold execBarrier at h
  exact State.issueCollOp_quiet h

theorem execSgather_quiet {src : CollSrc} {s : State} {t : State} (h : execSgather src s = .next t) : t.quiet = s.quiet := by
  unfold execSgather at h
  exact State.issueCollOp_quiet h

theorem execCollComplete_quiet {id : Nat} {s : State} {t : State} (h : execCollComplete id s = .next t) : t.quiet = s.quiet := by
  unfold execCollComplete at h
  rcases onlyIf_next h with rfl | ⟨-, h⟩
  · rfl
  repeat' split at h
  all_goals first
    | contradiction
    | (injection h with h; subst h; (try have q0 := State.finishColl_quiet ‹_›); first | rfl | (simp only [quiet_upd, State.afterColl_quiet]; done) | simp only [quiet_upd, State.afterColl_quiet, *])
    | ((try have q0 := State.finishColl_quiet ‹_›); first | assumption | (simp only [quiet_upd, State.afterColl_quiet, *] at *; done) | simp_all only [quiet_upd, State.afterColl_quiet])

theorem execCollShardRequest_quiet {remote : Bool} {k : Nat} {s : State} {t : State} (h : execCollShardRequest remote k s = .next t) : t.quiet = s.quiet := by
  unfold execCollShardRequest at h
  rcases onlyIf_next h with rfl | ⟨-, h⟩
  · rfl
  repeat' split at h
  all_goals first
    | contradiction
    | (injection h with h; subst h; (try have p0 := congrArg (fun x => x.2.quiet) ‹State.answerShard _ _ = _›); (try simp only [State.answerShard_quiet] at p0); first | rfl | (simp only [↓quiet_upd, ↓quiet_upd_sec, ↓quiet_upd_fuses, apply_ite State.quiet, ite_self, foldl_quiet, foldl_quiet_snd, foldl_quiet_fst, implies_true, forall_const, List.foldl_cons, List.foldl_nil, State.takeDeliv_quiet, State.badPacket_quiet, State.answerShard_quiet, State.sendMsg_quiet]; done) | simp only [↓quiet_upd, ↓quiet_upd_sec, ↓quiet_upd_fuses, apply_ite State.quiet, ite_self, foldl_quiet, foldl_quiet_snd, foldl_quiet_fst, implies_true, forall_const, List.foldl_cons, List.foldl_nil, State.takeDeliv_quiet, State.badPacket_quiet, State.answerShard_quiet, State.sendMsg_quiet, *])
    | ((try have p0 := congrArg (fun x => x.2.quiet) ‹State.answerShard _ _ = _›); (try simp only [State.answerShard_quiet] at p0); first | assumption | (simp only [↓quiet_upd, ↓quiet_upd_sec, ↓quiet_upd_fuses, apply_ite State.quiet, ite_self, foldl_quiet, foldl_quiet_snd, foldl_quiet_fst, implies_true, forall_const, List.foldl_cons, List.foldl_nil, State.takeDeliv_quiet, State.badPacket_quiet, State.answerShard_quiet, State.sendMsg_quiet, *] at *; done) | simp_all only [↓quiet_upd, ↓quiet_upd_sec, ↓quiet_upd_fuses, apply_ite State.quiet, ite_self, foldl_quiet, foldl_quiet_snd, foldl_quiet_fst, implies_true, forall_const, List.foldl_cons, List.foldl_nil, State.takeDeliv_quiet, State.badPacket_quiet, State.answerShard_quiet, State.sendMsg_quiet])

theorem execCollShardReply_quiet {remote : Bool} {k : Nat} {s : State} {t : State} (h : execCollShardReply remote k s = .next t) : t.quiet = s.quiet := by
  unfold execCollShardReply at h
  rcases onlyIf_next h with rfl | ⟨-, h⟩
  · rfl
  dsimp only at h
  repeat' split at h
  all_goals first
    | contradiction
    | (injection h with h; subst h; (try have q0 := State.onResponse_quiet ‹_›); simp only [quiet_upd, State.takeShard_quiet])
    | ((try have q0 := State.onResponse_quiet ‹_›); first | assumption | (simp only [quiet_upd, State.takeShard_quiet] at *; done) | simp_all only [quiet_upd, State.takeShard_quiet])

theorem execLeaseDeadline_quiet {n : CelId} {table : Nat} {step : Nat} {s : State} {t : State} (h : execLeaseDeadline n table step s = .next t) : t.quiet = s.quiet := by
  unfold execLeaseDeadline at h
  rcases onlyIf_next h with rfl | ⟨-, h⟩
  · rfl
  dsimp only at h
  repeat' split at h
  all_goals first
    | contradiction
    | (injection h with h; subst h; simp only [quiet_upd, State.event_quiet])

theorem execCollJoinTimeout_quiet {id : Nat} {s : State} {t : State} (h : execCollJoinTimeout id s = .next t) : t.quiet = s.quiet := by
  unfold execCollJoinTimeout at h
  rcases onlyIf_next h with rfl | ⟨-, h⟩
  · rfl
  repeat' split at h
  all_goals first
    | contradiction
    | (injection h with h; subst h; simp only [quiet_upd, State.setColl_quiet])

theorem execStreamStall_quiet {n : CelId} {room : Bool} {s : State} {t : State} (h : execStreamStall n room s = .next t) : t.quiet = s.quiet := by
  unfold execStreamStall at h
  rcases onlyIf_next h with rfl | ⟨-, h⟩
  · rfl
  dsimp only at h
  repeat' split at h
  all_goals first
    | contradiction
    | (injection h with h; subst h; simp only [quiet_upd, State.setColl_quiet, State.event_quiet, State.drawn_quiet])

theorem execInputApplied_quiet {s : State} {t : State} (h : execInputApplied s = .next t) : t.quiet = s.quiet := by
  unfold execInputApplied at h
  rcases onlyIf_next h with rfl | ⟨-, h⟩
  · rfl
  injection h with h; subst h; simp only [quiet_upd, State.tellPower_quiet]

theorem execPwrEnRise_quiet {s : State} {t : State} (h : execPwrEnRise s = .next t) : t.quiet = s.quiet := by
  unfold execPwrEnRise at h
  simp only [Host.Outcome.next.injEq] at h
  subst h
  simp only [quiet_upd]

theorem execOvervoltageRecovery_quiet {s : State} {t : State} (h : execOvervoltageRecovery s = .next t) : t.quiet = s.quiet := by
  unfold execOvervoltageRecovery at h
  rcases onlyIf_next h with rfl | ⟨-, h⟩
  · rfl
  injection h with h; subst h; simp only [quiet_upd]

theorem execProtectCoreDeadline_quiet {c : CoreId} {s : State} {t : State} (h : execProtectCoreDeadline c s = .next t) : t.quiet = s.quiet := by
  unfold execProtectCoreDeadline at h
  rcases onlyIf_next h with rfl | ⟨-, h⟩
  · rfl
  injection h with h; subst h; simp only [quiet_upd, apply_ite State.quiet, ite_self, State.withCore_quiet, State.failStep_quiet, State.protectAdvance_quiet]

theorem execPwrReqStandby_quiet {s : State} {t : State} (h : execPwrReqStandby s = .next t) : t.quiet = s.quiet := by
  unfold execPwrReqStandby at h
  simp only [Host.Outcome.next.injEq] at h
  subst h
  simp only [quiet_upd, State.standbyReq_quiet]

theorem execPwrReqResume_quiet {s : State} {t : State} (h : execPwrReqResume s = .next t) : t.quiet = s.quiet := by
  unfold execPwrReqResume at h
  simp only [Host.Outcome.next.injEq] at h
  subst h
  simp only [quiet_upd, State.resumeReq_quiet]

theorem execHoldupOk_quiet {energy : Nat} {s : State} {t : State} (h : execHoldupOk energy s = .next t) : t.quiet = s.quiet := by
  unfold execHoldupOk at h
  rcases onlyIf_next h with rfl | ⟨-, h⟩
  · rfl
  injection h with h; subst h; simp only [quiet_upd, apply_ite State.quiet, ite_self, State.vcoreStart_quiet]

theorem execFrameRx_quiet {p : PortId} {f : Frame} {s : State} {t : State} (h : execFrameRx p f s = .next t) : t.quiet = s.quiet := by
  unfold execFrameRx at h
  rcases onlyIf_next h with rfl | ⟨-, h⟩
  · rfl
  injection h with h; subst h; simp only [quiet_upd, State.receiveFrame_quiet]

theorem execLaneSignalFail_quiet {p : PortId} {lane : Fin 8} {s : State} {t : State} (h : execLaneSignalFail p lane s = .next t) : t.quiet = s.quiet := by
  unfold execLaneSignalFail at h
  rcases onlyIf_next h with rfl | ⟨-, h⟩
  · rfl
  injection h with h; subst h; simp only [quiet_upd, State.trainPort_quiet]

theorem execOptReadyRise_quiet {p : PortId} {s : State} {t : State} (h : execOptReadyRise p s = .next t) : t.quiet = s.quiet := by
  unfold execOptReadyRise at h
  simp only [Host.Outcome.next.injEq] at h
  subst h
  simp only [quiet_upd, apply_ite State.quiet, ite_self, State.trainPort_quiet]

theorem execOptReadyFall_quiet {p : PortId} {s : State} {t : State} (h : execOptReadyFall p s = .next t) : t.quiet = s.quiet := by
  unfold execOptReadyFall at h
  simp only [Host.Outcome.next.injEq] at h
  subst h
  simp only [quiet_upd, State.portState_quiet]

theorem execPortTrainingDone_quiet {p : PortId} {res : PortTrain} {s : State} {t : State} (h : execPortTrainingDone p res s = .next t) : t.quiet = s.quiet := by
  unfold execPortTrainingDone at h
  rcases onlyIf_next h with rfl | ⟨-, h⟩
  · rfl
  dsimp only at h
  repeat' split at h
  all_goals first
    | contradiction
    | (injection h with h; subst h; simp only [quiet_upd, State.portState_quiet, State.sendPromOn_quiet])

theorem execRetrain_quiet {p : PortId} {s : State} {t : State} (h : execRetrain p s = .next t) : t.quiet = s.quiet := by
  unfold execRetrain at h
  rcases onlyIf_next h with rfl | ⟨-, h⟩
  · rfl
  injection h with h; subst h; simp only [quiet_upd, State.trainPort_quiet]

theorem execPacketForward_quiet {k : Nat} {s : State} {t : State} (h : execPacketForward k s = .next t) : t.quiet = s.quiet := by
  unfold execPacketForward at h
  rcases onlyIf_next h with rfl | ⟨-, h⟩
  · rfl
  repeat' split at h
  all_goals first
    | contradiction
    | (injection h with h; subst h; simp only [quiet_upd, State.takeInq_quiet, State.forward_quiet])

theorem execRdResp_quiet {k : Nat} {s : State} {t : State} (h : execRdResp k s = .next t) : t.quiet = s.quiet := by
  unfold execRdResp at h
  rcases onlyIf_next h with rfl | ⟨-, h⟩
  · rfl
  exact State.onResponse_quiet h

theorem execWrAck_quiet {k : Nat} {s : State} {t : State} (h : execWrAck k s = .next t) : t.quiet = s.quiet := by
  unfold execWrAck at h
  rcases onlyIf_next h with rfl | ⟨-, h⟩
  · rfl
  exact State.onResponse_quiet h

theorem execRequestTimeout_quiet {k : Nat} {s : State} {t : State} (h : execRequestTimeout k s = .next t) : t.quiet = s.quiet := by
  unfold execRequestTimeout at h
  rcases onlyIf_next h with rfl | ⟨-, h⟩
  · rfl
  repeat' split at h
  all_goals first
    | contradiction
    | (injection h with h; subst h; first | rfl | (simp only [↓quiet_upd, ↓quiet_upd_sec, ↓quiet_upd_fuses, apply_ite State.quiet, ite_self, foldl_quiet, foldl_quiet_snd, foldl_quiet_fst, implies_true, forall_const, List.foldl_cons, List.foldl_nil, State.completeReq_quiet]; done) | simp only [↓quiet_upd, ↓quiet_upd_sec, ↓quiet_upd_fuses, apply_ite State.quiet, ite_self, foldl_quiet, foldl_quiet_snd, foldl_quiet_fst, implies_true, forall_const, List.foldl_cons, List.foldl_nil, State.completeReq_quiet, *])
    | (first | assumption | (simp only [↓quiet_upd, ↓quiet_upd_sec, ↓quiet_upd_fuses, apply_ite State.quiet, ite_self, foldl_quiet, foldl_quiet_snd, foldl_quiet_fst, implies_true, forall_const, List.foldl_cons, List.foldl_nil, State.completeReq_quiet, *] at *; done) | simp_all only [↓quiet_upd, ↓quiet_upd_sec, ↓quiet_upd_fuses, apply_ite State.quiet, ite_self, foldl_quiet, foldl_quiet_snd, foldl_quiet_fst, implies_true, forall_const, List.foldl_cons, List.foldl_nil, State.completeReq_quiet])

theorem execUcieTrainDone_quiet {i : Fin 288} {res : UcieTrain} {s : State} {t : State} (h : execUcieTrainDone i res s = .next t) : t.quiet = s.quiet := by
  unfold execUcieTrainDone at h
  rcases onlyIf_next h with rfl | ⟨-, h⟩
  · rfl
  injection h with h; subst h; simp only [quiet_upd, State.trainedModule_quiet]

theorem execFlitRx_quiet {i : Fin 288} {f : Flit} {s : State} {t : State} (h : execFlitRx i f s = .next t) : t.quiet = s.quiet := by
  unfold execFlitRx at h
  rcases onlyIf_next h with rfl | ⟨-, h⟩
  · rfl
  injection h with h; subst h; simp only [quiet_upd, State.receiveFlit_quiet]

theorem execPhyretrainDone_quiet {i : Fin 288} {bad : BitVec 64} {r : RetrainEnd} {s : State} {t : State} (h : execPhyretrainDone i bad r s = .next t) : t.quiet = s.quiet := by
  unfold execPhyretrainDone at h
  rcases onlyIf_next h with rfl | ⟨-, h⟩
  · rfl
  dsimp only at h
  repeat' split at h
  all_goals first
    | contradiction
    | (injection h with h; subst h; first | rfl | (simp only [↓quiet_upd, ↓quiet_upd_sec, ↓quiet_upd_fuses, apply_ite State.quiet, ite_self, foldl_quiet, foldl_quiet_snd, foldl_quiet_fst, implies_true, forall_const, List.foldl_cons, List.foldl_nil, State.setDl_quiet, State.failModule_quiet, State.moduleUp_quiet]; done) | simp only [↓quiet_upd, ↓quiet_upd_sec, ↓quiet_upd_fuses, apply_ite State.quiet, ite_self, foldl_quiet, foldl_quiet_snd, foldl_quiet_fst, implies_true, forall_const, List.foldl_cons, List.foldl_nil, State.setDl_quiet, State.failModule_quiet, State.moduleUp_quiet, *])
    | (first | assumption | (simp only [↓quiet_upd, ↓quiet_upd_sec, ↓quiet_upd_fuses, apply_ite State.quiet, ite_self, foldl_quiet, foldl_quiet_snd, foldl_quiet_fst, implies_true, forall_const, List.foldl_cons, List.foldl_nil, State.setDl_quiet, State.failModule_quiet, State.moduleUp_quiet, *] at *; done) | simp_all only [↓quiet_upd, ↓quiet_upd_sec, ↓quiet_upd_fuses, apply_ite State.quiet, ite_self, foldl_quiet, foldl_quiet_snd, foldl_quiet_fst, implies_true, forall_const, List.foldl_cons, List.foldl_nil, State.setDl_quiet, State.failModule_quiet, State.moduleUp_quiet])

theorem execUcieL1Entry_quiet {i : Fin 288} {s : State} {t : State} (h : execUcieL1Entry i s = .next t) : t.quiet = s.quiet := by
  unfold execUcieL1Entry at h
  rcases onlyIf_next h with rfl | ⟨-, h⟩
  · rfl
  injection h with h; subst h; simp only [quiet_upd, State.setDl_quiet]

theorem execAccAdmission_quiet {site : AccId} {f : AccFacts} {s : State} {t : State} (h : execAccAdmission site f s = .next t) : t.quiet = s.quiet := by
  unfold execAccAdmission at h
  rcases onlyIf_next h with rfl | ⟨-, h⟩
  · rfl
  dsimp only at h
  repeat' split at h
  all_goals first
    | contradiction
    | (injection h with h; subst h; simp only [quiet_upd, State.dropSite_quiet, State.event_quiet])

theorem execPartnerOverpower_quiet {site : AccId} {s : State} {t : State} (h : execPartnerOverpower site s = .next t) : t.quiet = s.quiet := by
  unfold execPartnerOverpower at h
  rcases onlyIf_next h with rfl | ⟨-, h⟩
  · rfl
  injection h with h; subst h; simp only [quiet_upd, State.dropSite_quiet]

theorem execDlTest_quiet {x : W64} {s : State} {t : State} (h : execDlTest x s = .next t) : t.quiet = s.quiet := by
  unfold execDlTest at h
  rcases onlyIf_next h with rfl | ⟨-, h⟩
  · rfl
  injection h with h; subst h; simp only [quiet_upd, State.dlTestWrite_quiet]

theorem execLoopTestEnd_quiet {errs : List Nat} {margin : Nat} {res : UcieTrain} {s : State} {t : State} (h : execLoopTestEnd errs margin res s = .next t) : t.quiet = s.quiet := by
  unfold execLoopTestEnd at h
  dsimp only at h
  repeat' split at h
  all_goals first
    | contradiction
    | (injection h with h; subst h; simp only [quiet_upd, State.trainedModule_quiet, State.endOpOf_quiet])

theorem execEGather_quiet {c : CoreId} {g : Guard} {rs : SReg} {post : Option SemId} {s : State} {t : State} (h : execEGather c g rs post s = .next t) : t.quiet = s.quiet := by
  unfold execEGather at h
  exact State.issueD_quiet h

theorem execEDesc_quiet {c : CoreId} {g : Guard} {rs : SReg} {post : Option SemId} {s : State} {t : State} (h : execEDesc c g rs post s = .next t) : t.quiet = s.quiet := by
  unfold execEDesc at h
  exact State.issueD_quiet h

theorem execEDispatch_quiet {c : CoreId} {g : Guard} {rs : SReg} {post : Option SemId} {s : State} {t : State} (h : execEDispatch c g rs post s = .next t) : t.quiet = s.quiet := by
  unfold execEDispatch at h
  exact State.issueD_quiet h

theorem execECollect_quiet {c : CoreId} {g : Guard} {rs : SReg} {post : Option SemId} {s : State} {t : State} (h : execECollect c g rs post s = .next t) : t.quiet = s.quiet := by
  unfold execECollect at h
  exact State.issueD_quiet h

theorem execGsub_quiet {remote : Bool} {k : Nat} {s : State} {t : State} (h : execGsub remote k s = .next t) : t.quiet = s.quiet := by
  unfold execGsub at h
  rcases onlyIf_next h with rfl | ⟨-, h⟩
  · rfl
  dsimp only at h
  repeat' split at h
  all_goals first
    | contradiction
    | (injection h with h; subst h; (try have p0 := congrArg (fun x => x.2.quiet) ‹State.serveSub _ _ = _›); (try simp only [State.serveSub_quiet] at p0); first | rfl | (simp only [↓quiet_upd, ↓quiet_upd_sec, ↓quiet_upd_fuses, apply_ite State.quiet, ite_self, foldl_quiet, foldl_quiet_snd, foldl_quiet_fst, implies_true, forall_const, List.foldl_cons, List.foldl_nil, State.takeDeliv_quiet, State.badPacket_quiet, State.serveSub_quiet, State.sendMsg_quiet, State.respond_quiet]; done) | simp only [↓quiet_upd, ↓quiet_upd_sec, ↓quiet_upd_fuses, apply_ite State.quiet, ite_self, foldl_quiet, foldl_quiet_snd, foldl_quiet_fst, implies_true, forall_const, List.foldl_cons, List.foldl_nil, State.takeDeliv_quiet, State.badPacket_quiet, State.serveSub_quiet, State.sendMsg_quiet, State.respond_quiet, *])
    | ((try have p0 := congrArg (fun x => x.2.quiet) ‹State.serveSub _ _ = _›); (try simp only [State.serveSub_quiet] at p0); first | assumption | (simp only [↓quiet_upd, ↓quiet_upd_sec, ↓quiet_upd_fuses, apply_ite State.quiet, ite_self, foldl_quiet, foldl_quiet_snd, foldl_quiet_fst, implies_true, forall_const, List.foldl_cons, List.foldl_nil, State.takeDeliv_quiet, State.badPacket_quiet, State.serveSub_quiet, State.sendMsg_quiet, State.respond_quiet, *] at *; done) | simp_all only [↓quiet_upd, ↓quiet_upd_sec, ↓quiet_upd_fuses, apply_ite State.quiet, ite_self, foldl_quiet, foldl_quiet_snd, foldl_quiet_fst, implies_true, forall_const, List.foldl_cons, List.foldl_nil, State.takeDeliv_quiet, State.badPacket_quiet, State.serveSub_quiet, State.sendMsg_quiet, State.respond_quiet])

theorem execGpart_quiet {remote : Bool} {k : Nat} {s : State} {t : State} (h : execGpart remote k s = .next t) : t.quiet = s.quiet := by
  unfold execGpart at h
  rcases onlyIf_next h with rfl | ⟨-, h⟩
  · rfl
  repeat' split at h
  all_goals first
    | contradiction
    | (injection h with h; subst h; (try have q0 := State.onResponse_quiet ‹_›); first | rfl | (simp only [↓quiet_upd, ↓quiet_upd_sec, ↓quiet_upd_fuses, apply_ite State.quiet, ite_self, foldl_quiet, foldl_quiet_snd, foldl_quiet_fst, implies_true, forall_const, List.foldl_cons, List.foldl_nil, State.addPart_quiet, State.freeLocal_quiet]; done) | simp only [↓quiet_upd, ↓quiet_upd_sec, ↓quiet_upd_fuses, apply_ite State.quiet, ite_self, foldl_quiet, foldl_quiet_snd, foldl_quiet_fst, implies_true, forall_const, List.foldl_cons, List.foldl_nil, State.addPart_quiet, State.freeLocal_quiet, *])
    | ((try have q0 := State.onResponse_quiet ‹_›); first | assumption | (simp only [↓quiet_upd, ↓quiet_upd_sec, ↓quiet_upd_fuses, apply_ite State.quiet, ite_self, foldl_quiet, foldl_quiet_snd, foldl_quiet_fst, implies_true, forall_const, List.foldl_cons, List.foldl_nil, State.addPart_quiet, State.freeLocal_quiet, *] at *; done) | simp_all only [↓quiet_upd, ↓quiet_upd_sec, ↓quiet_upd_fuses, apply_ite State.quiet, ite_self, foldl_quiet, foldl_quiet_snd, foldl_quiet_fst, implies_true, forall_const, List.foldl_cons, List.foldl_nil, State.addPart_quiet, State.freeLocal_quiet])

theorem execMapSwitchRequest_quiet {map : Fin 8} {s : State} {t : State} (h : execMapSwitchRequest map s = .next t) : t.quiet = s.quiet := by
  unfold execMapSwitchRequest at h
  rcases onlyIf_next h with rfl | ⟨-, h⟩
  · rfl
  injection h with h; subst h; simp only [quiet_upd, State.requestSwitch_quiet]

theorem execMapswTimeout_quiet {s : State} {t : State} (h : execMapswTimeout s = .next t) : t.quiet = s.quiet := by
  unfold execMapswTimeout at h
  dsimp only at h
  repeat' split at h
  all_goals first
    | contradiction
    | (injection h with h; subst h; first | rfl | (simp only [↓quiet_upd, ↓quiet_upd_sec, ↓quiet_upd_fuses, apply_ite State.quiet, ite_self, foldl_quiet, foldl_quiet_snd, foldl_quiet_fst, implies_true, forall_const, List.foldl_cons, List.foldl_nil, State.resumeInjection_quiet, State.requestSwitch_quiet, State.failStep_quiet]; done) | simp only [↓quiet_upd, ↓quiet_upd_sec, ↓quiet_upd_fuses, apply_ite State.quiet, ite_self, foldl_quiet, foldl_quiet_snd, foldl_quiet_fst, implies_true, forall_const, List.foldl_cons, List.foldl_nil, State.resumeInjection_quiet, State.requestSwitch_quiet, State.failStep_quiet, *])
    | (first | assumption | (simp only [↓quiet_upd, ↓quiet_upd_sec, ↓quiet_upd_fuses, apply_ite State.quiet, ite_self, foldl_quiet, foldl_quiet_snd, foldl_quiet_fst, implies_true, forall_const, List.foldl_cons, List.foldl_nil, State.resumeInjection_quiet, State.requestSwitch_quiet, State.failStep_quiet, *] at *; done) | simp_all only [↓quiet_upd, ↓quiet_upd_sec, ↓quiet_upd_fuses, apply_ite State.quiet, ite_self, foldl_quiet, foldl_quiet_snd, foldl_quiet_fst, implies_true, forall_const, List.foldl_cons, List.foldl_nil, State.resumeInjection_quiet, State.requestSwitch_quiet, State.failStep_quiet])

theorem execFabMapLoad_quiet {x : W64} {s : State} {t : State} (h : execFabMapLoad x s = .next t) : t.quiet = s.quiet := by
  unfold execFabMapLoad at h
  rcases onlyIf_next h with rfl | ⟨-, h⟩
  · rfl
  injection h with h; subst h; simp only [quiet_upd, State.fabMapLoad_quiet]

theorem execFabCommit_quiet {s : State} {t : State} (h : execFabCommit s = .next t) : t.quiet = s.quiet := by
  unfold execFabCommit at h
  rcases onlyIf_next h with rfl | ⟨-, h⟩
  · rfl
  injection h with h; subst h; simp only [quiet_upd, State.fabCommit_quiet]

theorem execPromWalkTimeout_quiet {axis : Axis} {dir : Fin 2} {s : State} {t : State} (h : execPromWalkTimeout axis dir s = .next t) : t.quiet = s.quiet := by
  unfold execPromWalkTimeout at h
  rcases onlyIf_next h with rfl | ⟨-, h⟩
  · rfl
  injection h with h; subst h; simp only [quiet_upd, State.updProm_quiet, State.lineEnd_quiet]

theorem execPromenadeTimeout_quiet {s : State} {t : State} (h : execPromenadeTimeout s = .next t) : t.quiet = s.quiet := by
  unfold execPromenadeTimeout at h
  rcases onlyIf_next h with rfl | ⟨-, h⟩
  · rfl
  injection h with h; subst h; simp only [quiet_upd, State.endProm_quiet]

theorem execAskTimeout_quiet {s : State} {t : State} (h : execAskTimeout s = .next t) : t.quiet = s.quiet := by
  unfold execAskTimeout at h
  rcases onlyIf_next h with rfl | ⟨-, h⟩
  · rfl
  dsimp only at h
  repeat' split at h
  all_goals first
    | contradiction
    | (injection h with h; subst h; simp only [quiet_upd, State.concludeJoin_quiet, State.runPromenade_quiet])

theorem execVatDieReset_quiet {v : VatId} {s : State} {t : State} (h : execVatDieReset v s = .next t) : t.quiet = s.quiet := by
  unfold execVatDieReset at h
  rcases onlyIf_next h with rfl | ⟨-, h⟩
  · rfl
  injection h with h; subst h; simp only [quiet_upd, State.resetDie_quiet]

theorem execPerstAssert_quiet {s : State} {t : State} (h : execPerstAssert s = .next t) : t.quiet = s.quiet := by
  unfold execPerstAssert at h
  rcases onlyIf_next h with rfl | ⟨-, h⟩
  · rfl
  injection h with h; subst h; simp only [quiet_upd, State.detachSession_quiet]

theorem execDllDown_quiet {s : State} {t : State} (h : execDllDown s = .next t) : t.quiet = s.quiet := by
  unfold execDllDown at h
  rcases onlyIf_next h with rfl | ⟨-, h⟩
  · rfl
  injection h with h; subst h; simp only [quiet_upd, State.detachSession_quiet]

theorem execFunctionLevelReset_quiet {s : State} {t : State} (h : execFunctionLevelReset s = .next t) : t.quiet = s.quiet := by
  unfold execFunctionLevelReset at h
  rcases onlyIf_next h with rfl | ⟨-, h⟩
  · rfl
  injection h with h; subst h; simp only [quiet_upd, State.detachSession_quiet]

theorem execBusMasterEnableCleared_quiet {s : State} {t : State} (h : execBusMasterEnableCleared s = .next t) : t.quiet = s.quiet := by
  unfold execBusMasterEnableCleared at h
  rcases onlyIf_next h with rfl | ⟨-, h⟩
  · rfl
  injection h with h; subst h; simp only [quiet_upd, State.detachSession_quiet]

theorem execD3hotEntry_quiet {s : State} {t : State} (h : execD3hotEntry s = .next t) : t.quiet = s.quiet := by
  unfold execD3hotEntry at h
  rcases onlyIf_next h with rfl | ⟨-, h⟩
  · rfl
  injection h with h; subst h; simp only [quiet_upd, State.detachSession_quiet]

theorem execHeartbeatExpiry_quiet {s : State} {t : State} (h : execHeartbeatExpiry s = .next t) : t.quiet = s.quiet := by
  unfold execHeartbeatExpiry at h
  rcases onlyIf_next h with rfl | ⟨-, h⟩
  · rfl
  injection h with h; subst h; simp only [quiet_upd, State.detachSession_quiet]

theorem execHifHeartbeat_quiet {s : State} {t : State} (h : execHifHeartbeat s = .next t) : t.quiet = s.quiet := by
  unfold execHifHeartbeat at h
  rcases onlyIf_next h with rfl | ⟨-, h⟩
  · rfl
  injection h with h; subst h; simp only [quiet_upd]

theorem execPcieLinkTrain_quiet {width : Nat} {rate : PcieRate} {s : State} {t : State} (h : execPcieLinkTrain width rate s = .next t) : t.quiet = s.quiet := by
  unfold execPcieLinkTrain at h
  rcases onlyIf_next h with rfl | ⟨-, h⟩
  · rfl
  injection h with h; subst h; simp only [quiet_upd]

theorem execBar4Read_quiet {off : Nat} {len : Nat} {s : State} {t : State} (h : execBar4Read off len s = .next t) : t.quiet = s.quiet := by
  unfold execBar4Read at h
  rcases onlyIf_next h with rfl | ⟨-, h⟩
  · rfl
  dsimp only at h
  repeat' split at h
  all_goals first
    | contradiction
    | (injection h with h; subst h; (try have p0 := congrArg (fun x => x.2.quiet) ‹State.hostReadLines _ _ = _›); (try simp only [State.hostReadLines_quiet] at p0); first | rfl | (simp only [↓quiet_upd, ↓quiet_upd_sec, ↓quiet_upd_fuses, apply_ite State.quiet, ite_self, foldl_quiet, foldl_quiet_snd, foldl_quiet_fst, implies_true, forall_const, List.foldl_cons, List.foldl_nil, State.event_quiet, State.answer_quiet, State.drawn_quiet, State.hostReadLines_quiet]; done) | simp only [↓quiet_upd, ↓quiet_upd_sec, ↓quiet_upd_fuses, apply_ite State.quiet, ite_self, foldl_quiet, foldl_quiet_snd, foldl_quiet_fst, implies_true, forall_const, List.foldl_cons, List.foldl_nil, State.event_quiet, State.answer_quiet, State.drawn_quiet, State.hostReadLines_quiet, *])
    | ((try have p0 := congrArg (fun x => x.2.quiet) ‹State.hostReadLines _ _ = _›); (try simp only [State.hostReadLines_quiet] at p0); first | assumption | (simp only [↓quiet_upd, ↓quiet_upd_sec, ↓quiet_upd_fuses, apply_ite State.quiet, ite_self, foldl_quiet, foldl_quiet_snd, foldl_quiet_fst, implies_true, forall_const, List.foldl_cons, List.foldl_nil, State.event_quiet, State.answer_quiet, State.drawn_quiet, State.hostReadLines_quiet, *] at *; done) | simp_all only [↓quiet_upd, ↓quiet_upd_sec, ↓quiet_upd_fuses, apply_ite State.quiet, ite_self, foldl_quiet, foldl_quiet_snd, foldl_quiet_fst, implies_true, forall_const, List.foldl_cons, List.foldl_nil, State.event_quiet, State.answer_quiet, State.drawn_quiet, State.hostReadLines_quiet])

theorem execBar4Write_quiet {off : Nat} {data : List Byte} {s : State} {t : State} (h : execBar4Write off data s = .next t) : t.quiet = s.quiet := by
  unfold execBar4Write at h
  rcases onlyIf_next h with rfl | ⟨-, h⟩
  · rfl
  dsimp only at h
  repeat' split at h
  all_goals first
    | contradiction
    | (injection h with h; subst h; first | rfl | (simp only [↓quiet_upd, ↓quiet_upd_sec, ↓quiet_upd_fuses, apply_ite State.quiet, ite_self, foldl_quiet, foldl_quiet_snd, foldl_quiet_fst, implies_true, forall_const, List.foldl_cons, List.foldl_nil, State.event_quiet, State.drawn_quiet, State.writeAs_quiet, State.accessRecord_quiet]; done) | simp only [↓quiet_upd, ↓quiet_upd_sec, ↓quiet_upd_fuses, apply_ite State.quiet, ite_self, foldl_quiet, foldl_quiet_snd, foldl_quiet_fst, implies_true, forall_const, List.foldl_cons, List.foldl_nil, State.event_quiet, State.drawn_quiet, State.writeAs_quiet, State.accessRecord_quiet, *])
    | (first | assumption | (simp only [↓quiet_upd, ↓quiet_upd_sec, ↓quiet_upd_fuses, apply_ite State.quiet, ite_self, foldl_quiet, foldl_quiet_snd, foldl_quiet_fst, implies_true, forall_const, List.foldl_cons, List.foldl_nil, State.event_quiet, State.drawn_quiet, State.writeAs_quiet, State.accessRecord_quiet, *] at *; done) | simp_all only [↓quiet_upd, ↓quiet_upd_sec, ↓quiet_upd_fuses, apply_ite State.quiet, ite_self, foldl_quiet, foldl_quiet_snd, foldl_quiet_fst, implies_true, forall_const, List.foldl_cons, List.foldl_nil, State.event_quiet, State.drawn_quiet, State.writeAs_quiet, State.accessRecord_quiet])

theorem execBar4Sync_quiet {s : State} {t : State} (h : execBar4Sync s = .next t) : t.quiet = s.quiet := by
  unfold execBar4Sync at h
  rcases onlyIf_next h with rfl | ⟨-, h⟩
  · rfl
  injection h with h; subst h; simp only [quiet_upd, State.answer_quiet]

theorem execHifHfence_quiet {s : State} {t : State} (h : execHifHfence s = .next t) : t.quiet = s.quiet := by
  unfold execHifHfence at h
  rcases onlyIf_next h with rfl | ⟨-, h⟩
  · rfl
  injection h with h; subst h; simp only [quiet_upd, State.answer_quiet]

theorem execSqSlotWrite_quiet {q : QId} {off : Nat} {data : List Byte} {s : State} {t : State} (h : execSqSlotWrite q off data s = .next t) : t.quiet = s.quiet := by
  unfold execSqSlotWrite at h
  rcases onlyIf_next h with rfl | ⟨-, h⟩
  · rfl
  dsimp only at h
  repeat' split at h
  all_goals first
    | contradiction
    | (injection h with h; subst h; simp only [quiet_upd, State.updQueue_quiet])

theorem execTailEcho_quiet {q : QId} {s : State} {t : State} (h : execTailEcho q s = .next t) : t.quiet = s.quiet := by
  unfold execTailEcho at h
  rcases onlyIf_next h with rfl | ⟨-, h⟩
  · rfl
  injection h with h; subst h; simp only [quiet_upd, State.updQueue_quiet, State.answer_quiet]

theorem execDoorbell_quiet {q : QId} {x : W64} {s : State} {t : State} (h : execDoorbell q x s = .next t) : t.quiet = s.quiet := by
  unfold execDoorbell at h
  rcases onlyIf_next h with rfl | ⟨-, h⟩
  · rfl
  repeat' split at h
  all_goals first
    | contradiction
    | (injection h with h; subst h; (try have q0 := State.doorbell_quiet ‹_›); first | rfl | (simp only [quiet_upd]; done) | simp only [quiet_upd, *])
    | ((try have q0 := State.doorbell_quiet ‹_›); first | assumption | (simp only [quiet_upd, *] at *; done) | simp_all only [quiet_upd])

theorem execSqReread_quiet {q : QId} {s : State} {t : State} (h : execSqReread q s = .next t) : t.quiet = s.quiet := by
  unfold execSqReread at h
  rcases onlyIf_next h with rfl | ⟨-, h⟩
  · rfl
  injection h with h; subst h; simp only [quiet_upd, State.pumpQueue_quiet]

theorem execSqStalled_quiet {q : QId} {s : State} {t : State} (h : execSqStalled q s = .next t) : t.quiet = s.quiet := by
  unfold execSqStalled at h
  rcases onlyIf_next h with rfl | ⟨-, h⟩
  · rfl
  injection h with h; subst h; simp only [quiet_upd, State.updQueue_quiet, State.event_quiet]

theorem execResumeQueue_quiet {q : QId} {s : State} {t : State} (h : execResumeQueue q s = .next t) : t.quiet = s.quiet := by
  unfold execResumeQueue at h
  rcases onlyIf_next h with rfl | ⟨-, h⟩
  · rfl
  injection h with h; subst h; simp only [quiet_upd, State.resumeQueue_quiet]

theorem execResetQueue_quiet {q : QId} {seq : W32} {s : State} {t : State} (h : execResetQueue q seq s = .next t) : t.quiet = s.quiet := by
  unfold execResetQueue at h
  rcases onlyIf_next h with rfl | ⟨-, h⟩
  · rfl
  injection h with h; subst h; simp only [quiet_upd, State.resetQueue_quiet]

theorem execQueueEnable_quiet {q : QId} {x : W64} {s : State} {t : State} (h : execQueueEnable q x s = .next t) : t.quiet = s.quiet := by
  unfold execQueueEnable at h
  rcases onlyIf_next h with rfl | ⟨-, h⟩
  · rfl
  injection h with h; subst h; simp only [quiet_upd, State.sqCfgWrite_quiet]

theorem execQueueDisable_quiet {q : QId} {s : State} {t : State} (h : execQueueDisable q s = .next t) : t.quiet = s.quiet := by
  unfold execQueueDisable at h
  rcases onlyIf_next h with rfl | ⟨-, h⟩
  · rfl
  injection h with h; subst h; simp only [quiet_upd, State.disableQueue_quiet]

theorem execCqHead_quiet {q : QId} {x : W64} {s : State} {t : State} (h : execCqHead q x s = .next t) : t.quiet = s.quiet := by
  unfold execCqHead at h
  rcases onlyIf_next h with rfl | ⟨-, h⟩
  · rfl
  injection h with h; subst h; simp only [quiet_upd, State.cqHeadWrite_quiet]

theorem execI3cEntdaa_quiet {addr : Nat} {s : State} {t : State} (h : execI3cEntdaa addr s = .next t) : t.quiet = s.quiet := by
  unfold execI3cEntdaa at h
  rcases onlyIf_next h with rfl | ⟨-, h⟩
  · rfl
  injection h with h; subst h; simp only [quiet_upd, State.answer_quiet]

theorem execI3cRstdaa_quiet {s : State} {t : State} (h : execI3cRstdaa s = .next t) : t.quiet = s.quiet := by
  unfold execI3cRstdaa at h
  rcases onlyIf_next h with rfl | ⟨-, h⟩
  · rfl
  injection h with h; subst h; simp only [quiet_upd]

theorem execSmbusArp_quiet {addr : Nat} {s : State} {t : State} (h : execSmbusArp addr s = .next t) : t.quiet = s.quiet := by
  unfold execSmbusArp at h
  rcases onlyIf_next h with rfl | ⟨-, h⟩
  · rfl
  injection h with h; subst h; simp only [quiet_upd]

theorem execSetEndpointId_quiet {eid : Nat} {s : State} {t : State} (h : execSetEndpointId eid s = .next t) : t.quiet = s.quiet := by
  unfold execSetEndpointId at h
  simp only [Host.Outcome.next.injEq] at h
  subst h
  simp only [quiet_upd, State.mgmtMsg_quiet]

theorem execPollEvent_quiet {s : State} {t : State} (h : execPollEvent s = .next t) : t.quiet = s.quiet := by
  unfold execPollEvent at h
  simp only [Host.Outcome.next.injEq] at h
  subst h
  simp only [quiet_upd, State.mgmtMsg_quiet]

theorem execGetSensorReading_quiet {sensor : Nat} {s : State} {t : State} (h : execGetSensorReading sensor s = .next t) : t.quiet = s.quiet := by
  unfold execGetSensorReading at h
  simp only [Host.Outcome.next.injEq] at h
  subst h
  simp only [quiet_upd, State.mgmtMsg_quiet]

theorem execSetNumericEffecter_quiet {id : Nat} {v : Nat} {s : State} {t : State} (h : execSetNumericEffecter id v s = .next t) : t.quiet = s.quiet := by
  unfold execSetNumericEffecter at h
  simp only [Host.Outcome.next.injEq] at h
  subst h
  simp only [quiet_upd, State.mgmtMsg_quiet]

theorem execSetStateEffecter_quiet {id : Nat} {v : Nat} {s : State} {t : State} (h : execSetStateEffecter id v s = .next t) : t.quiet = s.quiet := by
  unfold execSetStateEffecter at h
  simp only [Host.Outcome.next.injEq] at h
  subst h
  simp only [quiet_upd, State.mgmtMsg_quiet]

theorem execRequestUpdate_quiet {len : Nat} {s : State} {t : State} (h : execRequestUpdate len s = .next t) : t.quiet = s.quiet := by
  unfold execRequestUpdate at h
  simp only [Host.Outcome.next.injEq] at h
  subst h
  simp only [quiet_upd, State.mgmtMsg_quiet]

theorem execRequestFirmwareData_quiet {data : List Byte} {s : State} {t : State} (h : execRequestFirmwareData data s = .next t) : t.quiet = s.quiet := by
  unfold execRequestFirmwareData at h
  simp only [Host.Outcome.next.injEq] at h
  subst h
  simp only [quiet_upd, State.mgmtMsg_quiet]

theorem execActivateFirmware_quiet {s : State} {t : State} (h : execActivateFirmware s = .next t) : t.quiet = s.quiet := by
  unfold execActivateFirmware at h
  simp only [Host.Outcome.next.injEq] at h
  subst h
  simp only [quiet_upd, State.mgmtMsg_quiet, State.activate_quiet]

theorem execCancelUpdate_quiet {s : State} {t : State} (h : execCancelUpdate s = .next t) : t.quiet = s.quiet := by
  unfold execCancelUpdate at h
  simp only [Host.Outcome.next.injEq] at h
  subst h
  simp only [quiet_upd, State.mgmtMsg_quiet]

theorem execSuppress_quiet {s : State} {t : State} (h : execSuppress s = .next t) : t.quiet = s.quiet := by
  unfold execSuppress at h
  rcases onlyIf_next h with rfl | ⟨-, h⟩
  · rfl
  injection h with h; subst h; simp only [quiet_upd, quiet_upd_sec, quiet_upd_fuses, apply_ite State.quiet, ite_self, foldl_quiet, foldl_quiet_snd, foldl_quiet_fst, implies_true, forall_const, List.foldl_cons, List.foldl_nil, State.logAlways_quiet, State.event_quiet]

theorem execEScatter_quiet {c : CoreId} {g : Guard} {rs : SReg} {post : Option SemId} {s : State} {t : State} (h : execEScatter c g rs post s = .next t) : t.quiet = s.quiet := by
  unfold execEScatter at h
  exact State.issueD_quiet h

theorem execEFlush_quiet {c : CoreId} {g : Guard} {rs : SReg} {post : Option SemId} {s : State} {t : State} (h : execEFlush c g rs post s = .next t) : t.quiet = s.quiet := by
  unfold execEFlush at h
  exact State.issueD_quiet h

theorem execCmbCfgWrite_quiet {c : CoreId} {g : Guard} {rs1 : SReg} {s : State} {t : State} (h : execCmbCfgWrite c g rs1 s = .next t) : t.quiet = s.quiet := by
  unfold execCmbCfgWrite at h
  exact State.issueS_quiet h

theorem execFlush_quiet {remote : Bool} {k : Nat} {s : State} {t : State} (h : execFlush remote k s = .next t) : t.quiet = s.quiet := by
  unfold execFlush at h
  rcases onlyIf_next h with rfl | ⟨-, h⟩
  · rfl
  repeat' split at h
  all_goals first
    | contradiction
    | (injection h with h; subst h; (try have p0 := congrArg (fun x => x.2.quiet) ‹State.applyGrad _ _ _ = _›); (try simp only [State.applyGrad_quiet] at p0); first | rfl | (simp only [quiet_upd, State.takeDeliv_quiet, State.badPacket_quiet, State.applyGrad_quiet, State.answerGrad_quiet]; done) | simp only [quiet_upd, State.takeDeliv_quiet, State.badPacket_quiet, State.applyGrad_quiet, State.answerGrad_quiet, *])
    | ((try have p0 := congrArg (fun x => x.2.quiet) ‹State.applyGrad _ _ _ = _›); (try simp only [State.applyGrad_quiet] at p0); first | assumption | (simp only [quiet_upd, State.takeDeliv_quiet, State.badPacket_quiet, State.applyGrad_quiet, State.answerGrad_quiet, *] at *; done) | simp_all only [quiet_upd, State.takeDeliv_quiet, State.badPacket_quiet, State.applyGrad_quiet, State.answerGrad_quiet])

theorem execFlushAck_quiet {remote : Bool} {k : Nat} {s : State} {t : State} (h : execFlushAck remote k s = .next t) : t.quiet = s.quiet := by
  unfold execFlushAck at h
  rcases onlyIf_next h with rfl | ⟨-, h⟩
  · rfl
  repeat' split at h
  all_goals first
    | contradiction
    | (injection h with h; subst h; (try have q0 := State.onResponse_quiet ‹_›); first | rfl | (simp only [↓quiet_upd, ↓quiet_upd_sec, ↓quiet_upd_fuses, apply_ite State.quiet, ite_self, foldl_quiet, foldl_quiet_snd, foldl_quiet_fst, implies_true, forall_const, List.foldl_cons, List.foldl_nil, State.ackGrad_quiet, State.freeLocal_quiet]; done) | simp only [↓quiet_upd, ↓quiet_upd_sec, ↓quiet_upd_fuses, apply_ite State.quiet, ite_self, foldl_quiet, foldl_quiet_snd, foldl_quiet_fst, implies_true, forall_const, List.foldl_cons, List.foldl_nil, State.ackGrad_quiet, State.freeLocal_quiet, *])
    | ((try have q0 := State.onResponse_quiet ‹_›); first | assumption | (simp only [↓quiet_upd, ↓quiet_upd_sec, ↓quiet_upd_fuses, apply_ite State.quiet, ite_self, foldl_quiet, foldl_quiet_snd, foldl_quiet_fst, implies_true, forall_const, List.foldl_cons, List.foldl_nil, State.ackGrad_quiet, State.freeLocal_quiet, *] at *; done) | simp_all only [↓quiet_upd, ↓quiet_upd_sec, ↓quiet_upd_fuses, apply_ite State.quiet, ite_self, foldl_quiet, foldl_quiet_snd, foldl_quiet_fst, implies_true, forall_const, List.foldl_cons, List.foldl_nil, State.ackGrad_quiet, State.freeLocal_quiet])

theorem execBankClearDone_quiet {n : CelId} {bank : Fin 2} {s : State} {t : State} (h : execBankClearDone n bank s = .next t) : t.quiet = s.quiet := by
  unfold execBankClearDone at h
  rcases onlyIf_next h with rfl | ⟨-, h⟩
  · rfl
  injection h with h; subst h; simp only [quiet_upd]

theorem execWorkItemEnd_quiet {c : CoreId} {s : State} {t : State} (h : execWorkItemEnd c s = .next t) : t.quiet = s.quiet := by
  unfold execWorkItemEnd at h
  rcases onlyIf_next h with rfl | ⟨-, h⟩
  · rfl
  dsimp only at h
  repeat' split at h
  all_goals first
    | contradiction
    | (injection h with h; subst h; (try have q0 := State.finishFlush_quiet ‹_›); first | rfl | (simp only [quiet_upd, State.closeItem_quiet]; done) | simp only [quiet_upd, State.closeItem_quiet, *])
    | ((try have q0 := State.finishFlush_quiet ‹_›); first | assumption | (simp only [quiet_upd, State.closeItem_quiet, *] at *; done) | simp_all only [quiet_upd, State.closeItem_quiet])

theorem execWorkItemDispatch_quiet {c : CoreId} {w : WorkItem} {s : State} {t : State} (h : execWorkItemDispatch c w s = .next t) : t.quiet = s.quiet := by
  unfold execWorkItemDispatch at h
  rcases onlyIf_next h with rfl | ⟨-, h⟩
  · rfl
  injection h with h; subst h; simp only [quiet_upd, apply_ite State.quiet, ite_self, State.swapMailbox_quiet, State.updCore_quiet]

theorem execMbxDoorbell_quiet {x : W64} {cfg : Option JobConfig} {s : State} {t : State} (h : execMbxDoorbell x cfg s = .next t) : t.quiet = s.quiet := by
  unfold execMbxDoorbell at h
  rcases onlyIf_next h with rfl | ⟨-, h⟩
  · rfl
  injection h with h; subst h; simp only [↓quiet_upd, ↓quiet_upd_sec, ↓quiet_upd_fuses, apply_ite State.quiet, ite_self, foldl_quiet, foldl_quiet_snd, foldl_quiet_fst, implies_true, forall_const, List.foldl_cons, List.foldl_nil, State.mbxDoorbell_quiet]

theorem execGetInfo_quiet {ch : Chan} {m : MbxReq} {s : State} {t : State} (h : execGetInfo ch m s = .next t) : t.quiet = s.quiet := by
  unfold execGetInfo at h
  exact State.mbRow_quiet h

theorem execAttach_quiet {ch : Chan} {m : MbxReq} {s : State} {t : State} (h : execAttach ch m s = .next t) : t.quiet = s.quiet := by
  unfold execAttach at h
  exact State.mbRow_quiet h

theorem execOpStatus_quiet {ch : Chan} {m : MbxReq} {s : State} {t : State} (h : execOpStatus ch m s = .next t) : t.quiet = s.quiet := by
  unfold execOpStatus at h
  exact State.mbRow_quiet h

theorem execJobLoad_quiet {ch : Chan} {m : MbxReq} {cfg : Option JobConfig} {s : State} {t : State} (h : execJobLoad ch m cfg s = .next t) : t.quiet = s.quiet := by
  unfold execJobLoad at h
  exact State.mbRow_quiet h

theorem execJobPark_quiet {ch : Chan} {m : MbxReq} {s : State} {t : State} (h : execJobPark ch m s = .next t) : t.quiet = s.quiet := by
  unfold execJobPark at h
  exact State.mbRow_quiet h

theorem execJobResume_quiet {ch : Chan} {m : MbxReq} {s : State} {t : State} (h : execJobResume ch m s = .next t) : t.quiet = s.quiet := by
  unfold execJobResume at h
  exact State.mbRow_quiet h

theorem execJobAbort_quiet {ch : Chan} {m : MbxReq} {s : State} {t : State} (h : execJobAbort ch m s = .next t) : t.quiet = s.quiet := by
  unfold execJobAbort at h
  exact State.mbRow_quiet h

theorem execJobStatus_quiet {ch : Chan} {m : MbxReq} {s : State} {t : State} (h : execJobStatus ch m s = .next t) : t.quiet = s.quiet := by
  unfold execJobStatus at h
  exact State.mbRow_quiet h

theorem execMbxExport_quiet {ch : Chan} {m : MbxReq} {s : State} {t : State} (h : execMbxExport ch m s = .next t) : t.quiet = s.quiet := by
  unfold execMbxExport at h
  exact State.mbRow_quiet h

theorem execMbxImport_quiet {ch : Chan} {m : MbxReq} {s : State} {t : State} (h : execMbxImport ch m s = .next t) : t.quiet = s.quiet := by
  unfold execMbxImport at h
  exact State.mbRow_quiet h

theorem execReshard_quiet {ch : Chan} {m : MbxReq} {cfg : Option JobConfig} {s : State} {t : State} (h : execReshard ch m cfg s = .next t) : t.quiet = s.quiet := by
  unfold execReshard at h
  exact State.mbRow_quiet h

theorem execPromoReset_quiet {ch : Chan} {m : MbxReq} {s : State} {t : State} (h : execPromoReset ch m s = .next t) : t.quiet = s.quiet := by
  unfold execPromoReset at h
  exact State.mbRow_quiet h

theorem execCkptFull_quiet {ch : Chan} {m : MbxReq} {s : State} {t : State} (h : execCkptFull ch m s = .next t) : t.quiet = s.quiet := by
  unfold execCkptFull at h
  exact State.mbRow_quiet h

theorem execPromenade_quiet {ch : Chan} {m : MbxReq} {s : State} {t : State} (h : execPromenade ch m s = .next t) : t.quiet = s.quiet := by
  unfold execPromenade at h
  exact State.mbRow_quiet h

theorem execLinkTest_quiet {ch : Chan} {m : MbxReq} {s : State} {t : State} (h : execLinkTest ch m s = .next t) : t.quiet = s.quiet := by
  unfold execLinkTest at h
  exact State.mbRow_quiet h

theorem execTraceSet_quiet {ch : Chan} {m : MbxReq} {s : State} {t : State} (h : execTraceSet ch m s = .next t) : t.quiet = s.quiet := by
  unfold execTraceSet at h
  exact State.mbRow_quiet h

theorem execLogInfo_quiet {ch : Chan} {m : MbxReq} {s : State} {t : State} (h : execLogInfo ch m s = .next t) : t.quiet = s.quiet := by
  unfold execLogInfo at h
  exact State.mbRow_quiet h

theorem execLogMark_quiet {ch : Chan} {m : MbxReq} {s : State} {t : State} (h : execLogMark ch m s = .next t) : t.quiet = s.quiet := by
  unfold execLogMark at h
  exact State.mbRow_quiet h

theorem execMCfg_quiet {c : CoreId} {g : Guard} {fmta : BitVec 4} {fmtb : BitVec 4} {sparse : BitVec 2} {s : State} {t : State} (h : execMCfg c g fmta fmtb sparse s = .next t) : t.quiet = s.quiet := by
  unfold execMCfg at h
  exact State.issueM_quiet h

theorem execMBload_quiet {c : CoreId} {g : Guard} {ag : AgId} {post : Option SemId} {kreg : SReg} {s : State} {t : State} (h : execMBload c g ag post kreg s = .next t) : t.quiet = s.quiet := by
  unfold execMBload at h
  exact State.issueM_quiet h

theorem execMPass_quiet {c : CoreId} {g : Guard} {ag : AgId} {bank : Bool} {keep : Bool} {post : Option SemId} {kreg : SReg} {s : State} {t : State} (h : execMPass c g ag bank keep post kreg s = .next t) : t.quiet = s.quiet := by
  unfold execMPass at h
  exact State.issueM_quiet h

theorem execPassFrontEndStart_quiet {c : CoreId} {s : State} {t : State} (h : execPassFrontEndStart c s = .next t) : t.quiet = s.quiet := by
  unfold execPassFrontEndStart at h
  rcases onlyIf_next h with rfl | ⟨-, h⟩
  · rfl
  injection h with h; subst h; simp only [↓quiet_upd, ↓quiet_upd_sec, ↓quiet_upd_fuses, apply_ite State.quiet, ite_self, foldl_quiet, foldl_quiet_snd, foldl_quiet_fst, implies_true, forall_const, List.foldl_cons, List.foldl_nil, State.updCore_quiet, State.drawn_quiet]

theorem execArrayIssueSlot_quiet {c : CoreId} {s : State} {t : State} (h : execArrayIssueSlot c s = .next t) : t.quiet = s.quiet := by
  unfold execArrayIssueSlot at h
  rcases onlyIf_next h with rfl | ⟨-, h⟩
  · rfl
  injection h with h; subst h; simp only [quiet_upd, State.withCore_quiet]

theorem execPassComplete_quiet {c : CoreId} {s : State} {t : State} (h : execPassComplete c s = .next t) : t.quiet = s.quiet := by
  unfold execPassComplete at h
  rcases onlyIf_next h with rfl | ⟨-, h⟩
  · rfl
  injection h with h; subst h; simp only [↓quiet_upd, ↓quiet_upd_sec, ↓quiet_upd_fuses, apply_ite State.quiet, ite_self, foldl_quiet, foldl_quiet_snd, foldl_quiet_fst, implies_true, forall_const, List.foldl_cons, List.foldl_nil, State.withCore_quiet, State.drawn_quiet]

theorem execBloadStart_quiet {c : CoreId} {s : State} {t : State} (h : execBloadStart c s = .next t) : t.quiet = s.quiet := by
  unfold execBloadStart at h
  rcases onlyIf_next h with rfl | ⟨-, h⟩
  · rfl
  injection h with h; subst h; simp only [↓quiet_upd, ↓quiet_upd_sec, ↓quiet_upd_fuses, apply_ite State.quiet, ite_self, foldl_quiet, foldl_quiet_snd, foldl_quiet_fst, implies_true, forall_const, List.foldl_cons, List.foldl_nil, State.updCore_quiet, State.drawn_quiet]

theorem execBloadSlotWrite_quiet {c : CoreId} {s : State} {t : State} (h : execBloadSlotWrite c s = .next t) : t.quiet = s.quiet := by
  unfold execBloadSlotWrite at h
  rcases onlyIf_next h with rfl | ⟨-, h⟩
  · rfl
  injection h with h; subst h; simp only [quiet_upd, State.withCore_quiet]

theorem execLevelStep_quiet {c : CoreId} {quiet : Bool} {s : State} {t : State} (h : execLevelStep c quiet s = .next t) : t.quiet = s.quiet := by
  unfold execLevelStep at h
  rcases onlyIf_next h with rfl | ⟨-, h⟩
  · rfl
  injection h with h; subst h; simp only [quiet_upd, State.updCore_quiet]

theorem execTopupDecrement_quiet {c : CoreId} {s : State} {t : State} (h : execTopupDecrement c s = .next t) : t.quiet = s.quiet := by
  unfold execTopupDecrement at h
  rcases onlyIf_next h with rfl | ⟨-, h⟩
  · rfl
  injection h with h; subst h; simp only [quiet_upd, State.updCore_quiet]

theorem execMemCommit_quiet {s : State} {t : State} (h : execMemCommit s = .next t) : t.quiet = s.quiet := by
  unfold execMemCommit at h
  rcases onlyIf_next h with rfl | ⟨-, h⟩
  · rfl
  injection h with h; subst h; simp only [quiet_upd, State.commitMem_quiet]

theorem execHbmWindowEnd_quiet {n : CelId} {ratio pc : Nat} {s : State} {t : State} (h : execHbmWindowEnd n ratio pc s = .next t) : t.quiet = s.quiet := by
  unfold execHbmWindowEnd at h
  rcases onlyIf_next h with rfl | ⟨-, h⟩
  · rfl
  injection h with h; subst h; simp only [↓quiet_upd, ↓quiet_upd_sec, ↓quiet_upd_fuses, apply_ite State.quiet, ite_self, foldl_quiet, foldl_quiet_snd, foldl_quiet_fst, implies_true, forall_const, List.foldl_cons, List.foldl_nil, State.event_quiet]

theorem execHbmCorrectedError_quiet {pc : Fin 1024} {past : Bool} {s : State} {t : State} (h : execHbmCorrectedError pc past s = .next t) : t.quiet = s.quiet := by
  unfold execHbmCorrectedError at h
  rcases onlyIf_next h with rfl | ⟨-, h⟩
  · rfl
  injection h with h; subst h; simp only [quiet_upd, apply_ite State.quiet, ite_self, State.markChannel_quiet]

theorem execStoreEcc_quiet {c : CoreId} {word : Nat} {passes : Bool} {s : State} {t : State} (h : execStoreEcc c word passes s = .next t) : t.quiet = s.quiet := by
  unfold execStoreEcc at h
  rcases onlyIf_next h with rfl | ⟨-, h⟩
  · rfl
  dsimp only at h
  repeat' split at h
  all_goals first
    | contradiction
    | (injection h with h; subst h; simp only [quiet_upd, State.eccFault_quiet, State.updCore_quiet, State.fence_quiet, State.failStep_quiet, State.withCore_quiet])

theorem execCsCorrectedError_quiet {c : CoreId} {past : Bool} {s : State} {t : State} (h : execCsCorrectedError c past s = .next t) : t.quiet = s.quiet := by
  unfold execCsCorrectedError at h
  rcases onlyIf_next h with rfl | ⟨-, h⟩
  · rfl
  injection h with h; subst h; simp only [quiet_upd, apply_ite State.quiet, ite_self, State.updCore_quiet]

theorem execCoreHang_quiet {c : CoreId} {s : State} {t : State} (h : execCoreHang c s = .next t) : t.quiet = s.quiet := by
  unfold execCoreHang at h
  rcases onlyIf_next h with rfl | ⟨-, h⟩
  · rfl
  injection h with h; subst h; simp only [quiet_upd, State.updCore_quiet, State.fence_quiet]

theorem execQNop_quiet {q : QId} {seq : W32} {s : State} {t : State} (h : execQNop q seq s = .next t) : t.quiet = s.quiet := by
  unfold execQNop at h
  rcases State.startOf_next h with rfl | rfl | ⟨_, _, _, h⟩
  · rfl
  · exact State.startEntry_quiet ..
  injection h with h; subst h; simp only [quiet_upd, State.startEntry_quiet]

theorem execQFence_quiet {q : QId} {seq : W32} {s : State} {t : State} (h : execQFence q seq s = .next t) : t.quiet = s.quiet := by
  unfold execQFence at h
  rcases State.startOf_next h with rfl | rfl | ⟨_, _, _, h⟩
  · rfl
  · exact State.startEntry_quiet ..
  injection h with h; subst h; simp only [quiet_upd, State.startEntry_quiet]

theorem execQCopyOut_quiet {q : QId} {seq : W32} {s : State} {t : State} (h : execQCopyOut q seq s = .next t) : t.quiet = s.quiet := by
  unfold execQCopyOut at h
  rcases State.startOf_next h with rfl | rfl | ⟨_, _, _, h⟩
  · rfl
  · exact State.startEntry_quiet ..
  dsimp only at h
  repeat' split at h
  all_goals first
    | contradiction
    | (injection h with h; subst h; first | rfl | (simp only [↓quiet_upd, ↓quiet_upd_sec, ↓quiet_upd_fuses, apply_ite State.quiet, ite_self, foldl_quiet, foldl_quiet_snd, foldl_quiet_fst, implies_true, forall_const, List.foldl_cons, List.foldl_nil, State.startEntry_quiet, State.touchLines_quiet, State.accessRecord_quiet]; done) | simp only [↓quiet_upd, ↓quiet_upd_sec, ↓quiet_upd_fuses, apply_ite State.quiet, ite_self, foldl_quiet, foldl_quiet_snd, foldl_quiet_fst, implies_true, forall_const, List.foldl_cons, List.foldl_nil, State.startEntry_quiet, State.touchLines_quiet, State.accessRecord_quiet, *])
    | (first | assumption | (simp only [↓quiet_upd, ↓quiet_upd_sec, ↓quiet_upd_fuses, apply_ite State.quiet, ite_self, foldl_quiet, foldl_quiet_snd, foldl_quiet_fst, implies_true, forall_const, List.foldl_cons, List.foldl_nil, State.startEntry_quiet, State.touchLines_quiet, State.accessRecord_quiet, *] at *; done) | simp_all only [↓quiet_upd, ↓quiet_upd_sec, ↓quiet_upd_fuses, apply_ite State.quiet, ite_self, foldl_quiet, foldl_quiet_snd, foldl_quiet_fst, implies_true, forall_const, List.foldl_cons, List.foldl_nil, State.startEntry_quiet, State.touchLines_quiet, State.accessRecord_quiet])

theorem execQFill_quiet {q : QId} {seq : W32} {s : State} {t : State} (h : execQFill q seq s = .next t) : t.quiet = s.quiet := by
  unfold execQFill at h
  rcases State.startOf_next h with rfl | rfl | ⟨_, _, _, h⟩
  · rfl
  · exact State.startEntry_quiet ..
  exact State.queueWrite_quiet h

theorem execQBatch_quiet {q : QId} {seq : W32} {s : State} {t : State} (h : execQBatch q seq s = .next t) : t.quiet = s.quiet := by
  unfold execQBatch at h
  rcases State.startOf_next h with rfl | rfl | ⟨_, _, _, h⟩
  · rfl
  · exact State.startEntry_quiet ..
  dsimp only at h
  repeat' split at h
  all_goals first
    | contradiction
    | (injection h with h; subst h; simp only [quiet_upd, State.startEntry_quiet])

theorem execQWaitStep_quiet {q : QId} {seq : W32} {s : State} {t : State} (h : execQWaitStep q seq s = .next t) : t.quiet = s.quiet := by
  unfold execQWaitStep at h
  rcases State.startOf_next h with rfl | rfl | ⟨_, _, _, h⟩
  · rfl
  · exact State.startEntry_quiet ..
  injection h with h; subst h; simp only [quiet_upd, State.startEntry_quiet]

theorem execQPost_quiet {q : QId} {seq : W32} {s : State} {t : State} (h : execQPost q seq s = .next t) : t.quiet = s.quiet := by
  unfold execQPost at h
  rcases State.startOf_next h with rfl | rfl | ⟨_, _, _, h⟩
  · rfl
  · exact State.startEntry_quiet ..
  dsimp only at h
  repeat' split at h
  all_goals first
    | contradiction
    | (injection h with h; subst h; simp only [quiet_upd, State.startEntry_quiet, State.postVcid_quiet])

theorem execCommandComplete_quiet {q : QId} {seq : W32} {s : State} {t : State} (h : execCommandComplete q seq s = .next t) : t.quiet = s.quiet := by
  unfold execCommandComplete at h
  rcases onlyIf_next h with rfl | ⟨-, h⟩
  · rfl
  dsimp only at h
  repeat' split at h
  all_goals first
    | contradiction
    | (injection h with h; subst h; simp only [quiet_upd, State.complete_quiet, State.visActions_quiet])

theorem execCompletionWrite_quiet {q : QId} {s : State} {t : State} (h : execCompletionWrite q s = .next t) : t.quiet = s.quiet := by
  unfold execCompletionWrite at h
  rcases onlyIf_next h with rfl | ⟨-, h⟩
  · rfl
  dsimp only at h
  repeat' split at h
  all_goals first
    | contradiction
    | (injection h with h; subst h; simp only [quiet_upd])

theorem execRegisterWrite_quiet {sp : RegSpace} {off : Nat} {size : Nat} {x : W64} {s : State} {t : State} (h : execRegisterWrite sp off size x s = .next t) : t.quiet = s.quiet := by
  unfold execRegisterWrite at h
  rcases onlyIf_next h with rfl | ⟨-, h⟩
  · rfl
  injection h with h; subst h; simp only [↓quiet_upd, ↓quiet_upd_sec, ↓quiet_upd_fuses, apply_ite State.quiet, ite_self, foldl_quiet, foldl_quiet_snd, foldl_quiet_fst, implies_true, forall_const, List.foldl_cons, List.foldl_nil, State.regWrite_quiet]

theorem execBundleFetch_quiet {c : CoreId} {s : State} {t : State} (h : execBundleFetch c s = .next t) : t.quiet = s.quiet := by
  unfold execBundleFetch at h
  exact State.fetch_quiet h

theorem execSlotNop_quiet {c : CoreId} {g : Guard} {s : State} {t : State} (h : execSlotNop c g s = .next t) : t.quiet = s.quiet := by
  unfold execSlotNop at h
  exact State.issueS_quiet h

theorem execSAdd_quiet {c : CoreId} {g : Guard} {rd : SReg} {rs1 : SReg} {rs2 : SReg} {s : State} {t : State} (h : execSAdd c g rd rs1 rs2 s = .next t) : t.quiet = s.quiet := by
  unfold execSAdd at h
  exact State.issueS_quiet h

theorem execSSub_quiet {c : CoreId} {g : Guard} {rd : SReg} {rs1 : SReg} {rs2 : SReg} {s : State} {t : State} (h : execSSub c g rd rs1 rs2 s = .next t) : t.quiet = s.quiet := by
  unfold execSSub at h
  exact State.issueS_quiet h

theorem execSAnd_quiet {c : CoreId} {g : Guard} {rd : SReg} {rs1 : SReg} {rs2 : SReg} {s : State} {t : State} (h : execSAnd c g rd rs1 rs2 s = .next t) : t.quiet = s.quiet := by
  unfold execSAnd at h
  exact State.issueS_quiet h

theorem execSOr_quiet {c : CoreId} {g : Guard} {rd : SReg} {rs1 : SReg} {rs2 : SReg} {s : State} {t : State} (h : execSOr c g rd rs1 rs2 s = .next t) : t.quiet = s.quiet := by
  unfold execSOr at h
  exact State.issueS_quiet h

theorem execSXor_quiet {c : CoreId} {g : Guard} {rd : SReg} {rs1 : SReg} {rs2 : SReg} {s : State} {t : State} (h : execSXor c g rd rs1 rs2 s = .next t) : t.quiet = s.quiet := by
  unfold execSXor at h
  exact State.issueS_quiet h

theorem execSShl_quiet {c : CoreId} {g : Guard} {rd : SReg} {rs1 : SReg} {rs2 : SReg} {s : State} {t : State} (h : execSShl c g rd rs1 rs2 s = .next t) : t.quiet = s.quiet := by
  unfold execSShl at h
  exact State.issueS_quiet h

theorem execSShr_quiet {c : CoreId} {g : Guard} {rd : SReg} {rs1 : SReg} {rs2 : SReg} {s : State} {t : State} (h : execSShr c g rd rs1 rs2 s = .next t) : t.quiet = s.quiet := by
  unfold execSShr at h
  exact State.issueS_quiet h

theorem execSSra_quiet {c : CoreId} {g : Guard} {rd : SReg} {rs1 : SReg} {rs2 : SReg} {s : State} {t : State} (h : execSSra c g rd rs1 rs2 s = .next t) : t.quiet = s.quiet := by
  unfold execSSra at h
  exact State.issueS_quiet h

theorem execSMul_quiet {c : CoreId} {g : Guard} {rd : SReg} {rs1 : SReg} {rs2 : SReg} {s : State} {t : State} (h : execSMul c g rd rs1 rs2 s = .next t) : t.quiet = s.quiet := by
  unfold execSMul at h
  exact State.issueS_quiet h

theorem execSMin_quiet {c : CoreId} {g : Guard} {rd : SReg} {rs1 : SReg} {rs2 : SReg} {s : State} {t : State} (h : execSMin c g rd rs1 rs2 s = .next t) : t.quiet = s.quiet := by
  unfold execSMin at h
  exact State.issueS_quiet h

theorem execSMax_quiet {c : CoreId} {g : Guard} {rd : SReg} {rs1 : SReg} {rs2 : SReg} {s : State} {t : State} (h : execSMax c g rd rs1 rs2 s = .next t) : t.quiet = s.quiet := by
  unfold execSMax at h
  exact State.issueS_quiet h

theorem execSAddi_quiet {c : CoreId} {g : Guard} {rd : SReg} {rs1 : SReg} {imm : BitVec 12} {s : State} {t : State} (h : execSAddi c g rd rs1 imm s = .next t) : t.quiet = s.quiet := by
  unfold execSAddi at h
  exact State.issueS_quiet h

theorem execSLi_quiet {c : CoreId} {g : Guard} {rd : SReg} {imm : BitVec 17} {s : State} {t : State} (h : execSLi c g rd imm s = .next t) : t.quiet = s.quiet := by
  unfold execSLi at h
  exact State.issueS_quiet h

theorem execSSli_quiet {c : CoreId} {g : Guard} {rd : SReg} {imm : BitVec 16} {s : State} {t : State} (h : execSSli c g rd imm s = .next t) : t.quiet = s.quiet := by
  unfold execSSli at h
  exact State.issueS_quiet h

theorem execSCmp_quiet {c : CoreId} {g : Guard} {pd : PReg} {rs1 : SReg} {rs2 : SReg} {fn : BitVec 7} {s : State} {t : State} (h : execSCmp c g pd rs1 rs2 fn s = .next t) : t.quiet = s.quiet := by
  unfold execSCmp at h
  exact State.issueS_quiet h

theorem execSCmpi_quiet {c : CoreId} {g : Guard} {pd : PReg} {rs1 : Fin 16} {imm : BitVec 12} {fn : BitVec 3} {s : State} {t : State} (h : execSCmpi c g pd rs1 imm fn s = .next t) : t.quiet = s.quiet := by
  unfold execSCmpi at h
  exact State.issueS_quiet h

theorem execSPop_quiet {c : CoreId} {g : Guard} {pd : PReg} {pa : PReg} {pb : PReg} {fn : BitVec 4} {s : State} {t : State} (h : execSPop c g pd pa pb fn s = .next t) : t.quiet = s.quiet := by
  unfold execSPop at h
  exact State.issueS_quiet h

theorem execSLd_quiet {c : CoreId} {g : Guard} {rd : SReg} {rs1 : SReg} {imm : BitVec 12} {s : State} {t : State} (h : execSLd c g rd rs1 imm s = .next t) : t.quiet = s.quiet := by
  unfold execSLd at h
  exact State.issueS_quiet h

theorem execSSt_quiet {c : CoreId} {g : Guard} {rd : SReg} {rs1 : SReg} {imm : BitVec 12} {s : State} {t : State} (h : execSSt c g rd rs1 imm s = .next t) : t.quiet = s.quiet := by
  unfold execSSt at h
  exact State.issueS_quiet h

theorem execSFadd_quiet {c : CoreId} {g : Guard} {rd : SReg} {rs1 : SReg} {rs2 : SReg} {s : State} {t : State} (h : execSFadd c g rd rs1 rs2 s = .next t) : t.quiet = s.quiet := by
  unfold execSFadd at h
  exact State.issueS_quiet h

theorem execSFmul_quiet {c : CoreId} {g : Guard} {rd : SReg} {rs1 : SReg} {rs2 : SReg} {s : State} {t : State} (h : execSFmul c g rd rs1 rs2 s = .next t) : t.quiet = s.quiet := by
  unfold execSFmul at h
  exact State.issueS_quiet h

theorem execSFma_quiet {c : CoreId} {g : Guard} {rd : SReg} {rs1 : SReg} {rs2 : SReg} {s : State} {t : State} (h : execSFma c g rd rs1 rs2 s = .next t) : t.quiet = s.quiet := by
  unfold execSFma at h
  exact State.issueS_quiet h

theorem execSFcvt_quiet {c : CoreId} {g : Guard} {rd : SReg} {rs1 : SReg} {fn : BitVec 7} {s : State} {t : State} (h : execSFcvt c g rd rs1 fn s = .next t) : t.quiet = s.quiet := by
  unfold execSFcvt at h
  exact State.issueS_quiet h

theorem execSCsrr_quiet {c : CoreId} {g : Guard} {rd : SReg} {n : BitVec 12} {s : State} {t : State} (h : execSCsrr c g rd n s = .next t) : t.quiet = s.quiet := by
  unfold execSCsrr at h
  exact State.issueS_quiet h

theorem execSCsrw_quiet {c : CoreId} {g : Guard} {n : BitVec 12} {rs1 : SReg} {s : State} {t : State} (h : execSCsrw c g n rs1 s = .next t) : t.quiet = s.quiet := by
  unfold execSCsrw at h
  exact State.issueS_quiet h

theorem execSJmp_quiet {c : CoreId} {g : Guard} {off : BitVec 22} {s : State} {t : State} (h : execSJmp c g off s = .next t) : t.quiet = s.quiet := by
  unfold execSJmp at h
  exact State.issueS_quiet h

theorem execSCall_quiet {c : CoreId} {g : Guard} {off : BitVec 22} {s : State} {t : State} (h : execSCall c g off s = .next t) : t.quiet = s.quiet := by
  unfold execSCall at h
  exact State.issueS_quiet h

theorem execSRet_quiet {c : CoreId} {g : Guard} {s : State} {t : State} (h : execSRet c g s = .next t) : t.quiet = s.quiet := by
  unfold execSRet at h
  exact State.issueS_quiet h

theorem execSLoop_quiet {c : CoreId} {g : Guard} {rs1 : SReg} {body : BitVec 12} {s : State} {t : State} (h : execSLoop c g rs1 body s = .next t) : t.quiet = s.quiet := by
  unfold execSLoop at h
  exact State.issueS_quiet h

theorem execSHalt_quiet {c : CoreId} {g : Guard} {s : State} {t : State} (h : execSHalt c g s = .next t) : t.quiet = s.quiet := by
  unfold execSHalt at h
  exact State.issueS_quiet h

theorem execStartBarrierDone_quiet {s : State} {t : State} (h : execStartBarrierDone s = .next t) : t.quiet = s.quiet := by
  unfold execStartBarrierDone at h
  rcases onlyIf_next h with rfl | ⟨-, h⟩
  · rfl
  injection h with h; subst h; simp only [quiet_upd, State.setJob_quiet, State.endOpOf_quiet, State.serveBoundary_quiet]

theorem execStepStart_quiet {s : State} {t : State} (h : execStepStart s = .next t) : t.quiet = s.quiet := by
  unfold execStepStart at h
  rcases onlyIf_next h with rfl | ⟨-, h⟩
  · rfl
  dsimp only at h
  repeat' split at h
  all_goals first
    | contradiction
    | (injection h with h; subst h; simp only [quiet_upd, State.claimAll_quiet, State.applyConfigs_quiet, State.healFirmware_quiet, State.setMicros_quiet])

theorem execBackwardCloseBarrier_quiet {govf : Bool} {fail : Bool} {s : State} {t : State} (h : execBackwardCloseBarrier govf fail s = .next t) : t.quiet = s.quiet := by
  unfold execBackwardCloseBarrier at h
  rcases onlyIf_next h with rfl | ⟨-, h⟩
  · rfl
  dsimp only at h
  repeat' split at h
  all_goals first
    | contradiction
    | (injection h with h; subst h; simp only [quiet_upd, State.failNow_quiet, State.dropAllReplicas_quiet, State.sealBanks_quiet, State.commitStep_quiet, State.payState_quiet])

theorem execYWait_quiet {c : CoreId} {g : Guard} {sem : SemId} {n : BitVec 8} {s : State} {t : State} (h : execYWait c g sem n s = .next t) : t.quiet = s.quiet := by
  unfold execYWait at h
  exact State.issueD_quiet h

theorem execYPost_quiet {c : CoreId} {g : Guard} {sem : SemId} {n : BitVec 8} {s : State} {t : State} (h : execYPost c g sem n s = .next t) : t.quiet = s.quiet := by
  unfold execYPost at h
  exact State.issueD_quiet h

theorem execYPostr_quiet {c : CoreId} {g : Guard} {rv : SReg} {msem : Fin 16} {n : BitVec 8} {s : State} {t : State} (h : execYPostr c g rv msem n s = .next t) : t.quiet = s.quiet := by
  unfold execYPostr at h
  exact State.issueD_quiet h

theorem execYSeg_quiet {c : CoreId} {g : Guard} {rs : SReg} {s : State} {t : State} (h : execYSeg c g rs s = .next t) : t.quiet = s.quiet := by
  unfold execYSeg at h
  exact State.issueD_quiet h

theorem execYCommit_quiet {c : CoreId} {g : Guard} {s : State} {t : State} (h : execYCommit c g s = .next t) : t.quiet = s.quiet := by
  unfold execYCommit at h
  exact State.issueD_quiet h

theorem execRewindAccClear_quiet {c : CoreId} {s : State} {t : State} (h : execRewindAccClear c s = .next t) : t.quiet = s.quiet := by
  unfold execRewindAccClear at h
  rcases onlyIf_next h with rfl | ⟨-, h⟩
  · rfl
  injection h with h; subst h; simp only [quiet_upd, State.updCore_quiet]

theorem execCoreStall_quiet {c : CoreId} {sem : SemId} {s : State} {t : State} (h : execCoreStall c sem s = .next t) : t.quiet = s.quiet := by
  unfold execCoreStall at h
  rcases onlyIf_next h with rfl | ⟨-, h⟩
  · rfl
  injection h with h; subst h; simp only [quiet_upd, State.event_quiet, State.drawn_quiet]

theorem execWorklistReady_quiet {n : CelId} {s : State} {t : State} (h : execWorklistReady n s = .next t) : t.quiet = s.quiet := by
  unfold execWorklistReady at h
  rcases onlyIf_next h with rfl | ⟨-, h⟩
  · rfl
  injection h with h; subst h; simp only [quiet_upd]

theorem execUpdateTensorStart_quiet {n : CelId} {s : State} {t : State} (h : execUpdateTensorStart n s = .next t) : t.quiet = s.quiet := by
  unfold execUpdateTensorStart at h
  rcases onlyIf_next h with rfl | ⟨-, h⟩
  · rfl
  dsimp only at h
  repeat' split at h
  all_goals first
    | contradiction
    | (injection h with h; subst h; simp only [quiet_upd, State.openJournal_quiet, State.formNorms_quiet, State.finishTensor_quiet, State.payState_quiet])

theorem execUpdateStop_quiet {n : CelId} {s : State} {t : State} (h : execUpdateStop n s = .next t) : t.quiet = s.quiet := by
  unfold execUpdateStop at h
  rcases onlyIf_next h with rfl | ⟨-, h⟩
  · rfl
  injection h with h; subst h; simp only [quiet_upd]

theorem execJournalRecovery_quiet {n : CelId} {s : State} {t : State} (h : execJournalRecovery n s = .next t) : t.quiet = s.quiet := by
  unfold execJournalRecovery at h
  rcases onlyIf_next h with rfl | ⟨-, h⟩
  · rfl
  injection h with h; subst h; simp only [↓quiet_upd, ↓quiet_upd_sec, ↓quiet_upd_fuses, apply_ite State.quiet, ite_self, foldl_quiet, foldl_quiet_snd, foldl_quiet_fst, implies_true, forall_const, List.foldl_cons, List.foldl_nil, State.recoverTensor_quiet, State.releaseRecovered_quiet, State.payState_quiet]

theorem execScrubGroup_quiet {n : CelId} {s : State} {t : State} (h : execScrubGroup n s = .next t) : t.quiet = s.quiet := by
  unfold execScrubGroup at h
  rcases onlyIf_next h with rfl | ⟨-, h⟩
  · rfl
  dsimp only at h
  repeat' split at h
  all_goals first
    | contradiction
    | (injection h with h; subst h; simp only [quiet_upd, State.scrubGroup_quiet, State.event_quiet])

theorem execVChain_quiet {c : CoreId} {g : Guard} {rs : SReg} {post : Option SemId} {s : State} {t : State} (h : execVChain c g rs post s = .next t) : t.quiet = s.quiet := by
  unfold execVChain at h
  exact State.issueV_quiet h

theorem execVLd_quiet {c : CoreId} {g : Guard} {vd : VReg} {ag : AgId} {s : State} {t : State} (h : execVLd c g vd ag s = .next t) : t.quiet = s.quiet := by
  unfold execVLd at h
  exact State.issueV_quiet h

theorem execVSt_quiet {c : CoreId} {g : Guard} {vs : VReg} {ag : AgId} {s : State} {t : State} (h : execVSt c g vs ag s = .next t) : t.quiet = s.quiet := by
  unfold execVSt at h
  exact State.issueV_quiet h

theorem execVAcc_quiet {c : CoreId} {g : Guard} {vd : VReg} {bank : Bool} {half : Bool} {r : Fin 32} {s : State} {t : State} (h : execVAcc c g vd bank half r s = .next t) : t.quiet = s.quiet := by
  unfold execVAcc at h
  exact State.issueV_quiet h

theorem execVRed_quiet {c : CoreId} {g : Guard} {vd : VReg} {va : VReg} {fn : BitVec 4} {s : State} {t : State} (h : execVRed c g vd va fn s = .next t) : t.quiet = s.quiet := by
  unfold execVRed at h
  exact State.issueV_quiet h

theorem execVMvs_quiet {c : CoreId} {g : Guard} {sd : SReg} {va : VReg} {idx : Fin 64} {s : State} {t : State} (h : execVMvs c g sd va idx s = .next t) : t.quiet = s.quiet := by
  unfold execVMvs at h
  exact State.issueV_quiet h

theorem execVSpl_quiet {c : CoreId} {g : Guard} {vd : VReg} {rs : SReg} {s : State} {t : State} (h : execVSpl c g vd rs s = .next t) : t.quiet = s.quiet := by
  unfold execVSpl at h
  exact State.issueV_quiet h

theorem execVOp_quiet {c : CoreId} {g : Guard} {code : BitVec 9} {vd : VReg} {va : VReg} {vb : VReg} {s : State} {t : State} (h : execVOp c g code vd va vb s = .next t) : t.quiet = s.quiet := by
  unfold execVOp at h
  exact State.issueV_quiet h

theorem execChainStart_quiet {c : CoreId} {s : State} {t : State} (h : execChainStart c s = .next t) : t.quiet = s.quiet := by
  unfold execChainStart at h
  rcases onlyIf_next h with rfl | ⟨-, h⟩
  · rfl
  repeat' split at h
  all_goals first
    | contradiction
    | (injection h with h; subst h; first | rfl | (simp only [↓quiet_upd, ↓quiet_upd_sec, ↓quiet_upd_fuses, apply_ite State.quiet, ite_self, foldl_quiet, foldl_quiet_snd, foldl_quiet_fst, implies_true, forall_const, List.foldl_cons, List.foldl_nil, State.chainFault_quiet, State.setCore_quiet, State.drawn_quiet]; done) | simp only [↓quiet_upd, ↓quiet_upd_sec, ↓quiet_upd_fuses, apply_ite State.quiet, ite_self, foldl_quiet, foldl_quiet_snd, foldl_quiet_fst, implies_true, forall_const, List.foldl_cons, List.foldl_nil, State.chainFault_quiet, State.setCore_quiet, State.drawn_quiet, *])
    | (first | assumption | (simp only [↓quiet_upd, ↓quiet_upd_sec, ↓quiet_upd_fuses, apply_ite State.quiet, ite_self, foldl_quiet, foldl_quiet_snd, foldl_quiet_fst, implies_true, forall_const, List.foldl_cons, List.foldl_nil, State.chainFault_quiet, State.setCore_quiet, State.drawn_quiet, *] at *; done) | simp_all only [↓quiet_upd, ↓quiet_upd_sec, ↓quiet_upd_fuses, apply_ite State.quiet, ite_self, foldl_quiet, foldl_quiet_snd, foldl_quiet_fst, implies_true, forall_const, List.foldl_cons, List.foldl_nil, State.chainFault_quiet, State.setCore_quiet, State.drawn_quiet])

theorem execChainComplete_quiet {c : CoreId} {s : State} {t : State} (h : execChainComplete c s = .next t) : t.quiet = s.quiet := by
  unfold execChainComplete at h
  rcases onlyIf_next h with rfl | ⟨-, h⟩
  · rfl
  dsimp only at h
  repeat' split at h
  all_goals first
    | contradiction
    | (injection h with h; subst h; first | rfl | (simp only [↓quiet_upd, ↓quiet_upd_sec, ↓quiet_upd_fuses, apply_ite State.quiet, ite_self, foldl_quiet, foldl_quiet_snd, foldl_quiet_fst, implies_true, forall_const, List.foldl_cons, List.foldl_nil, State.withCore_quiet, State.drawn_quiet, State.completionPost_quiet]; done) | simp only [↓quiet_upd, ↓quiet_upd_sec, ↓quiet_upd_fuses, apply_ite State.quiet, ite_self, foldl_quiet, foldl_quiet_snd, foldl_quiet_fst, implies_true, forall_const, List.foldl_cons, List.foldl_nil, State.withCore_quiet, State.drawn_quiet, State.completionPost_quiet, *])
    | (first | assumption | (simp only [↓quiet_upd, ↓quiet_upd_sec, ↓quiet_upd_fuses, apply_ite State.quiet, ite_self, foldl_quiet, foldl_quiet_snd, foldl_quiet_fst, implies_true, forall_const, List.foldl_cons, List.foldl_nil, State.withCore_quiet, State.drawn_quiet, State.completionPost_quiet, *] at *; done) | simp_all only [↓quiet_upd, ↓quiet_upd_sec, ↓quiet_upd_fuses, apply_ite State.quiet, ite_self, foldl_quiet, foldl_quiet_snd, foldl_quiet_fst, implies_true, forall_const, List.foldl_cons, List.foldl_nil, State.withCore_quiet, State.drawn_quiet, State.completionPost_quiet])

end Sys2Proof.Machine
end

