-- ==== Sys2Proof/Laws/Issue.lean ====
section
/-! SUPPORT. What the issue of a one-slot bundle answers: one lemma for each slot and each way it can go. -/

namespace Sys2Proof.Machine

@[simp] theorem Guard.always_holds (r : CoreRegs) : Guard.always.holds r = true := by
  simp [Guard.always, Guard.holds, CoreRegs.pget]

/-- A bundle that stalls or faults nowhere and issues without events or requests. -/
theorem issue_plain {s : State} {c : CoreId} {b : Bundle} {x : Core} {f : Flow}
    (hf : s.mayFetch c = true)
    (hi : s.cores[c].tryIssue (s.env c) b =
      .issued { x with regs := x.regs.advance f, ctl := { x.ctl with waiting := false, halting := f = .halt } } [] .none (f = .halt)) :
    s.issue c b = .next (if f = .halt then (s.issued c x f).startHalt c else s.issued c x f) := by
  unfold State.issue
  rw [hf]
  simp only [Bool.not_true, if_false, hi, State.serveReq, State.withCore, List.foldl_nil, State.issued, Bool.false_eq_true]
  by_cases h : f = .halt <;> simp [h]

/-- A bundle that faults stops the core. -/
theorem issue_fault {s : State} {c : CoreId} {b : Bundle} {k : Nat} (hf : s.mayFetch c = true)
    (hi : s.cores[c].tryIssue (s.env c) b = .fault k) :
    s.issue c b = .next (s.coreFault c k s.cores[c].regs.pc) := by
  unfold State.issue
  rw [hf]
  simp only [Bool.not_true, if_false, hi, Bool.false_eq_true]

/-- A bundle that issues with events or a request for the module. -/
theorem issue_req {s : State} {c : CoreId} {b : Bundle} {y : Core} {evs : List CoreEv} {req : DReq} (hf : s.mayFetch c = true)
    (hi : s.cores[c].tryIssue (s.env c) b = .issued y evs req false) :
    s.issue c b = .next (((s.withCore c (y, evs)).drawn freeStep).serveReq c s.cores[c].regs.pc req) := by
  unfold State.issue
  rw [hf]
  simp only [Bool.not_true, if_false, hi, Bool.false_eq_true]

/-- The core-level part of issuing one scalar slot. -/
theorem tryIssue_S {k : Core} {env : CoreEnv} {g : Guard} {op : SOp} (hg : g.holds k.regs = true)
    (hl : op.legal = true) (hd : SOp.fault k.seg.isOpen (some op) = none) (hw : k.stallS (some op) = false)
    (hi : k.issueFault (k.execS env k.regs op).store op .nop = none) :
    k.tryIssue env { Bundle.nops with sg := g, s := (some op).filter SOp.legal } =
      .issued { k.execS env k.regs op with
          regs := (k.execS env k.regs op).regs.advance (op.flow k.regs),
          ctl := { (k.execS env k.regs op).ctl with waiting := false, halting := op.flow k.regs = .halt } } [] .none
        (op.flow k.regs = .halt) := by
  have hb : ({ Bundle.nops with sg := g, s := (some op).filter SOp.legal } : Bundle).live k.regs =
      ⟨some op, some .nop, some .nop, some .nop⟩ := by
    simp [Bundle.live, Bundle.nops, hg, hl]
  have hf : Live.fault ⟨some op, some .nop, some .nop, some .nop⟩ k.seg.isOpen = none := by
    simp only [Live.fault, hd]; rfl
  have hs : k.stalls ⟨some op, some .nop, some .nop, some .nop⟩ = false := by
    simp only [Core.stalls, hw, Core.stallM, Core.stallV, Core.stallD]; rfl
  have he : k.execSmv env op .nop .nop = k.execS env k.regs op := rfl
  unfold Core.tryIssue
  simp only [hb, hf, hs, he, hi]
  rfl

/-- The core-level part of issuing one matrix slot. -/
theorem tryIssue_M {k : Core} {env : CoreEnv} {g : Guard} {op : MOp} (hg : g.holds k.regs = true)
    (hl : op.legal = true) (hd : MOp.fault k.seg.isOpen (some op) = none) (hw : k.stallM (some op) = false) :
    k.tryIssue env { Bundle.nops with mg := g, m := (some op).filter MOp.legal } =
      .issued { k.execM k op with
          regs := (k.execM k op).regs.advance .seq,
          ctl := { (k.execM k op).ctl with waiting := false, halting := Flow.seq = .halt } } [] .none
        (Flow.seq = .halt) := by
  have hb : ({ Bundle.nops with mg := g, m := (some op).filter MOp.legal } : Bundle).live k.regs =
      ⟨some .nop, some op, some .nop, some .nop⟩ := by
    simp [Bundle.live, Bundle.nops, hg, hl]
  have hf : Live.fault ⟨some .nop, some op, some .nop, some .nop⟩ k.seg.isOpen = none := by
    simp only [Live.fault, hd]; rfl
  have hs : k.stalls ⟨some .nop, some op, some .nop, some .nop⟩ = false := by
    simp only [Core.stalls, hw, Core.stallS, Core.stallV, Core.stallD]; rfl
  unfold Core.tryIssue
  simp only [hb, hf, hs]
  rfl

/-- The core-level part of issuing one vector slot. -/
theorem tryIssue_V {k : Core} {env : CoreEnv} {g : Guard} {op : VOp} (hg : g.holds k.regs = true)
    (hl : op.legal = true) (hd : VOp.fault k.seg.isOpen (some op) = none)
    (hs : k.stalls ⟨some .nop, some .nop, some op, some .nop⟩ = false) :
    k.tryIssue env { Bundle.nops with vg := g, v := (some op).filter VOp.legal } =
      .issued { k.execV k env.free none op with
          regs := (k.execV k env.free none op).regs.advance .seq,
          ctl := { (k.execV k env.free none op).ctl with waiting := false, halting := Flow.seq = .halt } } [] .none
        (Flow.seq = .halt) := by
  have hb : ({ Bundle.nops with vg := g, v := (some op).filter VOp.legal } : Bundle).live k.regs =
      ⟨some .nop, some .nop, some op, some .nop⟩ := by
    simp [Bundle.live, Bundle.nops, hg, hl]
  have hf : Live.fault ⟨some .nop, some .nop, some op, some .nop⟩ k.seg.isOpen = none := by
    simp only [Live.fault, hd]; rfl
  unfold Core.tryIssue
  simp only [hb, hf, hs]
  rfl

/-- The core-level part of issuing one move/sync slot. -/
theorem tryIssue_D {k : Core} {env : CoreEnv} {g : Guard} {op : DOp}
    (hg : g.holds k.regs = true) (hd : DOp.fault k.seg.isOpen (some op) = none) (hsem : k.waitsSem (some op) = false)
    (hs : k.stalls ⟨some .nop, some .nop, some .nop, some op⟩ = false) (hi : k.issueFault k.store .nop op = none) :
    k.tryIssue env { Bundle.nops with dg := g, d := some op } =
      .issued { (k.execD k env.free op).1 with
          regs := (k.execD k env.free op).1.regs.advance .seq,
          ctl := { (k.execD k env.free op).1.ctl with waiting := false, halting := Flow.seq = .halt } }
        (k.execD k env.free op).2.1 (k.execD k env.free op).2.2 (Flow.seq = .halt) := by
  have hb : ({ Bundle.nops with dg := g, d := some op } : Bundle).live k.regs = ⟨some .nop, some .nop, some .nop, some op⟩ := by
    simp [Bundle.live, Bundle.nops, hg]
  have hf : Live.fault ⟨some .nop, some .nop, some .nop, some op⟩ k.seg.isOpen = none := by
    simp only [Live.fault, hd]; rfl
  have he : k.execSmv env .nop .nop .nop = k := rfl
  unfold Core.tryIssue
  simp only [hb, hf, hsem, hs, he, hi]
  rfl

/-- One operation more finds room, or needs none (R55). -/
theorem room_ok {k : Core} {l : Live} (h1 : l.needs ≤ 1) (hn : l.needs = 0 ∨ k.outstanding < 32) :
    (decide (l.needs ≠ 0) && decide (32 < k.outstanding + l.needs)) = false := by
  rcases hn with h0 | h0
  · simp [h0]
  · simp only [Bool.and_eq_false_iff, decide_eq_false_iff_not]
    right; omega

/-- A bundle whose executing slots have a decode fault. -/
theorem tryIssue_fault {k : Core} {env : CoreEnv} {b : Bundle} {f : Nat} (h : (b.live k.regs).fault k.seg.isOpen = some f) :
    k.tryIssue env b = .fault f := by
  unfold Core.tryIssue
  simp only [h]

/-- A scalar slot that can issue. -/
theorem issueS_ok {s : State} {c : CoreId} {g : Guard} {op : SOp} (h : s.runs c g) (hl : op.legal = true)
    (hd : SOp.fault s.cores[c].seg.isOpen (some op) = none) (hw : s.cores[c].stallS (some op) = false)
    (hi : s.cores[c].issueFault (s.cores[c].execS (s.env c) s.cores[c].regs op).store op .nop = none) :
    s.issueS c g op = .next (if op.flow s.cores[c].regs = .halt
      then (s.issued c (s.cores[c].execS (s.env c) s.cores[c].regs op) (op.flow s.cores[c].regs)).startHalt c
      else s.issued c (s.cores[c].execS (s.env c) s.cores[c].regs op) (op.flow s.cores[c].regs)) :=
  issue_plain h.1 (tryIssue_S h.2 hl hd hw hi)

/-- A scalar slot that faults at decode. -/
theorem issueS_fault {s : State} {c : CoreId} {g : Guard} {op : SOp} {k : Nat} (h : s.runs c g)
    (hd : SOp.fault s.cores[c].seg.isOpen ((some op).filter SOp.legal) = some k) :
    s.issueS c g op = .next (s.coreFault c k s.cores[c].regs.pc) := by
  refine issue_fault h.1 (tryIssue_fault ?_)
  have hg := h.2
  generalize s.cores[c] = x at hd hg
  simp only [Bundle.live, Bundle.nops, hg, if_true, Live.fault, hd]; rfl

/-- A scalar slot with a value outside its tables (R47). -/
theorem issueS_illegal {s : State} {c : CoreId} {g : Guard} {op : SOp} (h : s.runs c g) (hl : op.legal = false) :
    s.issueS c g op = .next (s.coreFault c 1 s.cores[c].regs.pc) :=
  issueS_fault h (by rw [show (some op).filter SOp.legal = none by simp only [Option.filter, hl]; rfl]; rfl)

/-- A matrix slot with a value outside its tables (R47). -/
theorem issueM_illegal {s : State} {c : CoreId} {g : Guard} {op : MOp} (h : s.runs c g) (hl : op.legal = false) :
    s.issueM c g op = .next (s.coreFault c 1 s.cores[c].regs.pc) := by
  refine issue_fault h.1 (tryIssue_fault ?_)
  have hg := h.2
  generalize s.cores[c] = x at hg
  rw [show (some op).filter MOp.legal = none by simp only [Option.filter, hl]; rfl]
  simp [Bundle.live, Bundle.nops, hg, Live.fault, SOp.fault, MOp.fault, fIllegal]

/-- A scalar slot that faults at issue. -/
theorem issueS_late {s : State} {c : CoreId} {g : Guard} {op : SOp} {k : Nat} (h : s.runs c g) (hl : op.legal = true)
    (hd : SOp.fault s.cores[c].seg.isOpen (some op) = none) (hw : s.cores[c].stallS (some op) = false)
    (hi : s.cores[c].issueFault (s.cores[c].execS (s.env c) s.cores[c].regs op).store op .nop = some k) :
    s.issueS c g op = .next (s.coreFault c k s.cores[c].regs.pc) := by
  refine issue_fault h.1 ?_
  have hg := h.2
  generalize s.cores[c] = x at hd hg hw hi
  generalize s.env c = env at hi
  have he : x.execSmv env op .nop .nop = x.execS env x.regs op := rfl
  have hb : ({ Bundle.nops with sg := g, s := (some op).filter SOp.legal } : Bundle).live x.regs =
      ⟨some op, some .nop, some .nop, some .nop⟩ := by
    simp [Bundle.live, Bundle.nops, hg, hl]
  have hf : Live.fault ⟨some op, some .nop, some .nop, some .nop⟩ x.seg.isOpen = none := by
    simp only [Live.fault, hd]; rfl
  have hs : x.stalls ⟨some op, some .nop, some .nop, some .nop⟩ = false := by
    simp only [Core.stalls, hw, Core.stallM, Core.stallV, Core.stallD]; rfl
  unfold Core.tryIssue
  simp only [hb, hf, hs, he, hi]
  rfl

/-- A matrix slot that can issue. -/
theorem issueM_ok {s : State} {c : CoreId} {g : Guard} {op : MOp} (h : s.runs c g) (hl : op.legal = true)
    (hd : MOp.fault s.cores[c].seg.isOpen (some op) = none) (hw : s.cores[c].stallM (some op) = false) :
    s.issueM c g op = .next (s.issued c (s.cores[c].execM s.cores[c] op) .seq) :=
  issue_plain h.1 (tryIssue_M h.2 hl hd hw)

/-- A matrix slot that faults at decode. -/
theorem issueM_fault {s : State} {c : CoreId} {g : Guard} {op : MOp} {k : Nat} (h : s.runs c g)
    (hd : MOp.fault s.cores[c].seg.isOpen ((some op).filter MOp.legal) = some k) :
    s.issueM c g op = .next (s.coreFault c k s.cores[c].regs.pc) := by
  refine issue_fault h.1 (tryIssue_fault ?_)
  have hg := h.2
  generalize s.cores[c] = x at hd hg
  simp [Bundle.live, Bundle.nops, hg, Live.fault, hd, SOp.fault]

/-- A vector slot that can issue. -/
theorem issueV_ok {s : State} {c : CoreId} {g : Guard} {op : VOp} (h : s.runs c g) (hl : op.legal = true)
    (hd : VOp.fault s.cores[c].seg.isOpen (some op) = none) (hw : s.cores[c].stallV (some op) = false)
    (hn : Live.needs ⟨some .nop, some .nop, some op, some .nop⟩ = 0 ∨ s.cores[c].outstanding < 32) :
    s.issueV c g op = .next (s.issued c (s.cores[c].execV s.cores[c] s.free none op) .seq) := by
  refine issue_plain h.1 (tryIssue_V h.2 hl hd ?_)
  have h1 : Live.needs ⟨some .nop, some .nop, some op, some .nop⟩ ≤ 1 := by simp only [Live.needs]; split <;> simp
  have := room_ok h1 hn
  simp only [Core.stalls, Core.stallS, Core.stallM, hw, Core.stallD, Bool.false_or, this]

/-- A vector slot that faults at decode. -/
theorem issueV_fault {s : State} {c : CoreId} {g : Guard} {op : VOp} {k : Nat} (h : s.runs c g)
    (hd : VOp.fault s.cores[c].seg.isOpen ((some op).filter VOp.legal) = some k) :
    s.issueV c g op = .next (s.coreFault c k s.cores[c].regs.pc) := by
  refine issue_fault h.1 (tryIssue_fault ?_)
  have hg := h.2
  generalize s.cores[c] = x at hd hg
  simp [Bundle.live, Bundle.nops, hg, Live.fault, hd, SOp.fault, MOp.fault]

/-- A move/sync slot that can issue, with what it leaves to the module. -/
theorem issueD_ok {s : State} {c : CoreId} {g : Guard} {op : DOp} (h : s.runs c g)
    (hd : DOp.fault s.cores[c].seg.isOpen (some op) = none) (hs : s.cores[c].waitsSem (some op) = false)
    (hw : s.cores[c].stallD (some op) = false)
    (hn : Live.needs ⟨some .nop, some .nop, some .nop, some op⟩ = 0 ∨ s.cores[c].outstanding < 32)
    (hi : s.cores[c].issueFault s.cores[c].store .nop op = none) :
    s.issueD c g op = .next (((s.withCore c ({ (s.cores[c].execD s.cores[c] s.free op).1 with
        regs := (s.cores[c].execD s.cores[c] s.free op).1.regs.advance .seq,
        ctl := { (s.cores[c].execD s.cores[c] s.free op).1.ctl with waiting := false, halting := Flow.seq = .halt } },
      (s.cores[c].execD s.cores[c] s.free op).2.1)).drawn freeStep).serveReq c s.cores[c].regs.pc
        (s.cores[c].execD s.cores[c] s.free op).2.2) := by
  refine issue_req h.1 (tryIssue_D h.2 hd hs ?_ hi)
  have h1 : Live.needs ⟨some .nop, some .nop, some .nop, some op⟩ ≤ 1 := by simp only [Live.needs]; split <;> simp
  have := room_ok h1 hn
  simp only [Core.stalls, Core.stallS, Core.stallM, Core.stallV, hw, Bool.false_or, this]

/-- A move/sync slot whose only effect is on its core. -/
theorem issueD_plain {s : State} {c : CoreId} {g : Guard} {op : DOp} {y : Core} (h : s.runs c g)
    (hd : DOp.fault s.cores[c].seg.isOpen (some op) = none) (hs : s.cores[c].waitsSem (some op) = false)
    (hw : s.cores[c].stallD (some op) = false)
    (hn : Live.needs ⟨some .nop, some .nop, some .nop, some op⟩ = 0 ∨ s.cores[c].outstanding < 32)
    (hi : s.cores[c].issueFault s.cores[c].store .nop op = none)
    (he : s.cores[c].execD s.cores[c] s.free op = (y, [], .none)) : s.issueD c g op = .next (s.issued c y .seq) := by
  rw [issueD_ok h hd hs hw hn hi, he]; rfl

/-- A move/sync slot that asks the module for an operation. -/
theorem issueD_async {s : State} {c : CoreId} {g : Guard} {k : DKind} {rs : SReg} {post : Option SemId} (h : s.runs c g)
    (ho : s.cores[c].seg.isOpen = false) (hp : semClassOk false post = true) (hn : s.cores[c].outstanding < 32)
    (hi : s.cores[c].issueFault s.cores[c].store .nop (.async k rs post) = none) :
    s.issueD c g (.async k rs post) =
      .next ((s.issued c s.cores[c] .seq).startAsync c k (storeAddr (s.cores[c].regs.sget rs).toNat) post) :=
  issueD_ok h (by rw [ho]; simp [DOp.fault, hp]) rfl rfl (.inr hn) hi

/-- A move/sync slot that faults at decode. -/
theorem issueD_fault {s : State} {c : CoreId} {g : Guard} {op : DOp} {k : Nat} (h : s.runs c g)
    (hd : DOp.fault s.cores[c].seg.isOpen (some op) = some k) : s.issueD c g op = .next (s.coreFault c k s.cores[c].regs.pc) := by
  refine issue_fault h.1 (tryIssue_fault ?_)
  have hg := h.2
  generalize s.cores[c] = x at hd hg
  simp [Bundle.live, Bundle.nops, hg, Live.fault, hd, SOp.fault, MOp.fault, VOp.fault]

end Sys2Proof.Machine
end

