-- ==== Sys2Proof/Laws/Memory.lean ====
section
/-! SUPPORT. Laws of the module's memory: every operation keeps the canonical form; what a write changes in what a byte reads as. -/

namespace Sys2Proof.Machine

/-- Both tables of the memory are canonical. -/
def MemSt.wf (m : MemSt) : Bool := Cells.wf m.bytes && Cells.wf m.host

/-- Two memories of equal content: bytes, undefined ranges, uncorrectable lines and the host's memory. -/
def MemSt.Same (m k : MemSt) : Prop := k.bytes = m.bytes ∧ k.undef = m.undef ∧ k.host = m.host ∧ k.uncorr = m.uncorr

theorem MemSt.Same.refl (m : MemSt) : m.Same m := ⟨rfl, rfl, rfl, rfl⟩

theorem MemSt.Same.trans {m k l : MemSt} (h : m.Same k) (g : k.Same l) : m.Same l :=
  ⟨g.1.trans h.1, g.2.1.trans h.2.1, g.2.2.1.trans h.2.2.1, g.2.2.2.trans h.2.2.2⟩

theorem MemSt.foldl_same {α : Type} {f : MemSt → α → MemSt} (h : ∀ (m : MemSt) x, m.Same (f m x)) (l : List α) (m : MemSt) : m.Same (l.foldl f m) := by
  induction l generalizing m with
  | nil => exact .refl m
  | cons x l ih => exact (h m x).trans (ih _)

theorem MemSt.updStat_same (m : MemSt) (n : Fin 4) (f : MemStat → MemStat) : m.Same (m.updStat n f) := ⟨rfl, rfl, rfl, rfl⟩

theorem MemSt.countReq_same (m : MemSt) (a : Nat) : m.Same (m.countReq a) := by
  unfold MemSt.countReq; split <;> exact ⟨rfl, rfl, rfl, rfl⟩

/-- A line written back keeps all content. -/
theorem MemSt.cleanLine_same (m : MemSt) (l : Nat) : m.Same (m.cleanLine l) := by
  unfold MemSt.cleanLine
  split
  · exact (show m.Same (MemSt.updStat { m with lines := _ } _ _) from ⟨rfl, rfl, rfl, rfl⟩).trans (countReq_same _ _)
  · exact .refl m

theorem MemSt.allocate_same (m : MemSt) (l : Nat) : m.Same (m.allocate l) := by
  unfold MemSt.allocate
  dsimp only
  split
  · exact ⟨rfl, rfl, rfl, rfl⟩
  · split
    · exact .refl m
    · exact (m.cleanLine_same _).trans ⟨rfl, rfl, rfl, rfl⟩

/-- An access to a line keeps all content. -/
theorem MemSt.accessLine_same (m : MemSt) (alloc : Bool) (l : Nat) : m.Same (m.accessLine alloc l) := by
  unfold MemSt.accessLine
  extract_lets n k k'
  have hk : m.Same k := ⟨rfl, rfl, rfl, rfl⟩
  have hk' : m.Same k' := hk.trans (.trans (k.updStat_same _ _) (countReq_same _ _))
  clear_value k k'
  split
  · exact hk.trans (k.updStat_same _ _)
  split
  · exact hk
  split
  · exact hk'.trans (k'.allocate_same l)
  · exact hk'

/-- The accesses of a range keep all content. -/
theorem MemSt.accessRange_same (m : MemSt) (alloc : Bool) (a n : Nat) : m.Same (m.accessRange alloc a n) :=
  foldl_same (fun m l => m.accessLine_same alloc l) _ m

theorem MemSt.touch_same (alloc : Bool) (m : MemSt) (l : Nat) : m.Same (MemSt.touch alloc m l) :=
  (m.accessLine_same alloc l).trans ⟨rfl, rfl, rfl, rfl⟩

/-- What a write changes of the content (R166, R175). -/
theorem MemSt.writeWith_content (m : MemSt) (alloc : Bool) (a : Nat) (bs : List Byte) :
    (m.writeWith alloc a bs).bytes = Cells.write m.bytes a bs ∧ (m.writeWith alloc a bs).undef = cutUndef m.undef a bs.length ∧
      (m.writeWith alloc a bs).host = m.host := ⟨rfl, rfl, rfl⟩

theorem MemSt.write_bytes (m : MemSt) (a : Nat) (bs : List Byte) : (m.write a bs).bytes = Cells.write m.bytes a bs :=
  (m.writeWith_content true a bs).1
theorem MemSt.write_undef (m : MemSt) (a : Nat) (bs : List Byte) : (m.write a bs).undef = cutUndef m.undef a bs.length :=
  (m.writeWith_content true a bs).2.1
theorem MemSt.write_host (m : MemSt) (a : Nat) (bs : List Byte) : (m.write a bs).host = m.host :=
  (m.writeWith_content true a bs).2.2

/-- A write of mapped memory keeps the canonical form, allocating or not. -/
theorem MemSt.writeWith_wf {m : MemSt} {alloc : Bool} {a : Nat} {bs : List Byte} (h : m.wf = true) : (m.writeWith alloc a bs).wf = true := by
  simp only [MemSt.wf, Bool.and_eq_true] at h ⊢
  rw [(m.writeWith_content alloc a bs).1, (m.writeWith_content alloc a bs).2.2]
  exact ⟨Machine.write_wf h.1, h.2⟩

/-- Equal content has the same form. -/
theorem MemSt.Same.wf {m k : MemSt} (h : m.Same k) : k.wf = m.wf := by rw [MemSt.wf, MemSt.wf, h.1, h.2.2.1]

/-- A write of mapped memory keeps the canonical form. -/
theorem MemSt.write_wf {m : MemSt} {a : Nat} {bs : List Byte} (h : m.wf = true) : (m.write a bs).wf = true := MemSt.writeWith_wf h

/-- Zeroing a range keeps the canonical form. -/
theorem MemSt.zeroRange_wf {m : MemSt} {a n : Nat} (h : m.wf = true) : (m.zeroRange a n).wf = true := by
  simp only [MemSt.wf, Bool.and_eq_true, MemSt.zeroRange] at h ⊢
  exact ⟨clear_wf h.1, h.2⟩

/-- A write-back changes no content. -/
theorem MemSt.writeBack_same (m : MemSt) (a n : Nat) : m.Same (m.writeBack a n) := foldl_same cleanLine_same _ m

/-- A write-back keeps the canonical form. -/
theorem MemSt.writeBack_wf {m : MemSt} {a n : Nat} (h : m.wf = true) : (m.writeBack a n).wf = true := (m.writeBack_same a n).wf.trans h

theorem loseDirty_fold_wf (p : Nat → Bool) (l : List CacheLine) (b : Memory) (h : Cells.wf b = true) :
    Cells.wf (l.foldl (fun b x =>
      match x.old with
      | some o => if p (128 * x.line) then Cells.write b (128 * x.line) o else b
      | none => b) b) = true := by
  induction l generalizing b with
  | nil => exact h
  | cons d l ih =>
    refine ih _ ?_
    dsimp only
    split
    · split
      · exact Machine.write_wf h
      · exact h
    · exact h

/-- Losing dirty lines keeps the canonical form. -/
theorem MemSt.loseDirty_wf {m : MemSt} {p : Nat → Bool} (h : m.wf = true) : (m.loseDirty p).wf = true := by
  simp only [MemSt.wf, Bool.and_eq_true] at h ⊢
  exact ⟨loseDirty_fold_wf _ _ _ h.1, h.2⟩

/-- Whether an undefined range holds a byte. -/
def undefHolds (b : Nat) (u : Nat × Nat × Nat) : Bool := u.1 ≤ b && b < u.1 + u.2.1

/-- The free value a list of undefined ranges gives a byte. -/
def undefAt (us : List (Nat × Nat × Nat)) (b : Nat) : Option Nat := (us.find? (undefHolds b)).map (·.2.2)

theorem undefAt_append (us vs : List (Nat × Nat × Nat)) (b : Nat) : undefAt (us ++ vs) b = (undefAt us b).or (undefAt vs b) := by
  unfold undefAt
  rw [List.find?_append]
  cases us.find? (undefHolds b) <;> simp

theorem cutUndef_cons (u : Nat × Nat × Nat) (us : List (Nat × Nat × Nat)) (a n : Nat) :
    cutUndef (u :: us) a n = cutUndef [u] a n ++ cutUndef us a n := by simp [cutUndef]

theorem undefAt_nil (b : Nat) : undefAt [] b = none := rfl

theorem undefAt_one (x k t b : Nat) : undefAt [(x, k, t)] b = if x ≤ b ∧ b < x + k then some t else none := by
  by_cases h1 : x ≤ b <;> by_cases h2 : b < x + k <;> simp [undefAt, undefHolds, h1, h2]

theorem undefAt_cut_one (u : Nat × Nat × Nat) (a n b : Nat) :
    undefAt (cutUndef [u] a n) b = if a ≤ b ∧ b < a + n then none else undefAt [u] b := by
  obtain ⟨x, k, t⟩ := u
  have e : cutUndef [(x, k, t)] a n = if overlaps a n x k then
      (if x < a then [(x, a - x, t)] else []) ++ (if a + n < x + k then [(a + n, x + k - (a + n), t)] else [])
      else [(x, k, t)] := by
    cases h : overlaps a n x k <;> simp [cutUndef, h]
  rw [e, undefAt_one]
  by_cases ho : overlaps a n x k = true
  · rw [if_pos ho, undefAt_append]
    simp only [overlaps, Bool.and_eq_true, decide_eq_true_eq] at ho
    have e1 : undefAt (if x < a then [(x, a - x, t)] else []) b = if x ≤ b ∧ b < a then some t else none := by
      by_cases h : x < a
      · rw [if_pos h, undefAt_one, show x + (a - x) = a by omega]
      · rw [if_neg h, undefAt_nil, if_neg (by omega)]
    have e2 : undefAt (if a + n < x + k then [(a + n, x + k - (a + n), t)] else []) b =
        if a + n ≤ b ∧ b < x + k then some t else none := by
      by_cases h : a + n < x + k
      · rw [if_pos h, undefAt_one, show a + n + (x + k - (a + n)) = x + k by omega]
      · rw [if_neg h, undefAt_nil, if_neg (by omega)]
    rw [e1, e2]
    by_cases h1 : a ≤ b ∧ b < a + n
    · rw [if_pos h1, if_neg (by omega), if_neg (by omega)]; rfl
    · rw [if_neg h1]
      by_cases h2 : x ≤ b ∧ b < x + k
      · rw [if_pos h2]
        by_cases h3 : b < a
        · rw [if_pos (by omega)]; rfl
        · rw [if_neg (by omega), if_pos (by omega)]; rfl
      · rw [if_neg h2, if_neg (by omega), if_neg (by omega)]; rfl
  · rw [if_neg ho, undefAt_one]
    simp only [overlaps, Bool.and_eq_true, decide_eq_true_eq] at ho
    by_cases h1 : a ≤ b ∧ b < a + n
    · rw [if_pos h1, if_neg (by omega)]
    · rw [if_neg h1]

theorem undefAt_cut (us : List (Nat × Nat × Nat)) (a n b : Nat) :
    undefAt (cutUndef us a n) b = if a ≤ b ∧ b < a + n then none else undefAt us b := by
  induction us with
  | nil => simp [cutUndef, undefAt]
  | cons u us ih =>
    rw [cutUndef_cons, undefAt_append, undefAt_cut_one, ih, show u :: us = [u] ++ us from rfl, undefAt_append]
    split <;> simp

theorem MemSt.byteAt_eq (m : MemSt) (b : Nat) :
    m.byteAt b = match undefAt m.undef b with
      | some t => BitVec.ofNat 8 (Config.order t b 256)
      | none => Cells.get m.bytes b := by
  unfold MemSt.byteAt undefAt undefHolds
  cases (m.undef.find? fun u => decide (u.1 ≤ b) && decide (b < u.1 + u.2.1)) <;> rfl

/-- A byte outside a write reads as before. -/
theorem MemSt.byteAt_write_other {m : MemSt} {a b : Nat} {bs : List Byte} (h : m.wf = true) (hb : b < a ∨ a + bs.length ≤ b) :
    (m.write a bs).byteAt b = m.byteAt b := by
  simp only [MemSt.wf, Bool.and_eq_true] at h
  rw [MemSt.byteAt_eq, MemSt.byteAt_eq, MemSt.write_undef, MemSt.write_bytes, undefAt_cut, if_neg (by omega),
    get_write_other h.1 hb]

/-- A written byte reads as what was written. -/
theorem MemSt.byteAt_write_in {m : MemSt} {a i : Nat} {bs : List Byte} (h : m.wf = true) (hi : i < bs.length) :
    (m.write a bs).byteAt (a + i) = bs[i] := by
  simp only [MemSt.wf, Bool.and_eq_true] at h
  rw [MemSt.byteAt_eq, MemSt.write_undef, MemSt.write_bytes, undefAt_cut, if_pos (by omega)]
  exact get_write_in h.1 hi

end Sys2Proof.Machine
end

