-- ==== Sys2Proof/Laws/State.lean ====
section
/-! SUPPORT. What the named updates of the state write and what they leave: one lemma per field per update, all true by unfolding. -/

namespace Sys2Proof.Machine

section
variable (s : State) (c : CoreId) (x : Core)
@[simp] theorem State.setCore_pending : (s.setCore c x).pending = s.pending := rfl
@[simp] theorem State.setCore_free : (s.setCore c x).free = s.free := rfl
@[simp] theorem State.setCore_reply : (s.setCore c x).reply = s.reply := rfl
@[simp] theorem State.setCore_cores : (s.setCore c x).cores = s.cores.set c x := rfl
@[simp] theorem State.setCore_mem : (s.setCore c x).mem = s.mem := rfl
@[simp] theorem State.setCore_emb : (s.setCore c x).emb = s.emb := rfl
@[simp] theorem State.setCore_press : (s.setCore c x).press = s.press := rfl
@[simp] theorem State.setCore_upd : (s.setCore c x).upd = s.upd := rfl
@[simp] theorem State.setCore_collCel : (s.setCore c x).collCel = s.collCel := rfl
@[simp] theorem State.setCore_coll : (s.setCore c x).coll = s.coll := rfl
@[simp] theorem State.setCore_gathers : (s.setCore c x).gathers = s.gathers := rfl
@[simp] theorem State.setCore_gsubs : (s.setCore c x).gsubs = s.gsubs := rfl
@[simp] theorem State.setCore_gparts : (s.setCore c x).gparts = s.gparts := rfl
@[simp] theorem State.setCore_grads : (s.setCore c x).grads = s.grads := rfl
@[simp] theorem State.setCore_gacks : (s.setCore c x).gacks = s.gacks := rfl
@[simp] theorem State.setCore_shardReqs : (s.setCore c x).shardReqs = s.shardReqs := rfl
@[simp] theorem State.setCore_shardReps : (s.setCore c x).shardReps = s.shardReps := rfl
@[simp] theorem State.setCore_fab : (s.setCore c x).fab = s.fab := rfl
@[simp] theorem State.setCore_dl : (s.setCore c x).dl = s.dl := rfl
@[simp] theorem State.setCore_hif : (s.setCore c x).hif = s.hif := rfl
@[simp] theorem State.setCore_cave : (s.setCore c x).cave = s.cave := rfl
@[simp] theorem State.setCore_fw : (s.setCore c x).fw = s.fw := rfl
@[simp] theorem State.setCore_mbx : (s.setCore c x).mbx = s.mbx := rfl
@[simp] theorem State.setCore_log : (s.setCore c x).log = s.log := rfl
@[simp] theorem State.setCore_job : (s.setCore c x).job = s.job := rfl
@[simp] theorem State.setCore_ras : (s.setCore c x).ras = s.ras := rfl
@[simp] theorem State.setCore_inp : (s.setCore c x).inp = s.inp := rfl
@[simp] theorem State.setCore_pwr : (s.setCore c x).pwr = s.pwr := rfl
@[simp] theorem State.setCore_start : (s.setCore c x).start = s.start := rfl
@[simp] theorem State.setCore_fuses : (s.setCore c x).fuses = s.fuses := rfl
@[simp] theorem State.setCore_sec : (s.setCore c x).sec = s.sec := rfl
@[simp] theorem State.setCore_mgmt : (s.setCore c x).mgmt = s.mgmt := rfl
@[simp] theorem State.setCore_tap : (s.setCore c x).tap = s.tap := rfl
end

section
variable (s : State) (c : CoreId) (f : Core → Core)
@[simp] theorem State.updCore_pending : (s.updCore c f).pending = s.pending := rfl
@[simp] theorem State.updCore_free : (s.updCore c f).free = s.free := rfl
@[simp] theorem State.updCore_reply : (s.updCore c f).reply = s.reply := rfl
@[simp] theorem State.updCore_cores : (s.updCore c f).cores = s.cores.set c (f s.cores[c]) := rfl
@[simp] theorem State.updCore_mem : (s.updCore c f).mem = s.mem := rfl
@[simp] theorem State.updCore_emb : (s.updCore c f).emb = s.emb := rfl
@[simp] theorem State.updCore_press : (s.updCore c f).press = s.press := rfl
@[simp] theorem State.updCore_upd : (s.updCore c f).upd = s.upd := rfl
@[simp] theorem State.updCore_collCel : (s.updCore c f).collCel = s.collCel := rfl
@[simp] theorem State.updCore_coll : (s.updCore c f).coll = s.coll := rfl
@[simp] theorem State.updCore_gathers : (s.updCore c f).gathers = s.gathers := rfl
@[simp] theorem State.updCore_gsubs : (s.updCore c f).gsubs = s.gsubs := rfl
@[simp] theorem State.updCore_gparts : (s.updCore c f).gparts = s.gparts := rfl
@[simp] theorem State.updCore_grads : (s.updCore c f).grads = s.grads := rfl
@[simp] theorem State.updCore_gacks : (s.updCore c f).gacks = s.gacks := rfl
@[simp] theorem State.updCore_shardReqs : (s.updCore c f).shardReqs = s.shardReqs := rfl
@[simp] theorem State.updCore_shardReps : (s.updCore c f).shardReps = s.shardReps := rfl
@[simp] theorem State.updCore_fab : (s.updCore c f).fab = s.fab := rfl
@[simp] theorem State.updCore_dl : (s.updCore c f).dl = s.dl := rfl
@[simp] theorem State.updCore_hif : (s.updCore c f).hif = s.hif := rfl
@[simp] theorem State.updCore_cave : (s.updCore c f).cave = s.cave := rfl
@[simp] theorem State.updCore_fw : (s.updCore c f).fw = s.fw := rfl
@[simp] theorem State.updCore_mbx : (s.updCore c f).mbx = s.mbx := rfl
@[simp] theorem State.updCore_log : (s.updCore c f).log = s.log := rfl
@[simp] theorem State.updCore_job : (s.updCore c f).job = s.job := rfl
@[simp] theorem State.updCore_ras : (s.updCore c f).ras = s.ras := rfl
@[simp] theorem State.updCore_inp : (s.updCore c f).inp = s.inp := rfl
@[simp] theorem State.updCore_pwr : (s.updCore c f).pwr = s.pwr := rfl
@[simp] theorem State.updCore_start : (s.updCore c f).start = s.start := rfl
@[simp] theorem State.updCore_fuses : (s.updCore c f).fuses = s.fuses := rfl
@[simp] theorem State.updCore_sec : (s.updCore c f).sec = s.sec := rfl
@[simp] theorem State.updCore_mgmt : (s.updCore c f).mgmt = s.mgmt := rfl
@[simp] theorem State.updCore_tap : (s.updCore c f).tap = s.tap := rfl
end

section
variable (s : State) (n : Nat)
@[simp] theorem State.drawn_pending : (s.drawn n).pending = s.pending := rfl
@[simp] theorem State.drawn_free : (s.drawn n).free = s.free + n := rfl
@[simp] theorem State.drawn_reply : (s.drawn n).reply = s.reply := rfl
@[simp] theorem State.drawn_cores : (s.drawn n).cores = s.cores := rfl
@[simp] theorem State.drawn_mem : (s.drawn n).mem = s.mem := rfl
@[simp] theorem State.drawn_emb : (s.drawn n).emb = s.emb := rfl
@[simp] theorem State.drawn_press : (s.drawn n).press = s.press := rfl
@[simp] theorem State.drawn_upd : (s.drawn n).upd = s.upd := rfl
@[simp] theorem State.drawn_collCel : (s.drawn n).collCel = s.collCel := rfl
@[simp] theorem State.drawn_coll : (s.drawn n).coll = s.coll := rfl
@[simp] theorem State.drawn_gathers : (s.drawn n).gathers = s.gathers := rfl
@[simp] theorem State.drawn_gsubs : (s.drawn n).gsubs = s.gsubs := rfl
@[simp] theorem State.drawn_gparts : (s.drawn n).gparts = s.gparts := rfl
@[simp] theorem State.drawn_grads : (s.drawn n).grads = s.grads := rfl
@[simp] theorem State.drawn_gacks : (s.drawn n).gacks = s.gacks := rfl
@[simp] theorem State.drawn_shardReqs : (s.drawn n).shardReqs = s.shardReqs := rfl
@[simp] theorem State.drawn_shardReps : (s.drawn n).shardReps = s.shardReps := rfl
@[simp] theorem State.drawn_fab : (s.drawn n).fab = s.fab := rfl
@[simp] theorem State.drawn_dl : (s.drawn n).dl = s.dl := rfl
@[simp] theorem State.drawn_hif : (s.drawn n).hif = s.hif := rfl
@[simp] theorem State.drawn_cave : (s.drawn n).cave = s.cave := rfl
@[simp] theorem State.drawn_fw : (s.drawn n).fw = s.fw := rfl
@[simp] theorem State.drawn_mbx : (s.drawn n).mbx = s.mbx := rfl
@[simp] theorem State.drawn_log : (s.drawn n).log = s.log := rfl
@[simp] theorem State.drawn_job : (s.drawn n).job = s.job := rfl
@[simp] theorem State.drawn_ras : (s.drawn n).ras = s.ras := rfl
@[simp] theorem State.drawn_inp : (s.drawn n).inp = s.inp := rfl
@[simp] theorem State.drawn_pwr : (s.drawn n).pwr = s.pwr := rfl
@[simp] theorem State.drawn_start : (s.drawn n).start = s.start := rfl
@[simp] theorem State.drawn_fuses : (s.drawn n).fuses = s.fuses := rfl
@[simp] theorem State.drawn_sec : (s.drawn n).sec = s.sec := rfl
@[simp] theorem State.drawn_mgmt : (s.drawn n).mgmt = s.mgmt := rfl
@[simp] theorem State.drawn_tap : (s.drawn n).tap = s.tap := rfl
end

section
variable (s : State) (bs : List Byte)
@[simp] theorem State.answer_pending : (s.answer bs).pending = s.pending := rfl
@[simp] theorem State.answer_free : (s.answer bs).free = s.free := rfl
@[simp] theorem State.answer_reply : (s.answer bs).reply = bs := rfl
@[simp] theorem State.answer_cores : (s.answer bs).cores = s.cores := rfl
@[simp] theorem State.answer_mem : (s.answer bs).mem = s.mem := rfl
@[simp] theorem State.answer_emb : (s.answer bs).emb = s.emb := rfl
@[simp] theorem State.answer_press : (s.answer bs).press = s.press := rfl
@[simp] theorem State.answer_upd : (s.answer bs).upd = s.upd := rfl
@[simp] theorem State.answer_collCel : (s.answer bs).collCel = s.collCel := rfl
@[simp] theorem State.answer_coll : (s.answer bs).coll = s.coll := rfl
@[simp] theorem State.answer_gathers : (s.answer bs).gathers = s.gathers := rfl
@[simp] theorem State.answer_gsubs : (s.answer bs).gsubs = s.gsubs := rfl
@[simp] theorem State.answer_gparts : (s.answer bs).gparts = s.gparts := rfl
@[simp] theorem State.answer_grads : (s.answer bs).grads = s.grads := rfl
@[simp] theorem State.answer_gacks : (s.answer bs).gacks = s.gacks := rfl
@[simp] theorem State.answer_shardReqs : (s.answer bs).shardReqs = s.shardReqs := rfl
@[simp] theorem State.answer_shardReps : (s.answer bs).shardReps = s.shardReps := rfl
@[simp] theorem State.answer_fab : (s.answer bs).fab = s.fab := rfl
@[simp] theorem State.answer_dl : (s.answer bs).dl = s.dl := rfl
@[simp] theorem State.answer_hif : (s.answer bs).hif = s.hif := rfl
@[simp] theorem State.answer_cave : (s.answer bs).cave = s.cave := rfl
@[simp] theorem State.answer_fw : (s.answer bs).fw = s.fw := rfl
@[simp] theorem State.answer_mbx : (s.answer bs).mbx = s.mbx := rfl
@[simp] theorem State.answer_log : (s.answer bs).log = s.log := rfl
@[simp] theorem State.answer_job : (s.answer bs).job = s.job := rfl
@[simp] theorem State.answer_ras : (s.answer bs).ras = s.ras := rfl
@[simp] theorem State.answer_inp : (s.answer bs).inp = s.inp := rfl
@[simp] theorem State.answer_pwr : (s.answer bs).pwr = s.pwr := rfl
@[simp] theorem State.answer_start : (s.answer bs).start = s.start := rfl
@[simp] theorem State.answer_fuses : (s.answer bs).fuses = s.fuses := rfl
@[simp] theorem State.answer_sec : (s.answer bs).sec = s.sec := rfl
@[simp] theorem State.answer_mgmt : (s.answer bs).mgmt = s.mgmt := rfl
@[simp] theorem State.answer_tap : (s.answer bs).tap = s.tap := rfl
end

section
variable (s : State) (status : Nat) (bs : List Byte)
@[simp] theorem State.secAnswer_pending : (s.secAnswer status bs).pending = s.pending := rfl
@[simp] theorem State.secAnswer_free : (s.secAnswer status bs).free = s.free := rfl
@[simp] theorem State.secAnswer_reply : (s.secAnswer status bs).reply = toLe 4 status ++ bs := rfl
@[simp] theorem State.secAnswer_cores : (s.secAnswer status bs).cores = s.cores := rfl
@[simp] theorem State.secAnswer_mem : (s.secAnswer status bs).mem = s.mem := rfl
@[simp] theorem State.secAnswer_emb : (s.secAnswer status bs).emb = s.emb := rfl
@[simp] theorem State.secAnswer_press : (s.secAnswer status bs).press = s.press := rfl
@[simp] theorem State.secAnswer_upd : (s.secAnswer status bs).upd = s.upd := rfl
@[simp] theorem State.secAnswer_collCel : (s.secAnswer status bs).collCel = s.collCel := rfl
@[simp] theorem State.secAnswer_coll : (s.secAnswer status bs).coll = s.coll := rfl
@[simp] theorem State.secAnswer_gathers : (s.secAnswer status bs).gathers = s.gathers := rfl
@[simp] theorem State.secAnswer_gsubs : (s.secAnswer status bs).gsubs = s.gsubs := rfl
@[simp] theorem State.secAnswer_gparts : (s.secAnswer status bs).gparts = s.gparts := rfl
@[simp] theorem State.secAnswer_grads : (s.secAnswer status bs).grads = s.grads := rfl
@[simp] theorem State.secAnswer_gacks : (s.secAnswer status bs).gacks = s.gacks := rfl
@[simp] theorem State.secAnswer_shardReqs : (s.secAnswer status bs).shardReqs = s.shardReqs := rfl
@[simp] theorem State.secAnswer_shardReps : (s.secAnswer status bs).shardReps = s.shardReps := rfl
@[simp] theorem State.secAnswer_fab : (s.secAnswer status bs).fab = s.fab := rfl
@[simp] theorem State.secAnswer_dl : (s.secAnswer status bs).dl = s.dl := rfl
@[simp] theorem State.secAnswer_hif : (s.secAnswer status bs).hif = s.hif := rfl
@[simp] theorem State.secAnswer_cave : (s.secAnswer status bs).cave = s.cave := rfl
@[simp] theorem State.secAnswer_fw : (s.secAnswer status bs).fw = s.fw := rfl
@[simp] theorem State.secAnswer_mbx : (s.secAnswer status bs).mbx = s.mbx := rfl
@[simp] theorem State.secAnswer_log : (s.secAnswer status bs).log = s.log := rfl
@[simp] theorem State.secAnswer_job : (s.secAnswer status bs).job = s.job := rfl
@[simp] theorem State.secAnswer_ras : (s.secAnswer status bs).ras = s.ras := rfl
@[simp] theorem State.secAnswer_inp : (s.secAnswer status bs).inp = s.inp := rfl
@[simp] theorem State.secAnswer_pwr : (s.secAnswer status bs).pwr = s.pwr := rfl
@[simp] theorem State.secAnswer_start : (s.secAnswer status bs).start = s.start := rfl
@[simp] theorem State.secAnswer_fuses : (s.secAnswer status bs).fuses = s.fuses := rfl
@[simp] theorem State.secAnswer_sec : (s.secAnswer status bs).sec = s.sec := rfl
@[simp] theorem State.secAnswer_mgmt : (s.secAnswer status bs).mgmt = s.mgmt := rfl
@[simp] theorem State.secAnswer_tap : (s.secAnswer status bs).tap = s.tap := rfl
end

section
variable (s : State) (p : ProcId) (f : Proc → Proc)
@[simp] theorem State.updProc_pending : (s.updProc p f).pending = s.pending := rfl
@[simp] theorem State.updProc_free : (s.updProc p f).free = s.free := rfl
@[simp] theorem State.updProc_reply : (s.updProc p f).reply = s.reply := rfl
@[simp] theorem State.updProc_cores : (s.updProc p f).cores = s.cores := rfl
@[simp] theorem State.updProc_mem : (s.updProc p f).mem = s.mem := rfl
@[simp] theorem State.updProc_emb : (s.updProc p f).emb = s.emb := rfl
@[simp] theorem State.updProc_press : (s.updProc p f).press = s.press := rfl
@[simp] theorem State.updProc_upd : (s.updProc p f).upd = s.upd := rfl
@[simp] theorem State.updProc_collCel : (s.updProc p f).collCel = s.collCel := rfl
@[simp] theorem State.updProc_coll : (s.updProc p f).coll = s.coll := rfl
@[simp] theorem State.updProc_gathers : (s.updProc p f).gathers = s.gathers := rfl
@[simp] theorem State.updProc_gsubs : (s.updProc p f).gsubs = s.gsubs := rfl
@[simp] theorem State.updProc_gparts : (s.updProc p f).gparts = s.gparts := rfl
@[simp] theorem State.updProc_grads : (s.updProc p f).grads = s.grads := rfl
@[simp] theorem State.updProc_gacks : (s.updProc p f).gacks = s.gacks := rfl
@[simp] theorem State.updProc_shardReqs : (s.updProc p f).shardReqs = s.shardReqs := rfl
@[simp] theorem State.updProc_shardReps : (s.updProc p f).shardReps = s.shardReps := rfl
@[simp] theorem State.updProc_fab : (s.updProc p f).fab = s.fab := rfl
@[simp] theorem State.updProc_dl : (s.updProc p f).dl = s.dl := rfl
@[simp] theorem State.updProc_hif : (s.updProc p f).hif = s.hif := rfl
@[simp] theorem State.updProc_cave : (s.updProc p f).cave = s.cave := rfl
@[simp] theorem State.updProc_mbx : (s.updProc p f).mbx = s.mbx := rfl
@[simp] theorem State.updProc_log : (s.updProc p f).log = s.log := rfl
@[simp] theorem State.updProc_job : (s.updProc p f).job = s.job := rfl
@[simp] theorem State.updProc_ras : (s.updProc p f).ras = s.ras := rfl
@[simp] theorem State.updProc_inp : (s.updProc p f).inp = s.inp := rfl
@[simp] theorem State.updProc_pwr : (s.updProc p f).pwr = s.pwr := rfl
@[simp] theorem State.updProc_start : (s.updProc p f).start = s.start := rfl
@[simp] theorem State.updProc_fuses : (s.updProc p f).fuses = s.fuses := rfl
@[simp] theorem State.updProc_sec : (s.updProc p f).sec = s.sec := rfl
@[simp] theorem State.updProc_mgmt : (s.updProc p f).mgmt = s.mgmt := rfl
@[simp] theorem State.updProc_tap : (s.updProc p f).tap = s.tap := rfl
end

section
variable (s : State) (q : QId) (f : Queue → Queue)
@[simp] theorem State.updQueue_pending : (s.updQueue q f).pending = s.pending := rfl
@[simp] theorem State.updQueue_free : (s.updQueue q f).free = s.free := rfl
@[simp] theorem State.updQueue_reply : (s.updQueue q f).reply = s.reply := rfl
@[simp] theorem State.updQueue_cores : (s.updQueue q f).cores = s.cores := rfl
@[simp] theorem State.updQueue_mem : (s.updQueue q f).mem = s.mem := rfl
@[simp] theorem State.updQueue_emb : (s.updQueue q f).emb = s.emb := rfl
@[simp] theorem State.updQueue_press : (s.updQueue q f).press = s.press := rfl
@[simp] theorem State.updQueue_upd : (s.updQueue q f).upd = s.upd := rfl
@[simp] theorem State.updQueue_collCel : (s.updQueue q f).collCel = s.collCel := rfl
@[simp] theorem State.updQueue_coll : (s.updQueue q f).coll = s.coll := rfl
@[simp] theorem State.updQueue_gathers : (s.updQueue q f).gathers = s.gathers := rfl
@[simp] theorem State.updQueue_gsubs : (s.updQueue q f).gsubs = s.gsubs := rfl
@[simp] theorem State.updQueue_gparts : (s.updQueue q f).gparts = s.gparts := rfl
@[simp] theorem State.updQueue_grads : (s.updQueue q f).grads = s.grads := rfl
@[simp] theorem State.updQueue_gacks : (s.updQueue q f).gacks = s.gacks := rfl
@[simp] theorem State.updQueue_shardReqs : (s.updQueue q f).shardReqs = s.shardReqs := rfl
@[simp] theorem State.updQueue_shardReps : (s.updQueue q f).shardReps = s.shardReps := rfl
@[simp] theorem State.updQueue_fab : (s.updQueue q f).fab = s.fab := rfl
@[simp] theorem State.updQueue_dl : (s.updQueue q f).dl = s.dl := rfl
@[simp] theorem State.updQueue_cave : (s.updQueue q f).cave = s.cave := rfl
@[simp] theorem State.updQueue_fw : (s.updQueue q f).fw = s.fw := rfl
@[simp] theorem State.updQueue_mbx : (s.updQueue q f).mbx = s.mbx := rfl
@[simp] theorem State.updQueue_log : (s.updQueue q f).log = s.log := rfl
@[simp] theorem State.updQueue_job : (s.updQueue q f).job = s.job := rfl
@[simp] theorem State.updQueue_ras : (s.updQueue q f).ras = s.ras := rfl
@[simp] theorem State.updQueue_inp : (s.updQueue q f).inp = s.inp := rfl
@[simp] theorem State.updQueue_pwr : (s.updQueue q f).pwr = s.pwr := rfl
@[simp] theorem State.updQueue_start : (s.updQueue q f).start = s.start := rfl
@[simp] theorem State.updQueue_fuses : (s.updQueue q f).fuses = s.fuses := rfl
@[simp] theorem State.updQueue_sec : (s.updQueue q f).sec = s.sec := rfl
@[simp] theorem State.updQueue_mgmt : (s.updQueue q f).mgmt = s.mgmt := rfl
@[simp] theorem State.updQueue_tap : (s.updQueue q f).tap = s.tap := rfl
end

section
variable (s : State) (f : PromSt → PromSt)
@[simp] theorem State.updProm_pending : (s.updProm f).pending = s.pending := rfl
@[simp] theorem State.updProm_free : (s.updProm f).free = s.free := rfl
@[simp] theorem State.updProm_reply : (s.updProm f).reply = s.reply := rfl
@[simp] theorem State.updProm_cores : (s.updProm f).cores = s.cores := rfl
@[simp] theorem State.updProm_mem : (s.updProm f).mem = s.mem := rfl
@[simp] theorem State.updProm_emb : (s.updProm f).emb = s.emb := rfl
@[simp] theorem State.updProm_press : (s.updProm f).press = s.press := rfl
@[simp] theorem State.updProm_upd : (s.updProm f).upd = s.upd := rfl
@[simp] theorem State.updProm_collCel : (s.updProm f).collCel = s.collCel := rfl
@[simp] theorem State.updProm_coll : (s.updProm f).coll = s.coll := rfl
@[simp] theorem State.updProm_gathers : (s.updProm f).gathers = s.gathers := rfl
@[simp] theorem State.updProm_gsubs : (s.updProm f).gsubs = s.gsubs := rfl
@[simp] theorem State.updProm_gparts : (s.updProm f).gparts = s.gparts := rfl
@[simp] theorem State.updProm_grads : (s.updProm f).grads = s.grads := rfl
@[simp] theorem State.updProm_gacks : (s.updProm f).gacks = s.gacks := rfl
@[simp] theorem State.updProm_shardReqs : (s.updProm f).shardReqs = s.shardReqs := rfl
@[simp] theorem State.updProm_shardReps : (s.updProm f).shardReps = s.shardReps := rfl
@[simp] theorem State.updProm_dl : (s.updProm f).dl = s.dl := rfl
@[simp] theorem State.updProm_hif : (s.updProm f).hif = s.hif := rfl
@[simp] theorem State.updProm_cave : (s.updProm f).cave = s.cave := rfl
@[simp] theorem State.updProm_fw : (s.updProm f).fw = s.fw := rfl
@[simp] theorem State.updProm_mbx : (s.updProm f).mbx = s.mbx := rfl
@[simp] theorem State.updProm_log : (s.updProm f).log = s.log := rfl
@[simp] theorem State.updProm_job : (s.updProm f).job = s.job := rfl
@[simp] theorem State.updProm_ras : (s.updProm f).ras = s.ras := rfl
@[simp] theorem State.updProm_inp : (s.updProm f).inp = s.inp := rfl
@[simp] theorem State.updProm_pwr : (s.updProm f).pwr = s.pwr := rfl
@[simp] theorem State.updProm_start : (s.updProm f).start = s.start := rfl
@[simp] theorem State.updProm_fuses : (s.updProm f).fuses = s.fuses := rfl
@[simp] theorem State.updProm_sec : (s.updProm f).sec = s.sec := rfl
@[simp] theorem State.updProm_mgmt : (s.updProm f).mgmt = s.mgmt := rfl
@[simp] theorem State.updProm_tap : (s.updProm f).tap = s.tap := rfl
end

section
variable (s : State) (k : Nat)
@[simp] theorem State.takeDeliv_pending : (s.takeDeliv k).pending = s.pending := rfl
@[simp] theorem State.takeDeliv_free : (s.takeDeliv k).free = s.free := rfl
@[simp] theorem State.takeDeliv_reply : (s.takeDeliv k).reply = s.reply := rfl
@[simp] theorem State.takeDeliv_cores : (s.takeDeliv k).cores = s.cores := rfl
@[simp] theorem State.takeDeliv_mem : (s.takeDeliv k).mem = s.mem := rfl
@[simp] theorem State.takeDeliv_emb : (s.takeDeliv k).emb = s.emb := rfl
@[simp] theorem State.takeDeliv_press : (s.takeDeliv k).press = s.press := rfl
@[simp] theorem State.takeDeliv_upd : (s.takeDeliv k).upd = s.upd := rfl
@[simp] theorem State.takeDeliv_collCel : (s.takeDeliv k).collCel = s.collCel := rfl
@[simp] theorem State.takeDeliv_coll : (s.takeDeliv k).coll = s.coll := rfl
@[simp] theorem State.takeDeliv_gathers : (s.takeDeliv k).gathers = s.gathers := rfl
@[simp] theorem State.takeDeliv_gsubs : (s.takeDeliv k).gsubs = s.gsubs := rfl
@[simp] theorem State.takeDeliv_gparts : (s.takeDeliv k).gparts = s.gparts := rfl
@[simp] theorem State.takeDeliv_grads : (s.takeDeliv k).grads = s.grads := rfl
@[simp] theorem State.takeDeliv_gacks : (s.takeDeliv k).gacks = s.gacks := rfl
@[simp] theorem State.takeDeliv_shardReqs : (s.takeDeliv k).shardReqs = s.shardReqs := rfl
@[simp] theorem State.takeDeliv_shardReps : (s.takeDeliv k).shardReps = s.shardReps := rfl
@[simp] theorem State.takeDeliv_dl : (s.takeDeliv k).dl = s.dl := rfl
@[simp] theorem State.takeDeliv_hif : (s.takeDeliv k).hif = s.hif := rfl
@[simp] theorem State.takeDeliv_cave : (s.takeDeliv k).cave = s.cave := rfl
@[simp] theorem State.takeDeliv_fw : (s.takeDeliv k).fw = s.fw := rfl
@[simp] theorem State.takeDeliv_mbx : (s.takeDeliv k).mbx = s.mbx := rfl
@[simp] theorem State.takeDeliv_log : (s.takeDeliv k).log = s.log := rfl
@[simp] theorem State.takeDeliv_job : (s.takeDeliv k).job = s.job := rfl
@[simp] theorem State.takeDeliv_ras : (s.takeDeliv k).ras = s.ras := rfl
@[simp] theorem State.takeDeliv_inp : (s.takeDeliv k).inp = s.inp := rfl
@[simp] theorem State.takeDeliv_pwr : (s.takeDeliv k).pwr = s.pwr := rfl
@[simp] theorem State.takeDeliv_start : (s.takeDeliv k).start = s.start := rfl
@[simp] theorem State.takeDeliv_fuses : (s.takeDeliv k).fuses = s.fuses := rfl
@[simp] theorem State.takeDeliv_sec : (s.takeDeliv k).sec = s.sec := rfl
@[simp] theorem State.takeDeliv_mgmt : (s.takeDeliv k).mgmt = s.mgmt := rfl
@[simp] theorem State.takeDeliv_tap : (s.takeDeliv k).tap = s.tap := rfl
end

section
variable (s : State) (k : CaveId) (p : CavePortSt)
@[simp] theorem State.setCavePort_pending : (s.setCavePort k p).pending = s.pending := rfl
@[simp] theorem State.setCavePort_free : (s.setCavePort k p).free = s.free := rfl
@[simp] theorem State.setCavePort_reply : (s.setCavePort k p).reply = s.reply := rfl
@[simp] theorem State.setCavePort_cores : (s.setCavePort k p).cores = s.cores := rfl
@[simp] theorem State.setCavePort_mem : (s.setCavePort k p).mem = s.mem := rfl
@[simp] theorem State.setCavePort_emb : (s.setCavePort k p).emb = s.emb := rfl
@[simp] theorem State.setCavePort_press : (s.setCavePort k p).press = s.press := rfl
@[simp] theorem State.setCavePort_upd : (s.setCavePort k p).upd = s.upd := rfl
@[simp] theorem State.setCavePort_collCel : (s.setCavePort k p).collCel = s.collCel := rfl
@[simp] theorem State.setCavePort_coll : (s.setCavePort k p).coll = s.coll := rfl
@[simp] theorem State.setCavePort_gathers : (s.setCavePort k p).gathers = s.gathers := rfl
@[simp] theorem State.setCavePort_gsubs : (s.setCavePort k p).gsubs = s.gsubs := rfl
@[simp] theorem State.setCavePort_gparts : (s.setCavePort k p).gparts = s.gparts := rfl
@[simp] theorem State.setCavePort_grads : (s.setCavePort k p).grads = s.grads := rfl
@[simp] theorem State.setCavePort_gacks : (s.setCavePort k p).gacks = s.gacks := rfl
@[simp] theorem State.setCavePort_shardReqs : (s.setCavePort k p).shardReqs = s.shardReqs := rfl
@[simp] theorem State.setCavePort_shardReps : (s.setCavePort k p).shardReps = s.shardReps := rfl
@[simp] theorem State.setCavePort_fab : (s.setCavePort k p).fab = s.fab := rfl
@[simp] theorem State.setCavePort_dl : (s.setCavePort k p).dl = s.dl := rfl
@[simp] theorem State.setCavePort_hif : (s.setCavePort k p).hif = s.hif := rfl
@[simp] theorem State.setCavePort_fw : (s.setCavePort k p).fw = s.fw := rfl
@[simp] theorem State.setCavePort_mbx : (s.setCavePort k p).mbx = s.mbx := rfl
@[simp] theorem State.setCavePort_log : (s.setCavePort k p).log = s.log := rfl
@[simp] theorem State.setCavePort_job : (s.setCavePort k p).job = s.job := rfl
@[simp] theorem State.setCavePort_ras : (s.setCavePort k p).ras = s.ras := rfl
@[simp] theorem State.setCavePort_inp : (s.setCavePort k p).inp = s.inp := rfl
@[simp] theorem State.setCavePort_pwr : (s.setCavePort k p).pwr = s.pwr := rfl
@[simp] theorem State.setCavePort_start : (s.setCavePort k p).start = s.start := rfl
@[simp] theorem State.setCavePort_fuses : (s.setCavePort k p).fuses = s.fuses := rfl
@[simp] theorem State.setCavePort_sec : (s.setCavePort k p).sec = s.sec := rfl
@[simp] theorem State.setCavePort_mgmt : (s.setCavePort k p).mgmt = s.mgmt := rfl
@[simp] theorem State.setCavePort_tap : (s.setCavePort k p).tap = s.tap := rfl
end

section
variable (s : State) (c : Coll)
@[simp] theorem State.setColl_pending : (s.setColl c).pending = s.pending := rfl
@[simp] theorem State.setColl_free : (s.setColl c).free = s.free := rfl
@[simp] theorem State.setColl_reply : (s.setColl c).reply = s.reply := rfl
@[simp] theorem State.setColl_cores : (s.setColl c).cores = s.cores := rfl
@[simp] theorem State.setColl_mem : (s.setColl c).mem = s.mem := rfl
@[simp] theorem State.setColl_emb : (s.setColl c).emb = s.emb := rfl
@[simp] theorem State.setColl_press : (s.setColl c).press = s.press := rfl
@[simp] theorem State.setColl_upd : (s.setColl c).upd = s.upd := rfl
@[simp] theorem State.setColl_collCel : (s.setColl c).collCel = s.collCel := rfl
@[simp] theorem State.setColl_gathers : (s.setColl c).gathers = s.gathers := rfl
@[simp] theorem State.setColl_gsubs : (s.setColl c).gsubs = s.gsubs := rfl
@[simp] theorem State.setColl_gparts : (s.setColl c).gparts = s.gparts := rfl
@[simp] theorem State.setColl_grads : (s.setColl c).grads = s.grads := rfl
@[simp] theorem State.setColl_gacks : (s.setColl c).gacks = s.gacks := rfl
@[simp] theorem State.setColl_shardReqs : (s.setColl c).shardReqs = s.shardReqs := rfl
@[simp] theorem State.setColl_shardReps : (s.setColl c).shardReps = s.shardReps := rfl
@[simp] theorem State.setColl_fab : (s.setColl c).fab = s.fab := rfl
@[simp] theorem State.setColl_dl : (s.setColl c).dl = s.dl := rfl
@[simp] theorem State.setColl_hif : (s.setColl c).hif = s.hif := rfl
@[simp] theorem State.setColl_cave : (s.setColl c).cave = s.cave := rfl
@[simp] theorem State.setColl_fw : (s.setColl c).fw = s.fw := rfl
@[simp] theorem State.setColl_mbx : (s.setColl c).mbx = s.mbx := rfl
@[simp] theorem State.setColl_log : (s.setColl c).log = s.log := rfl
@[simp] theorem State.setColl_job : (s.setColl c).job = s.job := rfl
@[simp] theorem State.setColl_ras : (s.setColl c).ras = s.ras := rfl
@[simp] theorem State.setColl_inp : (s.setColl c).inp = s.inp := rfl
@[simp] theorem State.setColl_pwr : (s.setColl c).pwr = s.pwr := rfl
@[simp] theorem State.setColl_start : (s.setColl c).start = s.start := rfl
@[simp] theorem State.setColl_fuses : (s.setColl c).fuses = s.fuses := rfl
@[simp] theorem State.setColl_sec : (s.setColl c).sec = s.sec := rfl
@[simp] theorem State.setColl_mgmt : (s.setColl c).mgmt = s.mgmt := rfl
@[simp] theorem State.setColl_tap : (s.setColl c).tap = s.tap := rfl
end

section
variable (s : State) (i : Nat) (m : DlMod)
@[simp] theorem State.setDl_pending : (s.setDl i m).pending = s.pending := rfl
@[simp] theorem State.setDl_free : (s.setDl i m).free = s.free := rfl
@[simp] theorem State.setDl_reply : (s.setDl i m).reply = s.reply := rfl
@[simp] theorem State.setDl_cores : (s.setDl i m).cores = s.cores := rfl
@[simp] theorem State.setDl_mem : (s.setDl i m).mem = s.mem := rfl
@[simp] theorem State.setDl_emb : (s.setDl i m).emb = s.emb := rfl
@[simp] theorem State.setDl_press : (s.setDl i m).press = s.press := rfl
@[simp] theorem State.setDl_upd : (s.setDl i m).upd = s.upd := rfl
@[simp] theorem State.setDl_collCel : (s.setDl i m).collCel = s.collCel := rfl
@[simp] theorem State.setDl_coll : (s.setDl i m).coll = s.coll := rfl
@[simp] theorem State.setDl_gathers : (s.setDl i m).gathers = s.gathers := rfl
@[simp] theorem State.setDl_gsubs : (s.setDl i m).gsubs = s.gsubs := rfl
@[simp] theorem State.setDl_gparts : (s.setDl i m).gparts = s.gparts := rfl
@[simp] theorem State.setDl_grads : (s.setDl i m).grads = s.grads := rfl
@[simp] theorem State.setDl_gacks : (s.setDl i m).gacks = s.gacks := rfl
@[simp] theorem State.setDl_shardReqs : (s.setDl i m).shardReqs = s.shardReqs := rfl
@[simp] theorem State.setDl_shardReps : (s.setDl i m).shardReps = s.shardReps := rfl
@[simp] theorem State.setDl_fab : (s.setDl i m).fab = s.fab := rfl
@[simp] theorem State.setDl_dl : (s.setDl i m).dl = s.dl.setMod i m := rfl
@[simp] theorem State.setDl_hif : (s.setDl i m).hif = s.hif := rfl
@[simp] theorem State.setDl_cave : (s.setDl i m).cave = s.cave := rfl
@[simp] theorem State.setDl_fw : (s.setDl i m).fw = s.fw := rfl
@[simp] theorem State.setDl_mbx : (s.setDl i m).mbx = s.mbx := rfl
@[simp] theorem State.setDl_log : (s.setDl i m).log = s.log := rfl
@[simp] theorem State.setDl_job : (s.setDl i m).job = s.job := rfl
@[simp] theorem State.setDl_ras : (s.setDl i m).ras = s.ras := rfl
@[simp] theorem State.setDl_inp : (s.setDl i m).inp = s.inp := rfl
@[simp] theorem State.setDl_pwr : (s.setDl i m).pwr = s.pwr := rfl
@[simp] theorem State.setDl_start : (s.setDl i m).start = s.start := rfl
@[simp] theorem State.setDl_fuses : (s.setDl i m).fuses = s.fuses := rfl
@[simp] theorem State.setDl_sec : (s.setDl i m).sec = s.sec := rfl
@[simp] theorem State.setDl_mgmt : (s.setDl i m).mgmt = s.mgmt := rfl
@[simp] theorem State.setDl_tap : (s.setDl i m).tap = s.tap := rfl
end

@[simp] theorem State.updProc_procs (s : State) (p : ProcId) (f : Proc → Proc) :
    (s.updProc p f).fw.procs = s.fw.procs.set p (f s.fw.procs[p]) := rfl
@[simp] theorem State.updProc_flash (s : State) (p : ProcId) (f : Proc → Proc) : (s.updProc p f).fw.flash = s.fw.flash := rfl
@[simp] theorem State.updQueue_queues (s : State) (q : QId) (f : Queue → Queue) :
    (s.updQueue q f).hif.queues = s.hif.queues.set q (f s.hif.queues[q]) := rfl
@[simp] theorem State.updQueue_session (s : State) (q : QId) (f : Queue → Queue) : (s.updQueue q f).hif.session = s.hif.session := rfl
@[simp] theorem State.updProm_prom (s : State) (f : PromSt → PromSt) : (s.updProm f).fab.prom = f s.fab.prom := rfl
@[simp] theorem State.takeDeliv_deliv (s : State) (k : Nat) : (s.takeDeliv k).fab.deliv = s.fab.deliv.eraseIdx k := rfl
@[simp] theorem State.setCavePort_ports (s : State) (k : CaveId) (p : CavePortSt) :
    (s.setCavePort k p).cave.ports = s.cave.ports.set k p := rfl

/-- An update of a core read back at that core and at another. -/
theorem State.setCore_same (s : State) (c : CoreId) (x : Core) : (s.setCore c x).cores[c] = x := by
  simp [State.setCore]

theorem State.setCore_other (s : State) (c d : CoreId) (x : Core) (h : c ≠ d) : (s.setCore c x).cores[d] = s.cores[d] := by
  have h' : c.val ≠ d.val := fun e => h (Fin.ext e)
  simp [State.setCore, h']

theorem State.updCore_same (s : State) (c : CoreId) (f : Core → Core) : (s.updCore c f).cores[c] = f s.cores[c] :=
  State.setCore_same s c (f s.cores[c])

theorem State.updCore_other (s : State) (c d : CoreId) (f : Core → Core) (h : c ≠ d) : (s.updCore c f).cores[d] = s.cores[d] :=
  State.setCore_other s c d _ h

/-- The state after reset: no command waits, nothing is listed in memory, the memories are canonical, lifecycle and level agree. -/
theorem reset_pending : State.reset.pending = [] := rfl
theorem reset_mem_bytes : State.reset.mem.bytes = [] := rfl
theorem reset_mem_wf : Cells.wf State.reset.mem.bytes = true := rfl
theorem reset_host_wf : Cells.wf State.reset.mem.host = true := rfl

end Sys2Proof.Machine
end

