-- ==== Sys2Proof/WellFormed.lean ====
section
/-! DEFINITION. Well-formed commands: operands in the range that the wire, the window or the table of the spec gives them. -/

namespace Sys2Proof

open Machine

/-- A number below a bound. -/
def below (x n : Nat) : Bool := decide (x < n)

/-- A span of at least one byte inside the first `n`. -/
def spanOk (off len n : Nat) : Bool := decide (0 < len) && decide (off + len ≤ n)

/-- Offset and size of a register access: inside the 64 MiB of the device range, whatever its form (R162, R372). -/
def regOperandOk (off size : Nat) : Bool := spanOk off size 0x4000000 && decide (size ≤ 4096)

/-- A token operand: none, or a body of 64 bytes with a signature of 2,820 (R505). -/
def tokenForm (t : List Byte) : Bool := t.isEmpty || decide (t.length = 64 + 2820)

/-- A mailbox request (R406): header fields in their widths, as many payload bytes as LENGTH says. -/
def Machine.MbxReq.wf (m : MbxReq) : Bool :=
  below m.major 256 && below m.minor 256 && below m.op 65536 && decide (m.payload.length = m.len) && decide (m.len ≤ 4080)

/-- A work item (R73, R75): an image that instruction memory can hold, its entry inside, an argument block inside the core store. -/
def Machine.WorkItem.wf (w : WorkItem) : Bool :=
  below w.vcid 65536 && decide (w.bundles.length ≤ 16384) && below w.entry.toNat w.bundles.length &&
  decide (w.argAddr.toNat + w.args.length ≤ 0x400000)

/-- A packet header's fields in their widths (R286), the piece of a split message inside it (R288). -/
def Machine.Packet.wf (p : Packet) : Bool :=
  below p.dst (2 ^ 24) && below p.src (2 ^ 24) && below p.srcCel 4 && below p.tag 16384 && below p.tagCel 4 && below p.map 8 &&
  below p.status 256 && below p.hops 65536 && below p.cls 4 && below p.rsvd 65536 && below p.crcErr (2 ^ 32) && decide (p.len ≤ 4352) &&
  (match p.part with | some x => decide (x.off + x.n ≤ p.msg.len) && below x.id 65536 | none => true)

/-- A run of 32-byte units of a packet (R285). -/
def Machine.Chunk.wf (c : Chunk) : Bool := c.pkt.wf && decide (0 < c.n) && decide (c.off + c.n ≤ c.pkt.units) && below c.crc (2 ^ 32)

/-- A frame's link word, and runs of at most the 40 units of its five flits (R280, R285). -/
def Machine.Frame.wf (f : Frame) : Bool :=
  below f.fseq 4096 && below f.ack 4096 && below f.cq 8 && below f.cred 4096 && f.chunks.all Chunk.wf && decide (f.chunks.foldl (fun a c => a + c.n) 0 ≤ 40)

/-- A 32-byte command in a flit: a header without payload; a write's LEN counts the data units that follow (R350). -/
def Machine.cmdWf (p : Packet) : Bool :=
  match p.msg with
  | .wr _ _ bs => bs.isEmpty && (match p.part with | some x => x.off = 0 && decide (x.n ≤ 4352) | none => true) && ({ p with part := none } : Packet).wf
  | .rdResp _ bs => bs.isEmpty && p.wf
  | _ => p.wf

/-- A flit's side word and body (R349, R350): nothing, up to eight commands, two data units of 128 bytes or one of 256. -/
def Machine.Flit.wf (f : Flit) : Bool :=
  below f.fseq 4096 && below f.ack 4096 && below f.cq 8 && below f.cred 256 && below f.crcErr (2 ^ 32) && f.body.cmds.all Machine.cmdWf &&
  f.body.units.all (fun u => below u.1 (2 ^ 24)) &&
  (match f.body.kind with
   | 0 => f.body.cmds.isEmpty && f.body.units.isEmpty
   | 1 => decide (f.body.cmds.length ≤ 8) && f.body.units.isEmpty
   | 2 => f.body.cmds.isEmpty && f.body.units.map (fun u => u.2.length) = [128, 128]
   | 3 => f.body.cmds.isEmpty && f.body.units.map (fun u => u.2.length) = [256]
   | _ => false)

/-- The fields of a job configuration in their widths (R418): region entries, descriptors of 64 bytes, communicators of 64 bytes, rows of the
layer table, phases in slots 0 to 7. -/
def Machine.JobConfig.wf (c : JobConfig) : Bool :=
  decide (c.regions.length ≤ 15) && c.tables.all (fun d => decide (d.length = 64)) && c.layers.all (fun l => below l.1 4096) &&
  c.members.all (fun m => below m (2 ^ 24)) && decide (c.comms.flatten.length ≤ 4096) && c.shardTabs.all fun t => below t.1 (2 ^ 48)

/-- A fuse record (R38, R493): serial number of nine digits, revision letter and digit, FLOOR of at most 255. -/
def Machine.Fuses.wf (z : Fuses) : Bool := below z.serial (10 ^ 9) && below z.revLetter 26 && below z.revDigit 10 && below z.floor 256

/-- The operand checks of a command. -/
def Instr.wf (i : Instr) : Bool :=
  match i with
  | .bundleFetch _ => true
  | .slotNop _ _ => true
  | .sAdd _ _ _ _ _ => true
  | .sSub _ _ _ _ _ => true
  | .sAnd _ _ _ _ _ => true
  | .sOr _ _ _ _ _ => true
  | .sXor _ _ _ _ _ => true
  | .sShl _ _ _ _ _ => true
  | .sShr _ _ _ _ _ => true
  | .sSra _ _ _ _ _ => true
  | .sMul _ _ _ _ _ => true
  | .sMin _ _ _ _ _ => true
  | .sMax _ _ _ _ _ => true
  | .sAddi _ _ _ _ _ => true
  | .sLi _ _ _ _ => true
  | .sSli _ _ _ _ => true
  | .sCmp _ _ _ _ _ _ => true
  | .sCmpi _ _ _ _ _ _ => true
  | .sPop _ _ _ _ _ _ => true
  | .sLd _ _ _ _ _ => true
  | .sSt _ _ _ _ _ => true
  | .sFadd _ _ _ _ _ => true
  | .sFmul _ _ _ _ _ => true
  | .sFma _ _ _ _ _ => true
  | .sFcvt _ _ _ _ _ => true
  | .sCsrr _ _ _ _ => true
  | .sCsrw _ _ _ _ => true
  | .sJmp _ _ _ => true
  | .sCall _ _ _ => true
  | .sRet _ _ => true
  | .sLoop _ _ _ _ => true
  | .sHalt _ _ => true
  | .workItemEnd _ => true
  | .workItemDispatch _ w => w.wf
  | .mCfg _ _ _ _ _ => true
  | .mBload _ _ _ _ _ => true
  | .mPass _ _ _ _ _ _ _ => true
  | .passFrontEndStart _ => true
  | .arrayIssueSlot _ => true
  | .passComplete _ => true
  | .bloadStart _ => true
  | .bloadSlotWrite _ => true
  | .levelStep _ _ => true
  | .topupDecrement _ => true
  | .vChain _ _ _ _ => true
  | .vLd _ _ _ _ => true
  | .vSt _ _ _ _ => true
  | .vAcc _ _ _ _ _ _ => true
  | .vRed _ _ _ _ _ => true
  | .vMvs _ _ _ _ _ => true
  | .vSpl _ _ _ _ => true
  | .vOp _ _ _ _ _ _ => true
  | .chainStart _ => true
  | .chainComplete _ => true
  | .xferCopy _ _ _ _ => true
  | .xferFill _ _ _ _ => true
  | .xferWback _ _ _ _ => true
  | .xferWarm _ _ _ _ => true
  | .xferComplete _ _ => true
  | .dCopy _ _ _ _ _ _ => true
  | .dCopyComplete _ _ => true
  | .dAgld _ _ _ _ => true
  | .dImem _ _ _ _ => true
  | .imemLoadComplete _ _ => true
  | .allreduce _ => true
  | .reduceScatter _ => true
  | .allgather _ => true
  | .alltoall _ => true
  | .alltoallv _ => true
  | .permute _ => true
  | .multicast _ => true
  | .barrier _ => true
  | .sgather _ => true
  | .collComplete _ => true
  | .eGather _ _ _ _ => true
  | .gatherComplete _ _ => true
  | .eDesc _ _ _ _ => true
  | .eScatter _ _ _ _ => true
  | .scatterComplete _ _ => true
  | .eFlush _ _ _ _ => true
  | .flushComplete _ _ => true
  | .eDispatch _ _ _ _ => true
  | .dispatchComplete _ _ => true
  | .eCollect _ _ _ _ => true
  | .collectComplete _ _ => true
  | .yWait _ _ _ _ => true
  | .yPost _ _ _ _ => true
  | .yPostr _ _ _ _ _ => true
  | .remotePostDeliver _ _ => true
  | .ySeg _ _ _ => true
  | .yCommit _ _ => true
  | .rewindAccClear _ => true
  | .coreStall _ _ => true
  | .cmbCfgWrite _ _ _ => true
  | .registerWrite _ off size _ => regOperandOk off size
  | .hbmWindowEnd _ _ _ => true
  | .hbmUncorr addr => below addr (2 ^ 48)
  | .hbmCorrectedError _ _ => true
  | .storeEcc _ word _ => below word (2 ^ 22)
  | .csCorrectedError _ _ => true
  | .coreHang _ => true
  | .gsub _ _ => true
  | .gpart _ _ => true
  | .flush _ _ => true
  | .flushAck _ _ => true
  | .bankClearDone _ _ => true
  | .worklistReady _ => true
  | .updateTensorStart _ => true
  | .updSweep1 _ => true
  | .updSweep2 _ => true
  | .updateStop _ => true
  | .journalRecovery _ => true
  | .scrubGroup _ => true
  | .collJoin _ => true
  | .collData _ => true
  | .collAck _ => true
  | .collShardRequest _ _ => true
  | .collShardReply _ _ => true
  | .leaseDeadline _ table step => below table 65536 && below step 65536
  | .collJoinTimeout _ => true
  | .streamStall _ _ => true
  | .backwardCloseBarrier _ _ => true
  | .stepEndBarrier _ _ _ => true
  | .mapSwitchRequest _ => true
  | .mapswVote _ => true
  | .mapswRelease _ => true
  | .fabMapLoad _ => true
  | .frameRx _ f => f.wf
  | .laneSignalFail _ _ => true
  | .optReadyRise _ => true
  | .optReadyFall _ => true
  | .portTrainingDone _ res => below res.peerPort 16
  | .retrain _ => true
  | .packetForward _ => true
  | .rdReq _ _ => true
  | .rdResp _ => true
  | .wr _ _ => true
  | .wrAck _ => true
  | .post _ => true
  | .requestTimeout _ => true
  | .promWalkTimeout _ _ => true
  | .ucieTrainDone _ _ => true
  | .flitRx _ f => f.wf
  | .phyretrainDone _ _ _ => true
  | .ucieL1Entry _ => true
  | .dlTest _ => true
  | .pcieLinkTrain width rate => below width 17 && below rate.gen 6
  | .bar4Read off len => spanOk off len (2 ^ 41)
  | .bar4Write off data => spanOk off data.length (2 ^ 41)
  | .sqSlotWrite _ off data => spanOk off data.length 0xf00000
  | .tailEcho _ => true
  | .doorbell _ _ => true
  | .sqReread _ => true
  | .sqStalled _ => true
  | .resumeQueue _ => true
  | .resetQueue _ _ => true
  | .queueEnable _ _ => true
  | .queueDisable _ => true
  | .cqHead _ _ => true
  | .qNop _ _ => true
  | .qFence _ _ => true
  | .qCopyIn _ _ => true
  | .qCopyOut _ _ => true
  | .qFill _ _ => true
  | .qBatch _ _ => true
  | .qWaitStep _ _ => true
  | .qPost _ _ => true
  | .commandComplete _ _ => true
  | .completionWrite _ => true
  | .hostCompletionTimeout _ => true
  | .cavePortTimeout _ => true
  | .cxlLinkDown _ => true
  | .wdExpiry _ => true
  | .procReloadDone _ => true
  | .mbxDoorbell _ cfg => cfg.all JobConfig.wf
  | .getInfo _ m => m.wf
  | .attach _ m => m.wf
  | .opStatus _ m => m.wf
  | .jobLoad _ m cfg => m.wf && cfg.all JobConfig.wf
  | .jobPark _ m => m.wf
  | .jobResume _ m => m.wf
  | .jobAbort _ m => m.wf
  | .jobStatus _ m => m.wf
  | .mbxExport _ m => m.wf
  | .mbxImport _ m => m.wf
  | .reshard _ m cfg => m.wf && cfg.all JobConfig.wf
  | .promoReset _ m => m.wf
  | .ckptFull _ m => m.wf
  | .promenade _ m => m.wf
  | .linkTest _ m => m.wf
  | .traceSet _ m => m.wf
  | .logInfo _ m => m.wf
  | .logMark _ m => m.wf
  | .coldResetRelease f => f.fuses.wf
  | .overvoltage mv => below mv 100000
  | .sag mv => below mv 100000
  | .sagEnd mv _ => below mv 100000
  | .rideThroughExpiry mv => below mv 100000
  | .protectCoreDeadline _ => true
  | .protectFlushEnd _ => true
  | .clockLoss die cause => below die 11 && below cause 2
  | .coolant _ _ => true
  | .coolantRecover _ _ => true
  | .coolantLow _ => true
  | .dieTemp sensor _ => below sensor 0x1c
  | .dieTempRecover sensor _ => below sensor 0x1c
  | .trip sensor _ => below sensor 0x1c
  | .governorTick _ => true
  | .p2DelayExpiry _ => true
  | .startFromP4 _ => true
  | .readinessEvaluate _ => true
  | .vatDieReset _ => true
  | .vatResetDone _ => true
  | .ckptData _ => true
  | .ckptAck _ => true
  | .ckptHold _ => true
  | .ckptState _ => true
  | .ckptGo _ => true
  | .i3cEntdaa addr => below addr 128
  | .smbusArp addr => below addr 128
  | .setEndpointId eid => below eid 256
  | .getSensorReading sensor => below sensor 65536
  | .setNumericEffecter id v => below id 65536 && below v (2 ^ 32)
  | .setStateEffecter id v => below id 65536 && below v 256
  | .requestUpdate len => below len (2 ^ 32)
  | .requestFirmwareData data => decide (data.length ≤ 1024)
  | .quote _ => true
  | .debugSet v token => below v 256 && tokenForm token
  | .lifecycle v token => below v 256 && tokenForm token
  | .floorRaise v token => below v 256 && tokenForm token
  | .logRead pos count => below pos (2 ^ 64) && below count 65536
  | .tapSamplePreload _ _ => true
  | .tapRegRead _ off size => regOperandOk off size
  | .tapMemRead addr len => spanOk addr len (2 ^ 48)
  | .tapTraceRead count => below count (2 ^ 20 + 1)
  | .tapHalt _ => true
  | .tapResume _ => true
  | .tapStep _ => true
  | .tapRegWrite _ off size _ => regOperandOk off size
  | .tapMemWrite addr data => spanOk addr data.length (2 ^ 48)
  | .tapFlash off len data => spanOk off (match data with | some bs => bs.length | none => len) 0x8000000
  | .cavePwrOkFall _ => true
  | .cavePortTrainingDone _ f => below f.width 17
  | .holdupOk _ => true
  | .detach _ => true
  | .promWalk _ => true
  | .promEnd _ => true
  | .promSet _ => true
  | .promReport _ => true
  | .promDone _ => true
  | .promAsk _ => true
  | .promAskAnswer _ => true
  | .accAdmission _ f => below f.version 65536
  | .partnerCmdTimeout _ _ => true
  | .partnerTempLoss _ => true
  | .partnerOverpower _ => true
  | .loopTestEnd _ _ _ => true
  | .cxlEvent _ data => decide (data.length ≤ 128)
  | .overvoltageRecovery => true
  | .tapIeee1500 die => below die 11
  | .tapStandAlone die => below die 11
  | .restoreComplete => true
  | .memCommit => true
  | .startBarrierDone => true
  | .stepStart => true
  | .mapSwitchDrained => true
  | .mapswTimeout => true
  | .fabCommit => true
  | .promenadeTimeout => true
  | .perstAssert => true
  | .dllDown => true
  | .functionLevelReset => true
  | .busMasterEnableCleared => true
  | .d3hotEntry => true
  | .heartbeatExpiry => true
  | .hifHeartbeat => true
  | .bar4Sync => true
  | .hifHfence => true
  | .suppress => true
  | .inputApplied => true
  | .modResetNFall => true
  | .pwrEnFall => true
  | .pwrEnRise => true
  | .holdupExhausted => true
  | .pwrReqStandby => true
  | .pwrReqResume => true
  | .p3Return => true
  | .startStepTimeout => true
  | .portsSettled => true
  | .askTimeout => true
  | .deltaComplete => true
  | .deltaMergeDone => true
  | .i3cRstdaa => true
  | .pollEvent => true
  | .activateFirmware => true
  | .cancelUpdate => true
  | .getId => true
  | .challenge => true
  | .lifecycleComplete => true
  | .tapBypass => true
  | .tapIdcode => true
  | .tapExtest => true
  | .exportComplete => true
  | .importComplete => true

end Sys2Proof
end

