-- ==== Sys2Proof/Tests/Slice0.lean ====
section
/-! SUPPORT. Tests on small states: well-formedness, bundle words written out from the spec, single steps, and a witness for the hypotheses
of every statement. -/

namespace Sys2Proof.Tests

set_option Elab.async false

open Sys2Proof Sys2Proof.Machine

/-! ## Small states -/

/-- A core in service that runs. -/
def core0 : Core := { Core.zero with ctl := { CoreCtl.zero with enabled := true, run := true } }

/-- A module in P0 after its start, with core 0 as given. -/
def withCore0 (k : Core) : State :=
  { State.reset with
    cores := State.reset.cores.set 0 k
    pwr := { PowerSt.zero with pstate := 0, holdupOk := true }
    inp := { Inputs.reset with pwrEn := true }
    start := { StartSt.zero with coldHeld := false, coldDone := true, stage := 9, ready := true, settled := true, celUp := true, capOk := true, copyOk := true }
    fw := { FwSt.zero with selected := true }
    log := { LogSt.zero with ringUp := true, base := 0x10000 }
    mgmt := { MgmtSt.zero with eid := some 8 } }

def up : State := withCore0 core0

/-- The same with an idle core. -/
def idle : State := withCore0 { core0 with ctl := { core0.ctl with run := false } }

/-- The same with a job running. -/
def busy : State := { up with job := { JobSt.zero with state := 2 } }

/-- The same with a host attached. -/
def hosted : State := { up with hif := { HifSt.zero with linkUp := true, attached := true, bar4Log := 30 } }

def g0 : Guard := .always

/-- A packet delivered to the module. -/
def pkt (m : Msg) : Packet := up.packet 0 0 m

def withPkt (p : Packet) : State := { up with fab := { up.fab with deliv := [p] } }

/-- A core with one outstanding operation. -/
def opIn (b : OpBody) : Op := ⟨1, none, false, [], [], b, false⟩

def withOp (b : OpBody) : State := withCore0 { core0 with ops := [opIn b], seq := 2 }

/-- A pair whose first part is known. -/
theorem fst_of {α β : Type} {x : α × β} {a : α} (h : x.1 = a) : ∃ t, x = (a, t) := ⟨x.2, by rw [← h]⟩

theorem up_runs : up.runs 0 g0 := ⟨by decide +kernel, by decide +kernel⟩

/-! ## Well-formedness: a term that each check refuses -/

def req0 : MbxReq := ⟨1, 0, 0x0001, 0, 1, []⟩

theorem test_wf_accepts : Instr.wf (.getInfo .host req0) = true ∧ Instr.wf (.bar4Read 0 64) = true := by decide +kernel
theorem test_wf_mailbox_length : Instr.wf (.getInfo .host { req0 with len := 8 }) = false := by decide +kernel
theorem test_wf_mailbox_payload : Instr.wf (.getInfo .host { req0 with len := 4081, payload := List.replicate 4081 0 }) = false := by decide +kernel
theorem test_wf_work_item : Instr.wf (.workItemDispatch 0 ⟨0, 0, 0, [0], 1, 0, [], false⟩) = false := by decide +kernel
theorem test_wf_register : Instr.wf (.registerWrite .bar0 0x4000000 8 0) = false := by decide +kernel
theorem test_wf_hbm : Instr.wf (.hbmUncorr (2 ^ 48)) = false := by decide +kernel
theorem test_wf_store : Instr.wf (.storeEcc 0 (2 ^ 22) true) = false := by decide +kernel
theorem test_wf_lease : Instr.wf (.leaseDeadline 0 65536 0) = false := by decide +kernel
theorem test_wf_packet : Packet.wf { pkt .idle with dst := 2 ^ 24 } = false := by decide +kernel
theorem test_wf_frame : Instr.wf (.frameRx 0 ⟨0, 0, false, 8, 0, true, 0, 0, []⟩) = false ∧
    Instr.wf (.frameRx 0 ⟨0, 0, false, 0, 0, true, 0, 0, [⟨pkt .idle, 0, 2, 0⟩]⟩) = false ∧
    Instr.wf (.frameRx 0 ⟨0, 0, false, 0, 0, true, 0, 0, List.replicate 41 ⟨pkt .idle, 0, 1, 0⟩⟩) = false := by decide +kernel
theorem test_wf_port : Instr.wf (.portTrainingDone 0 ⟨0, 16, 0, true⟩) = false := by decide +kernel
theorem test_wf_flit : Instr.wf (.flitRx 0 ⟨0, 0, false, 8, 0, 0, ⟨0, [], []⟩⟩) = false ∧
    Instr.wf (.flitRx 0 ⟨0, 0, false, 0, 0, 0, ⟨3, [], [(0, [])]⟩⟩) = false ∧
    Instr.wf (.flitRx 0 ⟨0, 0, false, 0, 0, 0, ⟨1, [pkt (.wr 0 false [0])], []⟩⟩) = false := by decide +kernel
theorem test_wf_part : Packet.wf { pkt (.post 0 0 0) with part := some ⟨0, 1, true, 0⟩ } = false := by decide +kernel
theorem test_wf_pcie : Instr.wf (.pcieLinkTrain 17 ⟨0, true⟩) = false ∧ Instr.wf (.pcieLinkTrain 16 ⟨6, true⟩) = false := by decide +kernel
theorem test_wf_bar4 : Instr.wf (.bar4Read 0 0) = false ∧ Instr.wf (.bar4Write (2 ^ 41) [0]) = false := by decide +kernel
theorem test_wf_slot : Instr.wf (.sqSlotWrite 0 0xf00000 [0]) = false := by decide +kernel
theorem test_wf_job : Instr.wf (.jobLoad .host { req0 with op := 0x0010, major := 256 } none) = false := by decide +kernel
theorem test_wf_fuses : Instr.wf (.coldResetRelease ⟨{ Fuses.zero with floor := 256 }, false, true⟩) = false := by decide +kernel
theorem test_wf_input : Instr.wf (.sag 100000) = false ∧ Instr.wf (.clockLoss 11 0) = false ∧ Instr.wf (.trip 0x1c 0) = false := by decide +kernel
theorem test_wf_bus : Instr.wf (.smbusArp 128) = false ∧ Instr.wf (.setEndpointId 256) = false := by decide +kernel
theorem test_wf_pldm : Instr.wf (.getSensorReading 65536) = false ∧ Instr.wf (.setStateEffecter 0x0210 256) = false ∧
    Instr.wf (.setNumericEffecter 0x0200 (2 ^ 32)) = false ∧ Instr.wf (.requestFirmwareData (List.replicate 1025 0)) = false ∧
    Instr.wf (.requestUpdate (2 ^ 32)) = false := by decide +kernel
theorem test_wf_token : Instr.wf (.debugSet 2 [0]) = false ∧ Instr.wf (.logRead (2 ^ 64) 0) = false := by decide +kernel
theorem test_wf_tap : Instr.wf (.tapTraceRead (2 ^ 20 + 1)) = false ∧ Instr.wf (.tapMemRead (2 ^ 48) 1) = false ∧
    Instr.wf (.tapFlash 0x8000000 1 none) = false ∧ Instr.wf (.tapStandAlone 11) = false := by decide +kernel
theorem test_wf_cave : Instr.wf (.cavePortTrainingDone 0 ⟨true, 17, false, true, false, false, 1024, 4⟩) = false ∧
    Instr.wf (.cxlEvent 0 (List.replicate 129 0)) = false := by decide +kernel
theorem test_wf_site : Instr.wf (.accAdmission 0 ⟨true, true, 0, 65536, true, 0, true⟩) = false := by decide +kernel

/-- The table gives no row any bits. -/
theorem test_decode_none (n w : Nat) : decodeTableWord n w = none := rfl


/-! ## Bundle words written out from R42, R43, R48, R50, R53 and R54 -/

/-- Opcode 0x10 in [27:22], RD 3, RS1 4, IMM12 −1; guard p2 inverted. -/
theorem test_decode_scalar :
    decodeS (0b010_1_010000_00011_00100_111111111111) = some (.addi 3 4 0xfff#12) ∧
    guardOf (0b010_1_010000_00011_00100_111111111111) = ⟨2, true⟩ := by decide +kernel

/-- s.loop: opcode 0x2c, RS1 in [16:12], END in [11:0]; s.jmp: opcode 0x28, OFF22. -/
theorem test_decode_scalar_flow :
    decodeS (0b000_0_101100_00000_00111_000000000101) = some (.loop 7 5) ∧
    decodeS (0b000_0_101000_1111111111111111111110) = some (.jmp 0x3ffffe#22) ∧
    decodeS (0b000_0_101100_00001_00111_000000000101) = none := by decide +kernel

/-- m.pass: opcode 3, AGA 2, BANK 1, ACC 1, POST 1, SEM 33, KREG 9; m.cfg: opcode 1, FMTA 1, FMTB 3, SPARSE 2. -/
theorem test_decode_matrix :
    decodeM (0b000_0_000011_10_1_1_1_100001_01001_000000) = some (.pass 2 true true (some 33) 9) ∧
    decodeM (0b000_0_000001_0001_0011_10_000000000000) = some (.cfg 1 3 2) ∧ decodeM (0b000_0_000001_0001_0011_10_000000000001) = none := by
  decide +kernel

/-- v.mvs: opcode 6, SD 5, VA 6, IDX 63; v.op: opcode 0x21, FN 2 is stage 18. -/
theorem test_decode_vector :
    decodeV (0b000_0_000110_00101_0_000110_0000_111111) = some (.mvs 5 6 63) ∧
    decodeV (0b000_0_100001_000001_000010_000011_0010) = some (.op 18 1 2 3) := by decide +kernel

/-- d.copy: opcode 2, RSRC 1, RDST 2, RLEN 3, POST 1, SEM 5; y.wait: opcode 0x20, SEM 40, N 255; d.xfer with a reserved bit set. -/
theorem test_decode_move :
    decodeD (0b000_0_000010_00001_00010_00011_1_000101) = some (.copy 1 2 3 (some 5)) ∧
    decodeD (0b000_0_100000_101000_00000000_11111111) = some (.wait 40 255) ∧
    decodeD (0b000_0_000001_00001_0000000001_0_000000) = none := by decide +kernel

/-- The all-zero bundle is four no-ops; a reserved opcode stands for none. -/
theorem test_decode_bundle :
    decodeBundle 0 = ⟨.always, some .nop, .always, some .nop, .always, some .nop, .always, some .nop⟩ ∧
    (decodeBundle 0x0fc00000#128).s = none := by decide +kernel

/-! ## Witnesses: cores -/

/-- A core changed in its registers. -/
def regs0 (r : CoreRegs) : State := withCore0 { core0 with regs := r }

/-- The waiting commands: some at the front, and none. -/
theorem witness_step_takes_front : (State.reset.pending = []) ∧ ({ up with pending := [.sHalt 0 g0] } : State).pending ≠ [] :=
  ⟨rfl, by decide⟩

/-- ScalarArithmetic, ScalarPredicatesAndFloat. -/
theorem witness_scalar_runs : up.runs 0 g0 ∧ up.runs 0 ⟨1, true⟩ := ⟨⟨by decide +kernel, by decide +kernel⟩, ⟨by decide +kernel, by decide +kernel⟩⟩

/-- ScalarLoadStoreAndControlRegisters: a store that meets nothing, listed and unlisted control registers at the ends of their ranges, CYCLE, the
combiner idle and at work. -/
theorem witness_scalar_memory :
    up.runs 0 g0 ∧ (up.cores[0].races 0 (spanCut (up.cores[0].regs.sget 3 + 8 * (0xfff#12).signExtend 64).toNat 8) = false ∧
      up.cores[0].cmb.entries = [] ∧ up.cores[0].seg.isOpen = false) ∧
    csrListed 0x00a = true ∧ (withOp (.combiner 0 [])).cores[0].ops.any Op.isCombiner = true ∧
    (csrListed 0 = true ∧ csrListed 4 = true ∧ csrListed 0x104 = true ∧ csrListed 0x115 = true) ∧
    (csrListed 5 = false ∧ csrListed 0x116 = false ∧ csrListed 0xfff = false) ∧
    (up.cores[0].stallS (some (.csrr 3 0x110)) = false ∧ up.cores[0].stallS (some (.csrw 0x110 3)) = false) ∧
    up.cores[0].ops.any Op.isCombiner = false :=
  ⟨up_runs, by decide +kernel, by decide, by decide +kernel, by decide, by decide, by decide +kernel, by decide +kernel⟩

/-- A core with one bundle of no-ops in its instruction memory; bundle 1 is bad. -/
def fetched : State := withCore0 { core0 with imem := { core0.imem with len := 2, words := [], bad := [1] } }

/-- ScalarControlFlow: a core that may not fetch, one that runs, a bundle in range, past the end, with an error, and a
memory whose contents are free. -/
theorem witness_control_flow :
    State.reset.mayFetch 0 = false ∧ up.runs 0 g0 ∧ (fetched.runs 0 g0 ∧ fetched.cores[0].regs.pc < fetched.cores[0].imem.len ∧
      fetched.cores[0].imem.bad.contains 0 = false ∧ (decodeBundle (Cells.get fetched.cores[0].imem.words 0)).s = some .nop) ∧
    (up.cores[0].imem.len ≤ up.cores[0].regs.pc ∧ (up.cores[0].imem.wild || up.cores[0].imemPending 0) = false) ∧
    fetched.cores[0].imem.bad.contains 1 = true ∧
    (let k := { core0 with imem := { core0.imem with wild := true } }; (withCore0 k).mayFetch 0 = true ∧ k.imem.wild = true) :=
  ⟨by decide +kernel, up_runs, ⟨⟨by decide +kernel, by decide +kernel⟩, by decide +kernel, by decide +kernel, by decide +kernel⟩,
    by decide +kernel, by decide +kernel, by decide +kernel⟩

/-- A bundle of `s.add s3, s1, s2` and `v.spl v4, s5` (opcodes 0x01 and 0x07), alone with an idle vector engine. -/
theorem witness_fetch_two_slots :
    let b := decodeBundle 0b00000001110001000010100000000000_00000000000000000000000000000000_00000000010001100001000100000000#128
    b.s = some (.alu .add 3 1 2) ∧ b.m = some .nop ∧ b.v = some (.spl 4 5) ∧ b.d = some .nop ∧ b.sg.holds core0.regs = true ∧
      b.vg.holds core0.regs = true ∧ core0.vec.chains = [] := by decide +kernel

/-- What the fetch of a bundle with only `s.addi s3, s0, 7` finds. -/
theorem witness_fetch_issues :
    let k := { core0 with imem := { core0.imem with len := 1, words := [(0, 0x04060007#128)] } }
    ∃ y, k.tryIssue ((withCore0 k).env 0) (decodeBundle (Cells.get k.imem.words k.regs.pc)) = .issued y [] .none false :=
  ⟨_, rfl⟩

/-- GuardedOffSlotIsNoOp: p1 is 0 and not inverted. -/
theorem witness_guarded_off : up.mayFetch 0 = true ∧ (up.cores[0].regs.pget (1 : PReg) != false) = false := by decide +kernel

def pass0 : Pass := ⟨0, 0, 0, false, none, 1, 0, MCfg.zero, 0, 0, false, 0, false, 0, 0, false, 0, [], 0, none, false⟩
def load0 : Load := ⟨0, 0, none, 1, 0, MCfg.zero, 0, 0, false, false, 0, false, 0, [], none, false⟩

def passing (ps : List Pass) : State := withCore0 { core0 with arr := { core0.arr with passes := ps, level := 1 } }
def loading (ls : List Load) : State := withCore0 { core0 with arr := { core0.arr with loads := ls } }

/-- MatrixSlotQueuesWork: room in both queues, a post of the right class and one of the wrong class. -/
theorem witness_matrix :
    ((passing (List.replicate 4 pass0)).runs 0 g0 ∧ 4 ≤ (passing (List.replicate 4 pass0)).cores[0].arr.passes.length) ∧ up.runs 0 g0 ∧ semClassOk up.cores[0].seg.isOpen (some 39) = true ∧ semClassOk up.cores[0].seg.isOpen (some 40) = false ∧
    up.cores[0].arr.loads.length < 2 ∧ up.cores[0].arr.passes.length < 4 ∧ up.cores[0].vec.chains = [] ∧
    mcfgOf 5 5 0 ≠ none ∧ mcfgOf 5 1 0 = none ∧ mcfgOf 15 1 0 = none :=
  ⟨⟨⟨by decide +kernel, by decide +kernel⟩, by decide +kernel⟩, up_runs, by decide +kernel, by decide +kernel, by decide +kernel, by decide +kernel,
    by decide +kernel, by decide, by decide, by decide⟩

/-- ArrayEvents, clause by clause. -/
theorem witness_array :
    (up.vcoreOn = true ∧ up.cores[0].ctl.enabled = true ∧ up.coreOn 0 = true) ∧
    ((passing [pass0]).cores[0].arr.frontPass = some pass0 ∧ pass0.count ≠ 0 ∧ ((passing [pass0]).cores[0].ags[(0 : AgId)]).active = false) ∧
    ((passing []).cores[0].arr.issuing = none ∧ 0 < (passing []).cores[0].arr.level) ∧ (up.coreClocked 0 = true ∧ up.cores[0].arr.level = 0) ∧
    ((passing [{ pass0 with count := 0 }]).cores[0].arr.passes = [{ pass0 with count := 0 }] ∧ pass0.spoilt = false) ∧
    ((passing [{ pass0 with started := true, next := 1 }]).cores[0].arr.passes = [{ pass0 with started := true, next := 1 }] ∧
      ({ pass0 with started := true, next := 1 } : Pass).issued = true) ∧
    ((loading [load0]).cores[0].arr.loads = [load0] ∧ load0.started = false ∧ load0.count ≠ 0) ∧
    ((loading [{ load0 with count := 0 }]).cores[0].arr.loads = [{ load0 with count := 0 }]) := by decide +kernel

/-- VectorSlotEffects: an empty chain queue, the last listed functions and a listed stage. -/
theorem witness_vector :
    up.runs 0 g0 ∧ up.cores[0].vec.chains = [] ∧ up.cores[0].outstanding < 32 ∧ up.cores[0].bankWriter 0 up.cores[0].seq = false ∧
    (3#4).toNat ≤ 3 ∧ stageListed 0 = true ∧ stageListed 18 = true :=
  ⟨up_runs, by decide +kernel, by decide +kernel, by decide +kernel, by decide, by decide, by decide⟩

/-- A chain queued, which other vector operations wait for. -/
theorem witness_vector_waits :
    let k := { core0 with vec := { core0.vec with chains := [⟨0, none, 0, List.replicate 64 0, 0, false, false, 0, none, false⟩] } }
    (withCore0 k).runs 0 g0 ∧ k.vec.chains ≠ [] ∧ 3 < (4#4).toNat ∧ stageListed 511 = false :=
  ⟨⟨by decide +kernel, by decide +kernel⟩, by decide, by decide, by decide⟩


/-- A chain ready to start: an empty descriptor, illegal; none; and one that ended without stores. -/
def chain0 : Chain := ⟨0, none, 0, List.replicate 64 0, 0, false, false, 0, none, false⟩

def out0 : ChainOut := ⟨[], [], [], [], 0, 0, false, false, false, false, false, 0, none, 0, [], [], false⟩

/-- A chain of one group and one stage from register v0 to v0. -/
def legalChain : Chain := { chain0 with desc := toLe 4 0x113 ++ toLe 4 1 ++ List.replicate 88 0 }

def chained (c : Chain) : State := withCore0 { core0 with vec := { core0.vec with chains := [c] } }

/-- ChainEvents: nothing to start, an illegal chain at a misaligned address, and a finished chain. -/
theorem witness_chain :
    up.coreClocked 0 = true ∧ up.cores[0].nextChain = none ∧
    (∃ pc x, (chained { chain0 with addr := 1 }).cores[0].chainStart ((chained { chain0 with addr := 1 }).env 0) = .illegal pc x ∧
      x.ctl.fault = false ∧ x.ctl.run = true) ∧
    (∃ x, (chained legalChain).cores[0].chainStart ((chained legalChain).env 0) = .started x) ∧
    ((∃ ch ∈ (chained { chain0 with out := some out0 }).cores[0].vec.chains, ch.out.isSome = true) ∧
      ∀ ch ∈ (chained chain0).cores[0].vec.chains, ch.out = none) :=
  ⟨by decide +kernel, by decide +kernel, ⟨_, _, rfl, rfl, rfl⟩, ⟨_, rfl⟩, by decide +kernel⟩

/-- SemaphoreWaitAndPost: the last private semaphore, a count that reaches, one that does not, a post at and past 65,535, and a class error. -/
def semd (v : W16) : State := regs0 { core0.regs with sem := core0.regs.sem.set 39 v }

theorem witness_semaphore :
    (semd 255).runs 0 g0 ∧ semClassOk (semd 255).cores[0].seg.isOpen (some 39) = true ∧ semClassOk (semd 255).cores[0].seg.isOpen (some 40) = false ∧
    (255#8).toNat ≤ ((semd 255).cores[0].regs.sem[(39 : SemId)]).toNat ∧ ((semd 254).cores[0].regs.sem[(39 : SemId)]).toNat < (255#8).toNat ∧
    ((semd 65280).cores[0].regs.sem[(39 : SemId)]).toNat + (255#8).toNat ≤ 65535 ∧
    65535 < ((semd 65281).cores[0].regs.sem[(39 : SemId)]).toNat + (255#8).toNat ∧
    (semd 0).cores[0].seg.isOpen = false ∧ (semd 0).cores[0].outstanding < 32 :=
  ⟨⟨by decide +kernel, by decide +kernel⟩, by decide +kernel, by decide +kernel, by decide +kernel, by decide +kernel, by decide +kernel,
    by decide +kernel, by decide +kernel, by decide +kernel⟩

/-- A core with an open segment. -/
def inSeg (ovf : Bool) (n : Nat) : State :=
  withCore0 { core0 with seg := { core0.seg with isOpen := true, replays := n }, num := { core0.num with segovf := ovf } }

/-- SegmentOpenAndCommit: outside a segment; commits at the last allowed replay and past it; the clear of the accumulators. -/
theorem witness_segment :
    (up.runs 0 g0 ∧ up.cores[0].seg.isOpen = false) ∧ ((inSeg false 0).runs 0 g0 ∧ (inSeg false 0).cores[0].segIdle = true ∧
      (inSeg false 0).cores[0].num.segovf = false ∧ (inSeg false 0).pwr.protect = none ∧ (inSeg false 0).job.parkLost = false) ∧
    ((inSeg true 2).cores[0].num.segovf = true ∧ (inSeg true 2).cores[0].seg.replays < 3) ∧ 3 ≤ (inSeg true 3).cores[0].seg.replays ∧
    (let k := { core0 with seg := { core0.seg with accClear := true } }
     (withCore0 k).coreOn 0 = true ∧ k.seg.accClear = true ∧ k.accClearReady = true) :=
  ⟨⟨up_runs, by decide +kernel⟩, ⟨⟨by decide +kernel, by decide +kernel⟩, by decide +kernel, by decide +kernel, by decide +kernel, by decide +kernel⟩,
    by decide +kernel, by decide +kernel, by decide +kernel⟩

/-- Registers with a value in s1. -/
def s1 (v : W64) : State := regs0 (core0.regs.sset 1 v)

theorem s1_mayStart (v : W64) (h : (s1 v).runs 0 g0) (h1 : (s1 v).cores[0].seg.isOpen = false) (h2 : (s1 v).cores[0].outstanding < 32) :
    (s1 v).mayStart 0 g0 none := ⟨h, h1, rfl, h2⟩

theorem up_mayStart : up.mayStart 0 g0 none := ⟨up_runs, by decide +kernel, rfl, by decide +kernel⟩

/-- MoveSlotWithinTheCore: a copy up to the end of the store and one past it, a legal generator descriptor, a legal and an illegal d.imem
descriptor (source 1), an empty load, and a core with a segment open. -/
theorem witness_move :
    up.mayStart 0 g0 none ∧ (copyOk 0 0x3ffff0 16 = true ∧ copyOk 0 0x3ffff0 32 = false) ∧
    ((up.cores[0].ags[(0 : AgId)]).active = false ∧ agDescOk (agDescAt up.cores[0].store 0) = true) ∧
    (imemOk (storeLe up.cores[0].store 0 16) = true ∧ imemDesc (storeLe up.cores[0].store 0 16) = (0, 0, 0, 0)) ∧
    imemOk (storeLe (Cells.write [] 0 [1]) 0 16) = false ∧ ((inSeg false 0).runs 0 g0 ∧ (inSeg false 0).cores[0].seg.isOpen = true) :=
  ⟨up_mayStart, by decide, by decide +kernel, by decide +kernel, by decide +kernel, ⟨by decide +kernel, by decide +kernel⟩, by decide +kernel⟩

/-- MoveCompletions: a copy of 16 bytes, an instruction load, and a post to the core itself. -/
theorem witness_completions :
    ((withOp (.copy 0 16 16)).vcoreOn = true ∧ (withOp (.copy 0 16 16)).cores[0].ctl.enabled = true ∧
      (withOp (.copy 0 16 16)).cores[0].opAt 1 = some (opIn (.copy 0 16 16)) ∧ overlaps 0 16 16 16 = false) ∧
    ((withOp (.copy 0 8 16)).cores[0].opAt 1 = some (opIn (.copy 0 8 16)) ∧ overlaps 0 16 8 16 = true) ∧
    (withOp (.imem 0 0 1 0)).cores[0].opAt 1 = some (opIn (.imem 0 0 1 0)) ∧
    ((withOp (.postr 1 48 1)).cores[0].opAt 1 = some (opIn (.postr 1 48 1)) ∧ (withOp (.postr 1 48 1)).postrReady 0 1 1 = true) :=
  ⟨by decide +kernel, by decide +kernel, by decide +kernel, by decide +kernel⟩


/-- The 64 bytes of a descriptor with fields (offset, bytes, value). -/
def desc (l : List (Nat × Nat × Nat)) : List Byte := Cells.dense (l.foldl (fun m x => Cells.write m x.1 (toLe x.2.1 x.2.2)) []) 0 64

/-- Core 0 with a descriptor at store address 0. -/
def withDesc (l : List (Nat × Nat × Nat)) : State := withCore0 { core0 with store := Cells.write [] 0 (desc l) }

theorem withDesc_mayStart (l : List (Nat × Nat × Nat)) : (withDesc l).mayStart 0 g0 none := ⟨⟨rfl, rfl⟩, rfl, rfl, Nat.le_of_ble_eq_true rfl⟩

def entered (l : List (Nat × Nat × Nat)) : State := ((withDesc l).atIssue 0).entersXfer 0 ((withDesc l).descAddr 0 0) none

/-- The descriptors of a copy within the store, of one that overlaps, of a remote read, a fill, a write-back and a warm-up of 16 bytes. -/
def copyD : List (Nat × Nat × Nat) := [(0, 4, 0x90), (4, 4, 16), (16, 8, 0x100)]
def overD : List (Nat × Nat × Nat) := [(0, 4, 0x90), (4, 4, 16)]
def farD : List (Nat × Nat × Nat) := [(0, 4, 0xb0), (4, 4, 16), (0x18, 4, 5)]
def fillD : List (Nat × Nat × Nat) := [(0, 4, 0x81), (4, 4, 16)]
def wbackD : List (Nat × Nat × Nat) := [(0, 4, 2), (4, 4, 16)]
def warmD : List (Nat × Nat × Nat) := [(0, 4, 3), (4, 4, 16)]

/-- TransfersEnter: every operation with nothing to move, and every live clause. -/
theorem witness_transfers :
    (((withDesc []).xdesc 0 0).op = 0 ∧ ((withDesc []).xdesc 0 0).total = 0) ∧ ((withDesc [(0, 4, 1)]).xdesc 0 0).op = 1 ∧
    ((withDesc [(0, 4, 2)]).xdesc 0 0).op = 2 ∧ ((withDesc [(0, 4, 3)]).xdesc 0 0).op = 3 ∧ ((withDesc [(0, 4, 0x8000)]).xdesc 0 0).ok = false ∧
    (∀ l ∈ [copyD, overD, farD, fillD, wbackD, warmD], ((withDesc l).xdesc 0 0).ok = true ∧ ((withDesc l).xdesc 0 0).total ≠ 0) ∧
    ((withDesc copyD).xdesc 0 0).op = 0 ∧ ((withDesc fillD).xdesc 0 0).op = 1 ∧ ((withDesc wbackD).xdesc 0 0).op = 2 ∧
    ((withDesc warmD).xdesc 0 0).op = 3 ∧
    ((entered copyD).isRemote ((withDesc copyD).xdesc 0 0).dspace ((withDesc copyD).xdesc 0 0).dstExt = false ∧
      (entered copyD).isRemote ((withDesc copyD).xdesc 0 0).sspace ((withDesc copyD).xdesc 0 0).srcExt = false) ∧
    ((entered overD).copyOverlaps 0 ((withDesc overD).xdesc 0 0) = true ∧ (entered copyD).copyOverlaps 0 ((withDesc copyD).xdesc 0 0) = false ∧
      (entered farD).isRemote ((withDesc farD).xdesc 0 0).sspace ((withDesc farD).xdesc 0 0).srcExt = true) := by decide +kernel

def xferOp (d : List (Nat × Nat × Nat)) (code : Nat) : Op := opIn (.xfer (desc d) 0 0 code 0)
def inXfer (d : List (Nat × Nat × Nat)) (code : Nat) : State := withOp (.xfer (desc d) 0 0 code 0)

/-- A transfer that waits for the fabric. -/
def waiting : State :=
  let s := inXfer farD stOk
  { s with fab := { s.fab with reqs := [⟨0, 0, 1, 16, 0, 5, 0, .core 0 1, .rdReq 0 16, 0, false, 0, 0, false, stOk, []⟩] } }

/-- TransferCompletes: waiting, ended well without and with a status word, ended with an error. -/
theorem witness_transfer_completes :
    (waiting.vcoreOn = true ∧ waiting.cores[0].ctl.enabled = true ∧ waiting.cores[0].opAt 1 = some (xferOp farD stOk) ∧ waiting.waitsNet 0 1 = true) ∧
    ((inXfer copyD stOk).waitsNet 0 1 = false ∧ (inXfer copyD stOk).xferHeld 0 (XDesc.mk (desc copyD)) = false ∧ (XDesc.mk (desc copyD)).wb = false ∧ (XDesc.mk (desc copyD)).statusw = false) ∧
    ((XDesc.mk (desc [(0, 4, 0x4090)])).wb = false ∧ (XDesc.mk (desc [(0, 4, 0x4090)])).statusw = true) ∧
    ((inXfer copyD stUnmapped).cores[0].opAt 1 = some (xferOp copyD stUnmapped) ∧ stUnmapped ≠ stOk) := by decide +kernel

/-- CoreErrorEvents: an idle core and a running one, a stalled one, a channel not retired, and a line of HBM that is placed. -/
theorem witness_core_errors :
    (idle.coreOn 0 = true ∧ idle.cores[0].ctl.run = false ∧ idle.cores[0].ctl.item = none) ∧ (up.coreOn 0 = true ∧ up.cores[0].ctl.run = true) ∧
    (let k := { core0 with ctl := { core0.ctl with waiting := true } }
     (withCore0 k).coreOn 0 = true ∧ k.ctl.waiting = true) ∧
    (up.running = true ∧ up.mem.isRetired 1023 = false) ∧
    (up.place 0 = .hbm 0 0 ∧ (up.ras.pcUe.any fun x => x.1 = up.mem.channelAt 0 0 && x.2 ≠ 0) = false) := by decide +kernel

/-! ## Witnesses: Cellars -/

/-- A descriptor whose only fault is a reserved bit, a gather of one bag, a routing descriptor with 16 columns. -/
def gatherD : List (Nat × Nat × Nat) := [(4, 4, 1)]
def routeD : List (Nat × Nat × Nat) := [(0, 4, 0x100), (4, 4, 1), (12, 4, 16)]

/-- EmbeddingCommandsEnter: a gather with a reserved bit, and routing descriptors that are bad or name no expert. -/
theorem witness_embedding_enter :
    (GReq.mk (storeRead ((withDesc []).atIssue 0).cores[0].store 0 64)).ok = false ∧ (GReq.mk (desc gatherD)).ok = true ∧
    (RDesc.mk (desc [])).ok = false ∧ ((RDesc.mk (desc [])).writes []).all (fun w => w.1.faddr = 0) = true ∧
    ((withDesc []).gatherOf 0 0).isNone = true := by decide +kernel



def flushed : FlushOp := ⟨0x100, 1, 0, 0, 0, 0, stOk, 0, (0, 0, 0), false⟩
def gathering (noOutput : Bool) (code : Nat) : Gather := ⟨0, 1, 4, desc gatherD, 16, 0, false, code, [], 0, 0, 0, 0, 0, 0, [], 1, [], [], noOutput, none⟩
def withGather (noOutput : Bool) (code : Nat) : State := { withOp (.gather (desc gatherD) 4) with gathers := [gathering noOutput code] }

/-- One token with one choice and one expert, which lives on module 5. -/
def sendD : List (Nat × Nat × Nat) :=
  [(0, 4, 0x1000), (4, 4, 1), (8, 4, 16), (0x10, 4, 0x500), (0x14, 4, 0x200), (0x18, 4, 0x100), (0x1c, 4, 0x300), (0x20, 4, 0x400)]
def farExpert : Cells 8 := Cells.write [] 0x102 [5]
def routing (b : OpBody) : State :=
  withCore0 { core0 with ops := [opIn b], seq := 2, store := farExpert }

/-- EmbeddingCompletions, clause by clause. -/
theorem witness_embedding_completions :
    ((withOp (.scatter 0x100 [1])).cores[0].opAt 1 = some (opIn (.scatter 0x100 [1])) ∧ (withOp (.scatter 0x100 [1])).vcoreOn = true) ∧
    ((withOp (.flush flushed)).cores[0].opAt 1 = some (opIn (.flush flushed)) ∧ flushed.pend = 0 ∧ flushed.auto = false) ∧
    (((withGather true stBadDesc).gathers.find? fun g => g.core = 0 && g.op = 1) = some (gathering true stBadDesc) ∧
      ((withGather false stOk).gathers.find? fun g => g.core = 0 && g.op = 1) = some (gathering false stOk) ∧
      (GReq.mk (gathering false stOk).req).ok = true ∧ (gathering false stOk).pend = [] ∧
      (gathering false stOk).allSent (withGather false stOk).cores[0].store = true) ∧
    ((withOp (.scatter 0x100 [1])).cores[0].cmbTurn (opIn (.scatter 0x100 [1])) = true ∧
      (withOp (.flush flushed)).cores[0].cmbTurn (opIn (.flush flushed)) = true) ∧
    ((RDesc.mk (desc sendD)).ok = true ∧ (routing (.dispatch (desc sendD))).waitsNet 0 1 = false ∧
      ((routing (.dispatch (desc sendD))).netResult 0 1).1 = stOk ∧ ((RDesc.mk (desc sendD)).writes farExpert).length = 1 ∧
      (∀ w ∈ (RDesc.mk (desc sendD)).writes farExpert, w.1.faddr ≠ 0) ∧
      (∀ p ∈ (RDesc.mk (desc sendD)).picks farExpert, p.2.2.1.faddr ≠ 0) ∧ ((RDesc.mk (desc sendD)).picks farExpert).length = 1) ∧
    ((RDesc.mk (desc [])).ok = false ∧ (withOp (.dispatch (desc []))).waitsNet 0 1 = false) := by decide +kernel

/-- A module whose job runs VCID 0 on core 0. -/
def oneJob : State := { idle with job := { JobSt.zero with state := 2, vcids := [0] } }

def item0 : WorkItem := ⟨1, 0, 0, [0], 0, 0, [], false⟩

def ending (k : Core) : State := withCore0 { k with ctl := { k.ctl with halting := true } }
def autoFlush : Op := opIn (.flush { flushed with auto := true })

/-- WorkItemLifecycle: a dispatch, an abrupt end, and an end behind the automatic flush. -/
theorem witness_work_item :
    (oneJob.vcoreOn = true ∧ oneJob.pwr.protect = none ∧ oneJob.cores[0].ctl.enabled = true ∧ oneJob.cores[0].ctl.fenced = false ∧
      oneJob.cores[0].ctl.hung = false ∧ oneJob.cores[0].ctl.run = false ∧ oneJob.job.state = 2 ∧ oneJob.job.stopDispatch = false ∧
      oneJob.ras.dieResetting = none ∧ oneJob.procUp (qpProc (oneJob.dispatchQp (vatOf 0))) = true ∧ oneJob.mayRun 0 item0.vcid = true ∧
      oneJob.cores[0].ctl.standIn = none) ∧
    (let k := { core0 with ctl := { core0.ctl with fault := true } }
     (withCore0 k).coreOn 0 = true ∧ k.ctl.run = true ∧ k.ctl.fault = true) ∧
    (let s := ending { core0 with ops := [autoFlush] }
     s.coreOn 0 = true ∧ s.cores[0].ctl.run = true ∧ s.cores[0].ctl.fault = false ∧ s.cores[0].ctl.halting = true ∧ s.cores[0].vec.chains = [] ∧
       s.cores[0].arr.passes = [] ∧ s.cores[0].arr.loads = [] ∧ s.cores[0].ops = [autoFlush]) := by decide +kernel

def gsub0 : GSub := ⟨0, 0, 0, 0, 0, 0, 4, 0, 1, 0, false, []⟩
def gpart0 : GPart := ⟨0, 1, 0, 0, 0, 0, stOk, [], [], []⟩
def grad0 : GradPacket := ⟨0, 0, 0, 0, 0, 16, false, [], 0, 0, 0, 1⟩

/-- PoolingAndGradientPackets: one of each at the front of its list, and a bank being cleared. -/
theorem witness_pooling :
    up.running = true ∧ ({ up with gsubs := [gsub0] } : State).gsubs[0]? = some gsub0 ∧
    (withPkt (pkt (.gsub gsub0))).holdsPacket 0 (pkt (.gsub gsub0)) ∧ ({ up with gparts := [gpart0] } : State).gparts[0]? = some gpart0 ∧
    (withPkt (pkt (.gpart gpart0))).holdsPacket 0 (pkt (.gpart gpart0)) ∧ (pkt (.gpart gpart0)).msg.typ = 0x11 ∧
    ((withPkt (pkt (.gpart gpart0))).takeDeliv 0).fab.reqOf (pkt (.gpart gpart0)) = none ∧
    ({ up with grads := [grad0] } : State).grads[0]? = some grad0 ∧ (withPkt (pkt (.flush grad0))).holdsPacket 0 (pkt (.flush grad0)) ∧
    ({ up with gacks := [⟨0, 1, 0, 0, 0, 0, 0⟩] } : State).gacks[0]? = some ⟨0, 1, 0, 0, 0, 0, 0⟩ ∧
    (withPkt (pkt (.flushAck 0 0))).holdsPacket 0 (pkt (.flushAck 0 0)) ∧ (pkt (.flushAck 0 0)).msg.typ = 0x13 :=
  ⟨by decide +kernel, by decide +kernel, ⟨by decide +kernel, by decide +kernel⟩, by decide +kernel, ⟨by decide +kernel, by decide +kernel⟩,
    by decide +kernel, by decide +kernel, by decide +kernel, ⟨by decide +kernel, by decide +kernel⟩, by decide +kernel,
    ⟨by decide +kernel, by decide +kernel⟩, by decide +kernel⟩

/-- Packets that fail their CRC, and the first sub-request of its Cellar. -/
theorem witness_pooling_bad :
    (withPkt { pkt (.gsub gsub0) with crcErr := 1 }).fab.deliv[0]? = some { pkt (.gsub gsub0) with crcErr := 1 } ∧
    ({ pkt (.gsub gsub0) with crcErr := 1 } : Packet).crcOk = false ∧ firstOfCellar [] gsub0 = true ∧ firstOfCellar [gsub0] gsub0 = false := by
  decide +kernel

def bank0 (f : GBank → GBank) : State := up.updBank 0 0 f

/-- An applied packet, one that waits for a bank being cleared, and the clear itself. -/
theorem witness_gradients :
    (∃ r t, up.applyGrad 0 grad0 = (some r, t)) ∧ (∃ t, (bank0 fun b => { b with clearing := true }).applyGrad 0 grad0 = (none, t)) ∧
    ((bank0 fun b => { b with clearing := true }).press[(0 : CelId)].banks[(0 : Fin 2)]).clearing = true :=
  ⟨⟨(0, 0), fst_of (by decide +kernel)⟩, fst_of (by decide +kernel), by decide +kernel⟩

/-- GradientPacketVerdict: another version, an old and a sealed step, a bank being cleared, a timely packet of this step and of the next. -/
theorem witness_verdict :
    (up.tdesc 0).version ≠ 1 ∧ (up.tdesc grad0.table).version = grad0.version ∧
    (grad0.step = up.job.step.toNat % 2 ^ 32 ∧ (up.press[(0 : CelId)].banks[bankOf grad0.step]).isSealed = false) ∧
    (1 = (up.job.step.toNat + 1) % 2 ^ 32) ∧ (2 ≠ up.job.step.toNat % 2 ^ 32 ∧ 2 ≠ (up.job.step.toNat % 2 ^ 32 + 1) % 2 ^ 32) ∧
    (let s := bank0 fun b => { b with isSealed := true, step := 0 }
     (s.press[(0 : CelId)].banks[bankOf 0]).isSealed = true ∧ (s.press[(0 : CelId)].banks[bankOf 0]).step = 0) := by decide +kernel

/-! ## Witnesses: the update unit, memory, collectives -/

def entry0 : UpdEntry := ⟨0, 0, 0, 0, 0, 0, 0⟩
def group0 : UpdGroup := ⟨0, false, 0, []⟩
def run0 (a b : Nat) : UpdRun := ⟨entry0, 0, 0, [group0, group0], a, b, 0, 0, false⟩

def updSt (f : UpdSt → UpdSt) : State := { busy with upd := busy.upd.set 0 (f UpdSt.zero) }

/-- A tensor that is ready, with one live key, its journal record begun. -/
def readyTensor : State :=
  let s : State := { busy with job := { busy.job with phase := 4, ready := [entry0] } }
  let s : State := { s with upd := s.upd.set 0 { UpdSt.zero with workReady := true }, mem := { s.mem with bytes := [(2, 1#8)] } }
  s.updBank 0 0 fun b => { b with isSealed := true, keys := [⟨0, 0, 0, 0, 1, false, 0⟩] }

/-- A job with one table of optimizer 1, its descriptor at the base of the runtime region. -/
def tdesc0 : List Byte := desc [(2, 2, 16), (4, 4, 0x1b0)]

def job0 : JobConfig :=
  { bytes := 0, reserved := false, regions := [], pin := 0, layers := [], scaleExp := 0, upInterval := 0, period := 0, thr := 0, promoMin := 0,
    tables := [tdesc0], shardTabs := [], comms := [], cuts := ⟨1, 1, 1, false, 1, 0, 0, 0⟩, members := [0], extent := Vector.replicate 3 1,
    phases := [], defaults := [], updates := [List.replicate 32 0], images := [], stepRetry := 3, rings := 0, ringsUsed := [], splitOk := false, stash := 0,
    round := false, seed := 0, spill := Vector.replicate 4 0 }

def scrubbing : State :=
  { updSt (fun u => { u with cfg := 1 }) with
    job := { JobSt.zero with state := 2, cfg := some job0, ready := [entry0] }, mem := { MemSt.zero with bytes := Cells.write [] 0 tdesc0 } }

/-- UpdateUnitCommands, clause by clause. -/
theorem witness_update :
    (readyTensor.vcoreOn = true ∧ readyTensor.job.phase = 4 ∧ (readyTensor.press[(0 : CelId)].banks[bankOf 0]).isSealed = true ∧
      (readyTensor.upd[(1 : CelId)]).workReady = false) ∧
    (readyTensor.nextTensor 0 = some entry0 ∧ readyTensor.updating 0 = true ∧ readyTensor.journalStep 0 = 0 ∧
      readyTensor.entryGroups 0 entry0 0 ≠ [] ∧ (readyTensor.upd[(0 : CelId)]).run = none) ∧
    (let s := updSt fun u => { u with run := some (run0 0 0) }
     s.vcoreOn = true ∧ (s.upd[(0 : CelId)]).run = some (run0 0 0) ∧ s.wideTrust 0 = false ∧ (run0 0 0).groups[(0 : Nat)]? = some group0) ∧
    ((run0 1 0).done2 < (run0 1 0).done1 ∧ (run0 1 0).groups[(0 : Nat)]? = some group0 ∧ 0 + 1 ≠ (run0 1 0).groups.length) ∧
    ((updSt fun u => { u with stopReq := true }).upd[(0 : CelId)]).stopReq = true ∧ (busy.jobLoaded = true ∧ (busy.upd[(0 : CelId)]).run = none) ∧
    (scrubbing.jobLoaded = true ∧ bits (scrubbing.upd[(0 : CelId)]).cfg.toNat 15 0 ≠ 0 ∧ scrubbing.scrubTables = [0] ∧
      scrubbing.openTensor 0 = true) := by decide +kernel

/-- A runtime region of 16 GiB beside the fixed entry: a valid table, and one of 15 GiB that is refused with 7. -/
def shadowOf (size : Nat) : Vector W64 16 := MemCfg.zero.shadow.set 1 (rgMake 1 1 16 size)

/-- MemoryConfigurationCommit: accepted and refused, and a window's end on either side of the threshold. -/
theorem witness_commit :
    up.pwr.pstate ≤ 3 ∧ commitStatus (shadowOf 16) 0 (Vector.replicate 4 512) false = 0 ∧
    commitStatus (shadowOf 15) 0 (Vector.replicate 4 512) false = 7 ∧ up.running = true ∧
    decide ((up.mem.stat[(0 : CelId)]).hotThr.toNat < (0xffff#16).toNat) = true ∧ decide ((up.mem.stat[(0 : CelId)]).hotThr.toNat < (0#16).toNat) = false := by
  decide +kernel

/-- MemoryReadsWhatWasWritten. -/
theorem witness_memory : Cells.wf up.mem.bytes = true ∧ Cells.wf (up.mem.write 0x1000 [1, 0, 3]).bytes = true := by decide +kernel

/-- The test of a write of three bytes, one of them 0: two cells are listed, and both memories are canonical. -/
theorem test_memory_canonical : (up.mem.write 0x1000 [1, 0, 3]).bytes = [(0x1000, 1), (0x1002, 3)] := by decide +kernel

/-- CollectivesIssue: a descriptor of 64 bytes with the operation of the row, with another, and with a reserved bit; a core that may start one. -/
theorem witness_collective_issue :
    up.running = true ∧ up.procUp (qpProc 0) = true ∧ (desc [(0, 1, 8)]).length = 64 ∧ (CDesc.mk (desc [(0, 1, 8)])).op = 8 ∧
    (CDesc.mk (desc [])).op = 0 ∧ (CDesc.mk (List.replicate 64 0xff#8)).ok = false ∧
    (CDesc.mk (storeRead (withDesc [(0, 1, 8)]).cores[0].store ((withDesc [(0, 1, 8)]).descAddr 0 0) 64)).op = 8 := by decide +kernel

/-- A barrier on communicator 0 with one peer, not joined. -/
def coll0 : Coll :=
  { id := 1, issuer := .qp 0, desc := desc [(0, 1, 7)], comm := 0, cseq := 1, active := true, rank := 0, ranks := 2, peers := [⟨1, 5, false, 0, 0⟩],
    recv := [], phase2 := false, reduced := [], staged := [], shards := [], uvers := [], code := stOk, done := 0, spilled := false,
    reducedSt := [], spoilt := false, logged := false }

def inColl (c : Coll) : State := { up with coll := { up.coll with colls := [c] } }
def inCollPkt (m : Msg) : State := { inColl coll0 with fab := (withPkt { pkt m with src := 5 }).fab }

def joinM : Msg := .coll 0 1 (.join 0 0 0 [])
def dataM : Msg := .coll 0 1 (.data 0 0 0 0 [])
def ackM : Msg := .collAck 0 1 (.ack 1)
def reqM : Msg := .coll 0 1 (.shardReq 0 0 0 0 0 1 0 false false)
def replyM : Msg := .coll 0 1 (.shardReply 0 0 0 stOk 0 [])

/-- CollectiveMessages, clause by clause. -/
theorem witness_collective_messages :
    ((inCollPkt joinM).running = true ∧ (inCollPkt joinM).holdsPacket 0 { pkt joinM with src := 5 } ∧
      (((inCollPkt joinM).takeDeliv 0).receiveStamp (qpProc 0) 0).collOf 0 1 = some coll0) ∧
    ((inCollPkt dataM).holdsPacket 0 { pkt dataM with src := 5 } ∧ (pkt dataM).group < 65536 ∧ ((inCollPkt dataM).takeDeliv 0).collOf 0 1 = some coll0) ∧
    ((inCollPkt ackM).holdsPacket 0 { pkt ackM with src := 5 } ∧ ((inCollPkt ackM).takeDeliv 0).collOf 0 1 = some coll0 ∧ ackM.typ = 0x21) ∧
    (({ up with shardReqs := [pkt reqM] } : State).shardReqs[0]? = some (pkt reqM) ∧ (({ up with shardReqs := [pkt reqM] } : State).answerShard (pkt reqM)).1 ≠ none) ∧
    ((withPkt (pkt reqM)).holdsPacket 0 (pkt reqM) ∧ isShardReq reqM = true) ∧
    ({ up with shardReps := [pkt replyM] } : State).shardReps[0]? = some (pkt replyM) ∧
    ((inColl coll0).collById 1 = some coll0 ∧ coll0.active = true ∧ (coll0.peers.any fun p => !p.joined) = true) :=
  ⟨⟨by decide +kernel, ⟨by decide +kernel, by decide +kernel⟩, by decide +kernel⟩,
    ⟨⟨by decide +kernel, by decide +kernel⟩, by decide +kernel, by decide +kernel⟩,
    ⟨⟨by decide +kernel, by decide +kernel⟩, by decide +kernel, by decide⟩, by decide +kernel,
    ⟨⟨by decide +kernel, by decide +kernel⟩, by decide⟩, by decide +kernel, by decide +kernel⟩

/-- A lease that runs out, a stream that waits for credit, and a collective that ended with BAD_DESC. -/
theorem witness_collective_ends :
    ((⟨3, 7, 1⟩ :: ([] : List Lease)).find? fun l => l.table = 3 && l.step = 7) = some ⟨3, 7, 1⟩ ∧
    ((inColl { coll0 with peers := [⟨1, 5, true, 0, 0⟩] }).coll.colls.reverse.find? (inColl { coll0 with peers := [⟨1, 5, true, 0, 0⟩] }).collWaits) =
      some { coll0 with peers := [⟨1, 5, true, 0, 0⟩] } ∧
    ((inColl { coll0 with code := stBadDesc }).collById 1 = some { coll0 with code := stBadDesc }) := by decide +kernel


/-! ## Witnesses: map switching, the step program, checkpoints -/

def fabd (f : FabSt → FabSt) : State := { up with fab := f up.fab }
def switching (d : Bool) : State := fabd fun f => { f with switch := some ⟨1, 1, d, [], false⟩ }
def mapswM (rel : Bool) : Msg := .mapsw 0 1 rel

/-- MapSwitch, clause by clause; MSEQ 0 is not above the one of reset. -/
theorem witness_map_switch :
    (up.running = true ∧ up.leader.isSome = true ∧ up.fab.switch = none ∧ up.fab.prom.running = false ∧ up.fab.prom.asking = false ∧ up.fab.heldSw = []) ∧
    (switching false).fab.switch.isSome = true ∧ (fabd fun f => { f with prom := { f.prom with running := true } }).fab.prom.running = true ∧
    ((switching false).fab.switch = some ⟨1, 1, false, [], false⟩ ∧ (switching false).drainedNow = true) ∧
    (0 ≤ up.fab.mseq.toNat) ∧ (bits (64#64).toNat 47 0) % 64 = 0 ∧ (bits (1#64).toNat 47 0) % 64 ≠ 0 := by decide +kernel

theorem witness_mapsw_packets :
    (withPkt (pkt (mapswM false))).holdsPacket 0 (pkt (mapswM false)) ∧ (withPkt (pkt (mapswM true))).holdsPacket 0 (pkt (mapswM true)) :=
  ⟨⟨by decide +kernel, by decide +kernel⟩, ⟨by decide +kernel, by decide +kernel⟩⟩

def jobd (f : JobSt → JobSt) : State := { up with job := f JobSt.zero }
def atPhase (n : Nat) : State := { idle with job := { JobSt.zero with state := 2, phase := n } }

/-- StepProgram: the start barrier of a load and of a resume, a step with every ring claimed and one with ring 0 missing, the closing barrier
failed and passed in phases 1 and 3, and the step-end barrier. -/
theorem witness_step_program :
    ((jobd fun j => { j with state := 1, inBarrier := true }).job.inBarrier = true ∧ (jobd fun j => { j with state := 3, inBarrier := true }).job.state = 3) ∧
    (let s := atPhase 0
     s.job.state = 2 ∧ s.job.inBarrier = false ∧ s.ras.recovering = false ∧ s.ras.restoring = none ∧ s.job.reshard = none ∧ s.boundaryBusy = false ∧
       s.leader.isSome = true ∧ s.vcoreOn = true ∧ s.pwr.protect = none ∧ s.job.stopDispatch = false ∧ s.claimAll.1 = true) ∧
    ({ atPhase 0 with job := { (atPhase 0).job with cfg := some { job0 with rings := 1, ringsUsed := [0] } } } : State).claimAll.1 = false ∧
    ((atPhase 1).job.failed = false ∧ (atPhase 3).leader.isSome = true ∧ ((List.finRange 256).all fun c => !(atPhase 3).cores[c].ctl.run) = true) ∧
    ((atPhase 5).job.state = 2 ∧ (atPhase 5).ras.inflight = false ∧ (atPhase 5).ras.stateDue = false) := by decide +kernel

/-- Two members on the first axis, each the other's buddy, with a reserve region of 1 GiB. -/
def job2 : JobConfig := { job0 with members := [0, 1], cuts := ⟨2, 1, 1, false, 1, 0, 1, 2⟩, extent := #v[2, 1, 1] }

def paired (m : Msg) (src : Nat) : State :=
  { withPkt { pkt m with src := src, tag := 1 } with
    fab := { (withPkt { pkt m with src := src, tag := 1 }).fab with wx := 1, dims := #v[2, 1, 1] }
    job := { JobSt.zero with state := 2, cfg := some job2 }
    mem := { MemSt.zero with cfg := { MemCfg.zero with table := MemCfg.zero.table.set 1 (rgMake 1 4 16 1) } }
    ras := { RasSt.zero with epoch := 2, buddyDue := some 0 } }

def ckD (off : Nat) : Msg := .ckpt (.data off [1])
def rec0 : CkptRec := ⟨none, 0, false, false, false, 0, 0, 0⟩

/-- Messages of a checkpoint: data at the last byte of the reserve and one past it, EPOCH below, at and above the member's, STATE, GO, ACK. -/
theorem witness_checkpoint_messages :
    ((paired (ckD 0x3fffffff) 1).fab.deliv[0]? = some { pkt (ckD 0x3fffffff) with src := 1, tag := 1 } ∧
      ((paired (ckD 0) 1).takeDeliv 0).buddyOf 1 = some 0 ∧ 0x3fffffff + 1 ≤ ((paired (ckD 0) 1).takeDeliv 0).reserve.2 ∧
      ¬ (0x40000000 + 1 ≤ ((paired (ckD 0) 1).takeDeliv 0).reserve.2)) ∧
    ((paired (.ckpt (.hold 1)) 1).jobLoaded = true ∧ 1 < (paired (.ckpt (.hold 1)) 1).ras.epoch.toNat ∧
      2 = (paired (.ckpt (.hold 2)) 1).ras.epoch.toNat ∧ (paired (.ckpt (.hold 3)) 1).ras.epoch.toNat < 3) ∧
    ((paired (.ckpt (.state 2 rec0)) 1).fab.deliv[0]? = some { pkt (.ckpt (.state 2 rec0)) with src := 1, tag := 1 }) ∧
    ((paired (.ckpt (.go 2 rec0)) 1).fab.deliv[0]? = some { pkt (.ckpt (.go 2 rec0)) with src := 1, tag := 1 }) ∧
    ((paired (.ckptAck 0) 1).ras.buddyDue = some 0 ∧ ((paired (.ckptAck 0) 1).takeDeliv 0).buddyOf 0 = some 1) := by decide +kernel

def delta0 (step : Nat) (ended : Bool) : Delta := ⟨step, 0, [], ScaleSt.new, ended⟩

def withRas (f : RasSt → RasSt) : State := { busy with ras := f { RasSt.zero with caveOn := true, caveOk := true } }

/-- A delta that completes, a merge two steps behind the newest, and a restore. -/
theorem witness_checkpoint_events :
    (let s := withRas fun r => { r with inflight := true, full := true, deltas := [delta0 0 false] }
     s.running = true ∧ s.ras.caveOn = true ∧ s.ras.caveOk = true ∧ s.ras.inflight = true ∧
       (s.ras.deltas.find? fun d => !d.ended) = some (delta0 0 false) ∧ s.ras.full = true ∧ s.ras.newest = none ∧ s.ras.base = []) ∧
    (let s := withRas fun r => { r with newest := some 2, deltas := [delta0 0 true] }
     s.ras.deltas = [delta0 0 true] ∧ s.ras.newest = some 2 ∧ (delta0 0 true).ended = true ∧ (delta0 0 true).step + 2 ≤ 2) ∧
    (let s := withRas fun r => { r with restoring := some (0, ScaleSt.new, false) }
     s.ras.restoring = some (0, ScaleSt.new, false) ∧ s.jobLoaded = true ∧ s.running = true) := by decide +kernel

/-! ## Witnesses: fabric and die links -/

def portd (f : Port → Port) : State := fabd fun x => { x with ports := x.ports.set 0 (f Port.zero) }
def frame0 (good : Bool) (seq : Nat) : Frame := ⟨seq, 0, false, 0, 0, good, 0, 0, []⟩
def trainR (bad : BitVec 8) (peer : Nat) (ok : Bool) : PortTrain := ⟨bad, peer, 7, ok⟩

/-- FabricPortEvents: a port up, down, failed and training; a bad frame and one out of sequence. -/
theorem witness_ports :
    (let s := portd fun p => { p with state := 2 }
     s.fabricOn = true ∧ s.fab.ports[(0 : PortId)].state = 2 ∧ (frame0 false 0).good = false ∧ (frame0 true 1).fseq ≠ 4095 ∧
       (frame0 true 1).fseq ≠ s.fab.ports[(0 : PortId)].rxSeq) ∧
    (up.fab.ports[(0 : PortId)].state = 0 ∧ (portd fun p => { p with state := 5 }).fab.ports[(0 : PortId)].state = 5) ∧
    (let s := portd fun p => { p with state := 1 }
     s.fab.ports[(0 : PortId)].state = 1 ∧ s.procUp (s.lpFor 0) = true ∧ (s.fab.trained 0 (trainR 0xff 2 true)).state ≠ 2 ∧
       (s.fab.trained 0 (trainR 0xff 2 true)).state ≠ 3) := by decide +kernel

/-- PortTrainingOutcome: every clause at lanes 3 and 4, a failed link on the second and third try, a miscabled peer. -/
theorem witness_port_training :
    (let o := fun (r : PortTrain) (n : Nat) => (({ FabSt.zero with ports := FabSt.zero.ports.set 0 { Port.zero with trainFails := n } }).trained 0 r).state
     o (trainR 0b00011000 2 true) 0 = 5 ∧ o (trainR 0 2 false) 1 = 1 ∧ o (trainR 0 2 false) 2 = 5 ∧ o (trainR 0 3 true) 0 = 4 ∧
       o (trainR 0b1000 2 true) 0 = 3 ∧ o (trainR 0b10000 2 true) 0 = 3 ∧ o (trainR 0 2 true) 0 = 2) := by decide +kernel

def own (r : ReqOwner) (m : Msg) : NetReq := ⟨0, 0, 0, 0, 0, 5, 0, r, m, 0, false, 0, 0, false, stOk, []⟩
def askedFor (m : Msg) (rs : List NetReq) : State := { withPkt (pkt m) with fab := { (withPkt (pkt m)).fab with reqs := rs } }

/-- FabricPackets: one of each, with and without a request that waits. -/
theorem witness_packets :
    ((fabd fun f => { f with inq := [(0, pkt (.post 0 48 1))] }).fab.inq[0]? = some (0, pkt (.post 0 48 1)) ∧ (pkt (.post 0 48 1)).msg.typ ≠ 0x38) ∧
    (withPkt (pkt (.rdReq 0x1000 16))).fab.deliv[0]? = some (pkt (.rdReq 0x1000 16)) ∧ (pkt .idle).crcOk = true ∧
    ((askedFor (.rdResp 0 []) []).takeDeliv 0).fab.reqOf (pkt (.rdResp 0 [])) = none ∧
    ((askedFor (.rdResp 0 []) [own (.queue 0 1) (.rdReq 0 16)]).takeDeliv 0).fab.reqOf (pkt (.rdResp 0 [])) = some (own (.queue 0 1) (.rdReq 0 16)) ∧
    ((askedFor (.wrAck 0) [own (.queue 0 1) (.wr 0 false [])]).takeDeliv 0).fab.reqOf (pkt (.wrAck 0)) = some (own (.queue 0 1) (.wr 0 false [])) ∧
    ((withPkt (pkt (.detach 0 0 0 0))).coll.colls.find? fun c => c.active && (64 * c.cseq + c.comm) % 65536 = 0 && (CDesc.mk c.desc).op = 6) = none ∧
    ((askedFor .idle [own (.firmware 3) (.wr 0 false [])]).fab.reqs[0]? = some (own (.firmware 3) (.wr 0 false [])) ∧
      (own (.firmware 3) (.wr 0 false [])).msg.typ ≠ 0x20) ∧
    ((withPkt { pkt (.post 0 48 1) with crcErr := 1 }).fab.deliv[0]? = some { pkt (.post 0 48 1) with crcErr := 1 }) := by decide +kernel


def promIn (m : PromMsg) (running asking : Bool) : State :=
  fabd fun f => { f with inq := [(0, pkt (.prom 0 m))], prom := { f.prom with running := running, asking := asking } }

/-- Promenade: records at a running and at a resting promenade, a wait for an acknowledgement, and the time-out of an unset address. -/
theorem witness_promenade :
    (∀ m ∈ [PromMsg.walk 0 0 1, .walkAck 2 1, .finish 0 0 1 false, .set 0 1 0 false (Vector.replicate 3 0) (Vector.replicate 3 0) 0, .report 1 1, .done 1 1 1 0 0 0, .ask],
      (promIn m true false).fabricOn = true ∧ (promIn m true false).fab.inq[0]? = some (0, pkt (.prom 0 m)) ∧
      ((promIn m true false).takeInq 0).fab.prom.running = true) ∧
    ((promIn (.answer (Vector.replicate 3 0) (Vector.replicate 3 1) (Vector.replicate 3 0) (Vector.replicate 3 0) 0 0 0) false true).takeInq 0).fab.prom.asking = true ∧
    (({ pkt (.prom 0 .ask) with crcErr := 1 } : Packet).crcOk = false) ∧
    ((fabd fun f => { f with prom := { f.prom with running := true, waiting := f.prom.waiting.set 5 true } }).fab.prom.waiting[(Fin.ofNat 6 (2 * 2 + 1) : Fin 6)] = true) ∧
    (up.fabricOn = true ∧ up.start.settled = true ∧ up.fab.valid = false ∧ up.fab.promOut = 0) := by decide +kernel

/-- DieLinkWidth: two and three bad lanes in either half. -/
theorem witness_width :
    laneCount 0x100000003#64 0 = 2 ∧ laneCount 0x100000003#64 32 = 1 ∧ laneCount 0x7#64 0 = 3 ∧ laneCount 0x700000007#64 32 = 3 := by decide

def dlMod (i : Nat) (f : DlMod → DlMod) : State := up.setDl i (f DlMod.zero)
def ucie (ok : Bool) : UcieTrain := ⟨ok, 0, true, 0, true, 0, false, false, false⟩
def flit0 (err : Nat) : Flit := ⟨0, 0, false, 0, 0, err, ⟨0, [], []⟩⟩

/-- DieLinkEvents, clause by clause; loopback times 1 and 10,000 ms are the ends of its range. -/
theorem witness_die_links :
    (dlListed up.fuses.lx 0 = true ∧ ((dlMod 0 fun m => { m with state := 1 }).dl.modAt 0).state = 1 ∧
      ((dlMod 0 fun m => { m with state := 1, tries := 1 }).dl.modAt 0).tries < 2 ∧ (ucie false).ok = false) ∧
    (up.dl.modAt 0).state ≠ 1 ∧
    (((dlMod 0 fun m => { m with state := 2 }).dl.modAt 0).state = 2 ∧ (dlMod 0 fun m => { m with state := 2 }).inTest 0 = false ∧ (flit0 1).crcOk = false) ∧
    (((dlMod 0 fun m => { m with state := 1, retraining := true }).dl.modAt 0).retraining = true) ∧
    ({ up with pwr := { up.pwr with gated := up.pwr.gated.set 0 true } } : State).pstateNow = 2 ∧
    (bits (0x600#64).toNat 8 0 = 0 ∧ (0x600#64).getLsbD 9 = true ∧ up.jobLoaded = false ∧ up.dl.looping = none ∧ 1 ≤ bits (0x600#64).toNat 25 10 ∧
      bits (0x9c4200#64).toNat 25 10 = 10000) ∧
    ({ up with dl := { up.dl with looping := some 0 } } : State).dl.looping = some 0 := by decide +kernel

def lxd (acc : Nat) : State :=
  { up with fuses := { up.fuses with lx := true }, dl := { up.dl with accPower := #v[true, false], acc := #v[acc, 0] } }

def factsOk : AccFacts := ⟨true, true, 0, 1, true, 64, true⟩

/-- A partner command that waits at site 0 for an address outside its reach, and a transfer to the site's window. -/
def partnerReq (m : Msg) : State := { lxd 1 with dl := { (lxd 1).dl with accReq := [(0, pkt m)] } }
def siteD : List (Nat × Nat × Nat) := [(0, 4, 0x10), (4, 4, 16), (16, 8, 0x0c0000000000)]
def siteXfer : State := { withOp (.xfer (desc siteD) 0 0 0 0) with fuses := { up.fuses with lx := true } }

/-- PartnerSites and PartnerOverpowerRemovesRails: an admission that passes and one that fails (65 GiB), a die in service, requests out of reach. -/
theorem witness_partners :
    ((lxd 0).fuses.lx = true ∧ (lxd 0).dl.accPower[(0 : AccId)] = true ∧ (lxd 0).dl.acc[(0 : AccId)] = 0 ∧
      admissionRefusal factsOk 0 = none ∧ admissionRefusal { factsOk with windowGib := 65 } 0 = some 5) ∧
    (lxd 1).dl.acc[(0 : AccId)] = 1 ∧
    (((partnerReq (.rdReq 0xffffffffff00 16)).takeAcc 0 0).1 = some (pkt (.rdReq 0xffffffffff00 16)) ∧ (partnerReq .idle).partnerMay 0xffffffffff00 16 = false) ∧
    (((partnerReq (.wr 0xffffffffff00 false [0])).takeAcc 0 0).1 = some (pkt (.wr 0xffffffffff00 false [0]))) := by decide +kernel

theorem witness_partner_timeout :
    siteXfer.cores[0].opAt 1 = some (opIn (.xfer (desc siteD) 0 0 0 0)) ∧
    siteXfer.touchesSite 0 (opIn (.xfer (desc siteD) 0 0 0 0)) none = true := by decide +kernel

/-! ## Witnesses: cave, host, queues -/

def caved (f : CavePortSt → CavePortSt) : State := up.setCavePort 0 (f CavePortSt.zero)
def caveOk : CaveFacts := ⟨true, 16, false, true, false, false, 1024, 2⟩

/-- CavePorts: a port training at a start, facts that pass (1 MiB, two decoders are the least) and fail, a port up, power present and lost. -/
theorem witness_cave :
    (let s : State := { caved (fun p => { p with state := 1 }) with start := { up.start with stage := 8 } }
     s.starting = true ∧ s.cave.ports[(0 : CaveId)].state = 1) ∧
    (caveOk.up = true ∧ caveOk.type3 = true ∧ caveOk.cache = false ∧ caveOk.multi = false ∧ 0 < caveOk.volatileMib ∧ 2 ≤ caveOk.decoders) ∧
    ¬ (2 ≤ ({ caveOk with decoders := 1 } : CaveFacts).decoders) ∧ ¬ (0 < ({ caveOk with volatileMib := 0 } : CaveFacts).volatileMib) ∧
    ((caved fun p => { p with state := 2 }).cave.ports[(0 : CaveId)].state = 2 ∧ (caved fun p => p).cave.ports[(0 : CaveId)].pwrOk = true) ∧
    (caved fun p => { p with pwrOk := false }).cave.ports[(0 : CaveId)].pwrOk = false := by decide +kernel

/-- SessionDetaches: an attached session on a trained link, its heartbeat armed; a time of 0 turns the heartbeat off. -/
theorem witness_session :
    hosted.hostLink = true ∧ hosted.hif.attached = true ∧ ({ hosted.hif with hbArmed := true } : HifSt).hbArmed = true ∧
    bits hosted.hif.hbTime.toNat 15 0 ≠ 0 ∧ bits (0#64).toNat 15 0 = 0 ∧
    (State.reset.start.coldHeld = true ∧ State.reset.pwr.pstate = 4) := by decide +kernel

/-- The same with the default region table: runtime memory from 16 GiB on. -/
def windowed : State := { hosted with mem := { hosted.mem with cfg := { hosted.mem.cfg with table := defaultRegions } } }

/-- HostWindows: BAR4 at its last line, in P3, and with a base that is not aligned; the link down. -/
theorem witness_windows :
    (hosted.hostLink = true ∧ hosted.pwr.pstate ≠ 3 ∧ hosted.hif.bar4Ok = true ∧ (2 ^ 30 - 64) + 64 ≤ 2 ^ hosted.hif.bar4Log) ∧
    (windowed.access .host (windowed.hif.bar4Base.toNat + 0x400000000) 1 = stOk ∧ windowed.hostLink = true) ∧
    (let s : State := { hosted with pwr := { hosted.pwr with pstate := 3 } }
     s.hostLink = true ∧ s.pwr.pstate = 3) ∧
    ({ hosted.hif with bar4Base := 1 } : HifSt).bar4Ok = false ∧ hosted.pciePowered = true ∧ up.hostLink = false := by decide +kernel

def queued (f : Queue → Queue) : State := windowed.updQueue 0 fun _ => f { Queue.zero with cfg := 1 + 2 * 6, cqCfg := 6, state := qRunning, nextSeq := 1 }

/-- QueueWindow: a queue of depth 64 that runs, doorbells at the last free entry and one past it, and each other state. -/
theorem witness_queue_window :
    (let x := (queued fun q => q).hif.queues[(0 : QId)]
     (queued fun q => q).hostLink = true ∧ x.depth = some 64 ∧ x.tail = none ∧ x.synced = true ∧ x.state = qRunning ∧
       x.depth.getD 0 < ((65#64).setWidth 32 - x.nextSeq).toNat + 1 ∧ ((64#64).setWidth 32 - x.nextSeq).toNat + 1 ≤ x.depth.getD 0 ∧
       2 ^ 31 ≤ ((0#64).setWidth 32 - x.nextSeq).toNat) ∧
    (queued fun q => { q with state := qStalled }).hif.queues[(0 : QId)].state = qStalled ∧
    (queued fun q => { q with state := qError }).hif.queues[(0 : QId)].state = qError ∧
    (let s := queued fun q => { q with state := qDisabled }
     s.hif.queues[(0 : QId)].state = qDisabled ∧ s.hif.queues[(0 : QId)].cqLog.isSome = true ∧ (13#64).getLsbD 0 = true ∧
       bits (13#64).toNat 4 1 = 6 ∧ bits (31#64).toNat 4 1 = 15) ∧
    (queued fun q => { q with waitVis := true }).hif.queues[(0 : QId)].waitVis = true := by decide +kernel

/-- An entry of 64 bytes: opcode, length, addresses, argument. -/
def sqe (opc len daddr arg : Nat) : Sqe := ⟨1, desc [(0, 4, 1), (4, 1, opc), (0x18, 8, daddr), (0x20, 8, len), (0x28, 8, arg)], false, none, 0⟩
def entryOf (e : Sqe) : State := queued fun q => { q with entries := [e] }
def inJob (s : State) : State := { s with job := { JobSt.zero with state := 2, vcids := [0] } }

/-- QueueCommands: each opcode; copies and fills of 16 bytes to mapped memory; batches of ring 15; posts to a VCID in and outside the map. -/
theorem witness_queue_commands :
    (∀ opc ∈ [0, 1, 2, 3, 4, 5, 6, 7], (entryOf (sqe opc 16 0x400000000 0)).nextEntry 0 1 = some (sqe opc 16 0x400000000 0) ∧ (sqe opc 16 0x400000000 0).ok = true ∧
      (sqe opc 16 0x400000000 0).opc = opc) ∧
    ((entryOf (sqe 2 16 0x400000000 0)).hostUp = true ∧ (entryOf (sqe 2 16 0x400000000 0)).goodPrefix false 0x400000000 16 = (16, stOk) ∧
      (entryOf (sqe 3 16 0x400000000 0)).goodPrefix true 0x400000000 16 = (16, stOk) ∧ 16 % 16 = 0) ∧
    ((inJob (entryOf (sqe 5 16 0x400000000 15))).jobLoaded = true ∧ bits (sqe 5 16 0x400000000 15).arg 15 0 = 15) ∧
    ((inJob (entryOf (sqe 7 0 0 0))).job.vcids.length = 1 ∧ bits (sqe 7 0 0 1).arg 15 0 = 1) ∧
    ((sqe 2 8 0x400000000 0).ok = false ∧ (sqe 2 8 0x400000000 0).opc = 2) := by decide +kernel

/-- A batch of ring 16, a full ring, no job, and an entry of an unlisted opcode. -/
theorem witness_queue_batch :
    bits (sqe 5 16 0x400000000 16).arg 15 0 = 16 ∧ (entryOf (sqe 5 16 0x400000000 0)).jobLoaded = false ∧
    (((List.replicate 256 (0, (⟨0, 0, 0, 0, 0⟩ : BatchRef))).filter fun x => x.1 = 0).length = 256) ∧
    ((entryOf (sqe 8 0 0 0)).nextEntry 0 1 = some (sqe 8 0 0 0) ∧ 8 ≤ (sqe 8 0 0 0).opc) := by decide +kernel

def started : Sqe := { sqe 0 0 0 0 with started := true, code := some stOk }
def cmpl0 : Cmpl := ⟨0, 0, 1, 0, 0, 0, 0, 0, false, false⟩
def record : State := { queued (fun q => q) with hif := { (queued fun q => q).hif with ring := [cmpl0] } }

/-- CommandCompletion: a started entry with an outcome, a record to write, none to write, a transfer to the host. -/
theorem witness_completion_path :
    ((entryOf started).pwr.pstate ≤ 3 ∧ (entryOf started).procUp (qpProc ((entryOf started).queueQp 0)) = true ∧
      (entryOf started).hif.queues[(0 : QId)].entries.find? (fun e => e.seq = 1) = some started ∧ (entryOf started).outcomeOf started = some stOk) ∧
    (record.hif.attached = true ∧ record.hif.linkUp = true ∧ record.nextCmpl 0 = some cmpl0 ∧ record.hif.queues[(0 : QId)].cqLog = some 6) ∧
    hosted.nextCmpl 0 = none ∧
    ((XDesc.mk (desc [(0, 4, 0x210), (4, 4, 16)])).op ≤ 1 ∧ (XDesc.mk (desc [(0, 4, 0x210), (4, 4, 16)])).dspace = 4) := by decide +kernel

/-! ## Witnesses: the mailbox -/

/-- The tests of State.passesMail as one value. -/
def passesB (s : State) (ch : Chan) (m : MbxReq) (cfg : Option JobConfig) : Bool :=
  s.chanUp ch && s.procUp procMP && !s.procHeld procMP && (!needsSp m || s.procUp procSP) && (s.lastMail ch).isNone && m.major = 1 &&
  mbLength m.op = some m.len && (ch = .host) && (s.hif.attached || noSession m.op) && s.mbPermits m.op cfg

theorem passes_of {s : State} {ch : Chan} {m : MbxReq} {cfg : Option JobConfig} (h : passesB s ch m cfg = true) : s.passesMail ch m cfg := by
  simp only [passesB, Bool.and_eq_true, Bool.or_eq_true, Bool.not_eq_true', Option.isNone_iff_eq_none, decide_eq_true_eq] at h
  obtain ⟨⟨⟨⟨⟨⟨⟨⟨⟨h1, h2⟩, h3⟩, h4⟩, h5⟩, h6⟩, h7⟩, h8⟩, h9⟩, h10⟩ := h
  refine ⟨⟨h1, h2, h3, fun hn => ?_, fun r hr => ?_⟩, h6, h7, fun hd => ?_, fun hu => ?_, h10⟩
  · rcases h4 with h4 | h4
    · rw [hn] at h4; cases h4
    · exact .inl h4
  · rw [h5] at hr; cases hr
  · rw [h8] at hd; cases hd.1
  · rcases h9 with h9 | h9
    · rw [hu.2.1] at h9; cases h9
    · rw [hu.2.2] at h9; cases h9

def reqOf (op : Nat) (l : List Byte) : MbxReq := ⟨1, 0, op, l.length, 1, l⟩

/-- A module with a job in state `n`, a host attached and the address of a promenade's root. -/
def mailed (n : Nat) : State := { hosted with job := { JobSt.zero with state := n }, fab := { hosted.fab with root := true, valid := true } }

/-- MailboxChecks: a repeated SEQ, a wrong version, length, channel, session and state; a channel that is down. -/
theorem witness_mailbox_checks :
    ({ hosted with mbx := { MbxSt.zero with lastHost := some ⟨0, 1, 1, 0, []⟩ } } : State).lastMail .host = some ⟨0, 1, 1, 0, []⟩ ∧
    (mailRow 0x0001 .host (reqOf 1 []) none).isSome = true ∧ hosted.passesMail .host (reqOf 0x0001 []) none ∧
    mbLength 0x0001 ≠ some 8 ∧ mailDenied .mgmt 0x0015 ∧ ({ hosted with hif := { hosted.hif with attached := false } } : State).mailUnattached .host 0x0003 ∧
    hosted.mbPermits 0x0011 none = false ∧ State.reset.chanUp .host = false :=
  ⟨by decide +kernel, by decide, passes_of (by decide +kernel), by decide, ⟨rfl, .inr (.inl rfl)⟩, ⟨rfl, rfl, rfl⟩, by decide +kernel, by decide +kernel⟩

/-- MailboxAnswers: every opcode that answers at once; a new session, a known and an unknown one; the last layer and the last trace bit. -/
theorem witness_mailbox_answers :
    hosted.passesMail .host (reqOf 0x0014 []) none ∧ hosted.passesMail .host (reqOf 0x0031 []) none ∧
    hosted.passesMail .host (reqOf 0x0002 (toLe 8 0)) none ∧ hosted.passesMail .host (reqOf 0x0002 (toLe 8 7)) none ∧
    hosted.passesMail .host (reqOf 0x0003 (toLe 8 0)) none ∧ (mailed 2).passesMail .host (reqOf 0x0018 (toLe 2 4095)) none ∧
    (mailed 2).passesMail .host (reqOf 0x0018 (toLe 2 4096)) none ∧ hosted.passesMail .host (reqOf 0x0030 (toLe 2 4095 ++ toLe 2 1 ++ toLe 4 1)) none ∧
    hosted.passesMail .host (reqOf 0x0030 (toLe 2 4095 ++ toLe 2 2 ++ toLe 4 1)) none ∧ hosted.passesMail .host (reqOf 0x0032 (List.replicate 32 0)) none ∧
    (hosted.hif.session ≠ 7 ∧ (7#64) ≠ 0 ∧ hosted.procHeld procSP = false ∧ hosted.opBytes 0 0 = none) := by
  refine ⟨?_, ?_, ?_, ?_, ?_, ?_, ?_, ?_, ?_, ?_, by decide +kernel⟩ <;> exact passes_of (by decide +kernel)

def opOf (op : Nat) : AccOp := ⟨.host, 9, op, [], none, true, none⟩
def withOps (n : Nat) (l : List AccOp) : State := { mailed n with mbx := { MbxSt.zero with ops := l } }

/-- MailboxAdmission: every accepted opcode, an operation of the same kind, an exclusive one, and sixteen of them. -/
theorem witness_admission :
    ((mailed 0).passesMail .host (reqOf 0x0010 (List.replicate 16 0)) none ∧ (mailed 0).passesMail .host (reqOf 0x0010 (List.replicate 16 0)) (some job0)) ∧
    ((mailed 3).passesMail .host (reqOf 0x0012 []) none ∧ (mailed 0).passesMail .host (reqOf 0x0020 []) none ∧
      (mailed 0).passesMail .host (reqOf 0x0021 (toLe 4 0 ++ toLe 4 10000)) none ∧ (mailed 0).passesMail .host (reqOf 0x0021 (toLe 4 0 ++ toLe 4 10001)) none) ∧
    ((mailed 2).passesMail .host (reqOf 0x0013 []) none ∧ (mailed 2).passesMail .host (reqOf 0x0011 []) none ∧
      (mailed 2).passesMail .host (reqOf 0x0015 (List.replicate 24 0)) none ∧ (mailed 3).passesMail .host (reqOf 0x0016 (List.replicate 8 0)) none ∧
      (mailed 2).passesMail .host (reqOf 0x0017 (List.replicate 8 0)) none ∧ (mailed 2).passesMail .host (reqOf 0x0019 []) none) ∧
    ((withOps 2 [opOf 0x0011]).passesMail .host (reqOf 0x0011 []) none ∧ (withOps 2 [opOf 0x0012]).passesMail .host (reqOf 0x0019 []) none ∧
      (withOps 2 [opOf 0x0013]).passesMail .host (reqOf 0x0013 []) none ∧ (withOps 2 (List.replicate 16 (opOf 0x0015))).passesMail .host (reqOf 0x0019 []) none) ∧
    ((mailed 0).linkArgsOk (reqOf 0x0021 (toLe 4 0 ++ toLe 4 10000)) = true ∧ (mailed 0).linkArgsOk (reqOf 0x0021 (toLe 4 0 ++ toLe 4 10001)) = false) ∧
    ((mailed 0).mbx.ops = [] ∧ (mailed 0).procHeld procSP = false) := by
  refine ⟨⟨?_, ?_⟩, ⟨?_, ?_, ?_, ?_⟩, ⟨?_, ?_, ?_, ?_, ?_, ?_⟩, ⟨?_, ?_, ?_, ?_⟩, by decide +kernel, by decide +kernel⟩ <;> exact passes_of (by decide +kernel)

/-- A request in the mailbox's window. -/
def boxed (op : Nat) : State := { hosted with mbx := { MbxSt.zero with req := Cells.write [] 0 ([1] ++ [0] ++ toLe 2 op ++ toLe 4 0 ++ toLe 4 1) } }

/-- MailboxDoorbell: bit 0 clear and set, a request held, one with an opcode that no row has, GET_INFO, and an export and an import under way. -/
theorem witness_doorbell :
    (hosted.hostLink = true ∧ (2#64).getLsbD 0 = false ∧ (1#64).getLsbD 0 = true ∧ ({ MbxSt.zero with state := 1 } : MbxSt).state = 1) ∧
    ((boxed 0x0099).mbx.request.major = 1 ∧ mbLength (boxed 0x0099).mbx.request.op = none ∧ (boxed 0x0099).chanUp .host = true) ∧
    (boxed 0x0001).passesMail .host (boxed 0x0001).mbx.request none ∧
    (mailRow (boxed 0x0001).mbx.request.op .host (boxed 0x0001).mbx.request none).isSome = true ∧
    ((withOps 2 [opOf 0x0015]).opOf 0x0015 = some (opOf 0x0015) ∧ (opOf 0x0015).started = true ∧ (withOps 2 [opOf 0x0015]).running = true) ∧
    ((withOps 3 [opOf 0x0016]).opOf 0x0016 = some (opOf 0x0016) ∧ hosted.opOf 0x0015 = none) :=
  ⟨by decide +kernel, by decide +kernel, passes_of (by decide +kernel), by decide +kernel, by decide +kernel, by decide +kernel⟩


/-! ## Witnesses: firmware, power, start-up -/

def procd (p : ProcId) (n : Nat) : State := up.updProc p fun x => { x with state := n }

/-- ProcessorsAndRegisters: a processor that runs and one in reset, of each group, the first and the last; reachable register windows. -/
theorem witness_processors :
    (up.procOn 0 = true ∧ up.fw.procs[(0 : ProcId)].state = 0 ∧ up.fw.procs[(0 : ProcId)].halted = false) ∧
    ((procd 9 1).procOn 9 = true ∧ (procd 9 1).fw.procs[(9 : ProcId)].state = 1) ∧
    (∀ p : ProcId, p.val < 2 → (procd p 1).procOn p = true ∧ (procd p 1).fw.procs[p].state = 1 ∧ (procd p 1).mbx.held = []) ∧
    (up.start.coldDone = true ∧ up.start.coldHeld = false ∧ up.pwr.pstate ≤ 4 ∧ (∀ x ∈ up.log.rates, x.2.2 ≤ 1000) ∧ up.mgmt.lostMs = 0) ∧
    (hosted.regReach .bar0 = true ∧ up.regReach .fw = true ∧ up.regReach .priv = true ∧ regForm 12 8 = false ∧ regForm 8 2 = false ∧
      hosted.hostLink = true) := by decide +kernel

def powered (f : PowerSt → PowerSt) : State := { up with pwr := f up.pwr }
def inputs (s : State) (f : Inputs → Inputs) : State := { s with inp := f s.inp }

/-- BoardInputs: each power state and input that a clause needs, and readings at their bounds. -/
theorem witness_board :
    ((powered fun p => { p with pstate := 5 }).pwr.pstate = 5 ∧ up.pwr.pstate ≤ 4 ∧ up.pwr.protect = none ∧ up.running = true) ∧
    (inputs up fun i => { i with overvolt := true }).inp.overvolt = true ∧
    (let s := powered fun p => { p with pstate := 3 }
     s.pwr.pstate = 3 ∧ s.starting = false ∧ (inputs s fun i => { i with inputOk := false }).inp.inputOk = false) ∧
    (up.running = true ∧ up.pwr.ride = false ∧ up.pwr.protect = none ∧ up.pwr.holdupOk = true) ∧
    (powered fun p => { p with ride := true }).pwr.ride = true ∧ (inputs (powered fun p => { p with pstate := 4 }) fun i => { i with inputOk := false }).inp.inputOk = false ∧
    (let s : State := { idle with pwr := { idle.pwr with protect := some ⟨false, true⟩ } }
     s.pwr.protect = some ⟨false, true⟩ ∧ s.cores[(0 : CoreId)].ctl.run = false) ∧
    (up.pwr.pstate ≤ 3 ∧ up.pwr.pstate ≤ 4 ∧ up.inp.inputOk = true) := by decide +kernel

/-- ThermalAndGovernor: coolant at and past its limits, the first and last sensors, a die that can be gated, P3 with its causes over. -/
theorem witness_thermal :
    (up.pwr.pstate ≤ 3 ∧ up.starting = false ∧ (450 < 451 ∨ 200 < 200) ∧ 450 ≤ 450 ∧ 200 ≤ 200 ∧ up.pwr.pstate ≤ 4 ∧ 179 < 180) ∧
    (isTemp up.fuses.lx 1 = true ∧ isStack 1 = false ∧ isTemp up.fuses.lx 0x19 = true ∧ isStack 0x19 = true ∧ up.pwr.hot.contains 1 = false) ∧
    (powered fun p => { p with hot := [1] }).pwr.hot.contains 1 = true ∧ up.running = true ∧
    (idle.vcoreOn = true ∧ idle.pwr.gated[(3 : VatId)] = false ∧ bits idle.pwr.cfgNow.toNat 15 8 ≠ 0 ∧
      (∀ c : CoreId, vatOf c = 3 → idle.cores[c].ctl.run = false ∧ idle.cores[c].arr.level = 0)) ∧
    (up.pwr.protect = none ∧ up.job.state = 0 ∧ busy.job.state ≠ 0 ∧ busy.job.state ≠ 3) ∧
    (let s := powered fun p => { p with pstate := 3 }
     s.pwr.pstate = 3 ∧ s.pwr.coolReq ≠ 3 ∧ s.pwr.standby = false ∧ s.inp.inputOk = true ∧ s.inp.pwrEn = true) := by decide +kernel

/-- A module in P4 after a cold start, its supplies as they must be. -/
def inP4 : State := { inputs up (fun i => { i with refOk := true, inputOk := true, coolOk := true, overvolt := false, thermTrip := false }) with
  pwr := { up.pwr with pstate := 4 }, start := { up.start with stage := 2, ready := false } }
def starting0 : State := { up with start := { up.start with stage := 8, ready := false } }
def asking0 (valid : Bool) (n : Nat) : State :=
  { up with start := { up.start with asking := true }, fab := { up.fab with valid := valid, prom := { up.fab.prom with answers := List.replicate n [] } } }
def dieSt (r : Option Nat) : State :=
  { up with cores := up.cores.set 0 { core0 with ctl := { core0.ctl with fenced := true } }, ras := { RasSt.zero with dieResetting := r } }

/-- StartsAndReadiness: the state after reset, P4 with every condition met and one not, a start at its last step, ports settled, ASK, a die fenced. -/
theorem witness_starts :
    (State.reset.start.coldHeld = true ∧ State.reset.pwr.pstate = 4 ∧ up.start.coldHeld = false) ∧
    (inP4.pwr.pstate = 4 ∧ inP4.start.coldDone = true ∧ inP4.start.coldHeld = false ∧ inP4.start.barred = false ∧ inP4.starting = false ∧
      inP4.procUp procMP = true ∧ inP4.fw.selected = true ∧ inP4.inp.thermTrip = false ∧ inP4.inp.refOk = true ∧ inP4.inp.inputOk = true ∧
      inP4.inp.overvolt = false ∧ inP4.inp.volt ≤ 59000 ∧ inP4.inp.pwrEn = true ∧ inP4.inp.coolOk = true ∧ inP4.waitCond = 0 ∧ inP4.sec.raise = false ∧
      (inputs inP4 fun i => { i with pwrEn := false }).inp.pwrEn = false) ∧
    (starting0.starting = true ∧ starting0.stepsEnded = true ∧ starting0.readyCode = 0 ∧
      ({ starting0 with start := { starting0.start with copyOk := false } } : State).readyCode ≠ 0) ∧
    (({ starting0 with start := { starting0.start with settled := false } } : State).start.settled = false ∧ starting0.running = true ∧
      ((List.range 12).any fun i => starting0.fab.portUp i) = false) ∧
    ((asking0 true 0).start.asking = true ∧ (asking0 true 0).fab.valid = true ∧ (asking0 false 1).fab.prom.answers ≠ [] ∧
      (asking0 false 0).fab.prom.answers = [] ∧ (asking0 false 0).fab.valid = false ∧ (asking0 false 0).running = true) ∧
    ((dieSt none).vcoreOn = true ∧ (dieSt none).job.phase = 0 ∧ (dieSt none).ras.dieResetting = none ∧ (dieSt none).dieFenced 0 = true ∧
      (dieSt none).ras.dieResets[(0 : VatId)] < 3 ∧ (dieSt none).pwr.protect = none ∧ (∀ l, l < 16 → (dieSt none).linkFailed l = false)) ∧
    ((dieSt (some 3)).ras.dieResetting = some (3 : VatId).val ∧ (∀ x ∈ (dieSt (some 3)).dl.mods, onDie 3 x.1 = true → x.2.state ≠ 1)) := by
  decide +kernel

/-! ## Witnesses: security, management, TAP -/

def secd (f : SecSt → SecSt) : State := { up with sec := f up.sec }
def lived (v : BitVec 3) (s : State) : State := { s with fuses := { s.fuses with lc := v } }

theorem serves_sec {s : State} {m : SecMsg}
    (h : (s.mgmtTakes (.sec m) && s.procUp procMP && !s.procHeld procMP && s.procUp procSP && !s.procHeld procSP && !s.resuming && !s.starting) = true) :
    s.servesSec m := by
  simp only [Bool.and_eq_true, Bool.not_eq_true'] at h
  obtain ⟨⟨⟨⟨⟨⟨h1, h2⟩, h3⟩, h4⟩, h5⟩, h6⟩, h7⟩ := h
  exact ⟨h1, h2, h3, h4, h5, h6, h7⟩

/-- SecurityMessages: every message served, each lifecycle state and level, the last debug level, transitions with and without a token. -/
theorem witness_security :
    up.servesSec .getId ∧ up.servesSec .challenge ∧ up.servesSec (.quote 0) ∧ up.servesSec (.debugSet 3 []) ∧ up.servesSec (.debugSet 2 []) ∧
    up.servesSec (.lifecycle 1 []) ∧ up.servesSec (.floorRaise 255 []) ∧ up.servesSec (.logRead 0 63) ∧
    (up.fuses.lifecycle = 0 ∧ (lived 7 up).fuses.lifecycle ≠ 0 ∧ (lived 7 up).fuses.hasKey = false ∧ (lived 1 up).fuses.hasKey = true ∧
      up.sec.quoteWait = false ∧ (secd fun x => { x with mark := 1 }).sec.index < (secd fun x => { x with mark := 1 }).sec.mark) ∧
    (2 ≤ up.sec.level ∧ (secd fun x => { x with level := 1 }).sec.level < 2 ∧ (lived 3 up).fuses.lifecycle = 2 ∧ up.fuses.lifecycle ≠ 2 ∧
      busy.job.state ≠ 0) ∧
    (up.sec.update = none ∧ up.sec.pending = none ∧ up.job.state = 0 ∧ transition up.fuses.lifecycle 0 = none ∧
      transition up.fuses.lifecycle 1 = some false ∧ transition (lived 1 up).fuses.lifecycle 2 = some true) ∧
    (up.fuses.floor < 1 ∧ 255 < 256 ∧ (secd fun x => { x with level := 0 }).sec.level = 0) ∧
    ((secd fun x => { x with pending := some 1 }).sec.pending = some 1 ∧ up.busUp = true ∧ up.procUp procSP = true) := by
  refine ⟨?_, ?_, ?_, ?_, ?_, ?_, ?_, ?_, by decide +kernel⟩ <;> exact serves_sec (by decide +kernel)

/-- A token for a lifecycle transition to FIELD: type 2, target 2, this Hub, nonce 1. -/
def token2 : List Byte := [2, 2, 0, 0] ++ toLe 8 0 ++ toLe 32 1 ++ List.replicate 20 0 ++ List.replicate 2820 0
def awaited : State := lived 1 (secd fun x => { x with nonce := some 1 })

theorem and_of {a b : Bool} (h : a = true) : (a && b) = b := by rw [h, Bool.true_and]

/-- The token branches of SecurityMessages rest on the verification function, which has no body: the token is good exactly if that
accepts its signature, so each branch is met under one of its two values. -/
theorem witness_token :
    awaited.servesSec (.lifecycle 2 token2) ∧ transition awaited.fuses.lifecycle 2 = some true ∧ awaited.sec.update = none ∧
    awaited.tokenOk 2 2 token2 = Config.xmssVerify awaited.fuses.authPk (Config.shake256 (token2.take 64)) (token2.drop 64) ∧
    up.tokenOk 2 2 [] = false := by
  refine ⟨serves_sec (by decide +kernel), by decide +kernel, by decide +kernel, ?_, by decide +kernel⟩
  unfold State.tokenOk
  exact and_of (by decide +kernel)

def mgmtd (f : MgmtSt → MgmtSt) : State := { up with mgmt := f up.mgmt }
def updating (u : FwUpdate) : State := secd fun x => { x with update := some u }

theorem serves_mgmt {s : State} {m : MgmtMsg}
    (h : (s.mgmtTakes m && s.procUp procMP && !s.procHeld procMP && (!s.endsUpdate m || (s.procUp procSP && !s.procHeld procSP))) = true) :
    s.servesMgmt m := by
  simp only [Bool.and_eq_true, Bool.not_eq_true', Bool.or_eq_true] at h
  obtain ⟨⟨⟨h1, h2⟩, h3⟩, h4⟩ := h
  refine ⟨h1, h2, h3, fun he => ?_⟩
  rcases h4 with h4 | h4
  · rw [he] at h4; cases h4
  · exact h4

/-- ManagementMessages: every message served, EIDs and effecters at their bounds, queued events, each kind of sensor, each state of an update. -/
theorem witness_management :
    (up.busUp = true ∧ up.mgmt.i3c = none ∧ 127 < 128) ∧
    up.servesMgmt (.setEid 1) ∧ up.servesMgmt (.setEid 254) ∧ up.servesMgmt .poll ∧ up.servesMgmt (.sensor 1) ∧
    up.servesMgmt (.numeric 0x0200 1500) ∧ up.servesMgmt (.numeric 0x0201 63) ∧ up.servesMgmt (.numeric 0x0202 255) ∧
    up.servesMgmt (.state 0x0210 3) ∧ up.servesMgmt (.requestUpdate 0x3000000) ∧ up.servesMgmt .cancel ∧
    (updating ⟨1, 0, 2000, none⟩).servesMgmt (.data (List.replicate 1024 0)) ∧ (updating ⟨1, 8, 8, some 0⟩).servesMgmt .activate ∧
    (updating ⟨1, 0, 2000, none⟩).servesMgmt .cancel ∧
    (up.mgmt.events = [] ∧ (mgmtd fun m => { m with events := [(1, 2)] }).mgmt.events = [(1, 2)]) ∧
    (sensorListed up.fuses.lx 1 = true ∧ up.sensorOn 1 = true ∧ up.heldReading 1 = none ∧ up.heldReading 0x0100 = some 0 ∧
      (powered fun p => { p with pstate := 3 }).sensorOn 4 = false) ∧
    (up.sec.update = none ∧ 1024 = min 1024 (2000 - 0) ∧ 0 + 1024 < 2000) := by
  refine ⟨by decide +kernel, ?_, ?_, ?_, ?_, ?_, ?_, ?_, ?_, ?_, ?_, ?_, ?_, ?_, by decide +kernel, by decide +kernel, by decide +kernel⟩ <;>
    exact serves_mgmt (by decide +kernel)

/-- TapClassesPermitted: each level and lifecycle state, a halted core, a bus on and off; LifecycleSetsTheLevel: each fuse code. -/
theorem witness_tap :
    (up.pwr.pstate ≤ 4 ∧ up.sec.level = 2 ∧ (secd fun x => { x with level := 1 }).sec.level < 2 ∧ (secd fun x => { x with level := 0 }).sec.level ≠ 2) ∧
    ((regs0 core0.regs).sec.level = 2 ∧ ({ up with cores := up.cores.set 0 { core0 with ctl := { core0.ctl with tapHalt := true } } } : State).cores[(0 : CoreId)].ctl.tapHalt = true) ∧
    (up.fuses.lifecycle ≠ 2 ∧ up.fuses.lifecycle = 0 ∧ (lived 1 up).fuses.lifecycle = 1 ∧ (lived 3 up).fuses.lifecycle = 2 ∧ (lived 7 up).fuses.lifecycle = 3) ∧
    (up.dieOn 8 = true ∧ up.tap.testMode.contains 8 = false ∧ up.dieOn 10 = false) ∧ 4 < (powered fun p => { p with pstate := 5 }).pwr.pstate := by decide +kernel

/-- A step of a halted core fetches: the last premise of the TAP statement. -/
theorem witness_tap_step :
    let s : State := { up with cores := up.cores.set 0 { core0 with ctl := { core0.ctl with tapHalt := true } } }
    (match ((s.tapSelect irStep).updCore 0 fun x => { x with ctl := { x.ctl with tapHalt := false } }).fetch 0 with
      | .next _ => true | _ => false) = true := by decide +kernel

/-- FieldNeverReachesFull: the state after reset meets it, a FIELD module at OBSERVE too, and both step. -/
theorem witness_field : State.reset.secOk ∧ (lived 3 (secd fun x => { x with level := 1 })).secOk ∧ step State.reset = .next State.reset :=
  ⟨⟨by decide, fun h => absurd h (by decide)⟩, ⟨by decide, fun _ => ⟨by decide, by decide⟩⟩, rfl⟩

/-- CommandsLeaveTheQueue: a command with others waiting behind it. -/
theorem witness_queue_kept : ∃ t, exec .tapBypass { up with pending := [.bar4Sync] } = .next t := ⟨_, rfl⟩


/-! ## Values the spec states -/

/-- The example of R139: amax 15 and 0.2 in MXFP4 take the scale 2^2, so 15 is stored as 4 and 0.2 as 0. -/
theorem test_mxfp4_example :
    let b := mxBlock .mx4 (fun _ => .rne) (f32 0x41700000 :: f32 0x3e4ccccd :: List.replicate 30 (f32 0))
    b.1 = 129 ∧ b.2.take 2 = [(6, .normal), (0, .ftz)] := by decide +kernel

/-- R138, beyond range: 520 saturates to 448 in E4M3, becomes infinite in FP16 only above 65,504, saturates in INT8. -/
theorem test_narrow_beyond :
    Fmt.narrow .e4m3 .rne (f32 0x44020000) = (0x7e, .ovf) ∧ Fmt.narrow .fp16 .rne (f32 0x4788b800) = (0x7c00, .ovf) ∧
    Fmt.narrow .int8 .rne (f32 0xc3480000) = (0x80, .ovf) := by decide +kernel

/-- R137, ties to even: 2.5 and 3.5 in INT8 give 2 and 4; 1 + 2^-8 in BF16 gives 1. -/
theorem test_narrow_ties :
    Fmt.narrow .int8 .rne (f32 0x40200000) = (2, .normal) ∧ Fmt.narrow .int8 .rne (f32 0x40600000) = (4, .normal) ∧
    roundBf16 0x3f808000 = 0x3f800000#32 := by decide +kernel

/-- R203 with HOMESEL 0, where n is q[1:0] XOR the XOR of the higher 2-bit fields: q = 4, 9 and 0x1b. -/
theorem test_home :
    let d := TDesc.mk (List.replicate 64 0)
    d.home 4 = (1, 1) ∧ d.home 9 = (3, 2) ∧ d.home 0x1b = (3 ^^^ 2 ^^^ 1, 6) := by decide +kernel

/-- R252, code 1 with η = 0.5 and λ = 0.5: g = 0.25, w = 1 give Δ = -0.5 (0.25 + 0.5) = -0.375; code 2 with μ = 0.5 and
m = 2 gives m′ = 0.5 x 2 + 0.75 = 1.75. -/
theorem test_rules :
    let h : Hyp := ⟨toLe 4 0x3f000000 ++ toLe 4 0x3f000000 ++ toLe 4 0x3f000000 ++ List.replicate 52 0⟩
    increment 1 h 1 [0x3e800000] [f32 f32One] [] none = [0xbec00000] ∧
    nextState 2 h [0x3e800000] [f32 f32One] [0x40000000] = [0x3fe00000] := by decide +kernel

/-- R150: the scale rises after UP_INTERVAL clean steps, stays at 32 with BOUND, and falls on an overflow. -/
theorem test_scale :
    (ScaleSt.endStep ⟨16, 1999, 2000, 0, true⟩ false 0 0).1.exp = 17 ∧ (ScaleSt.endStep ⟨32, 1999, 2000, 0, true⟩ false 0 0) =
      (⟨32, 0, 2000, 0, true⟩, true) ∧ (ScaleSt.endStep ⟨16, 5, 2000, 0, true⟩ true 0 0).1 = ⟨15, 0, 2000, 0, true⟩ := by decide +kernel

/-- R48: a sum wraps modulo 2^64, an arithmetic shift keeps the sign and uses rs2[5:0], a product keeps its low half. -/
theorem test_scalar_results :
    let r := (core0.regs.sset 1 0xffffffffffffffff#64).sset 2 65#64
    let val := fun i => match exec i (regs0 r) with | .next t => t.cores[(0 : CoreId)].regs.sget 3 | _ => 0#64
    val (.sAdd 0 g0 3 1 2) = 64#64 ∧ val (.sSra 0 g0 3 1 2) = 0xffffffffffffffff#64 ∧ val (.sShr 0 g0 3 1 2) = 0x7fffffffffffffff#64 ∧
    val (.sMul 0 g0 3 1 2) = 0xffffffffffffffbf#64 := by decide +kernel

/-- R62: a post beyond 65,535 saturates the semaphore and sets SEM_OVF. -/
theorem test_post_saturates :
    (match exec (.yPost 0 g0 39 5) (semd 65533) with
     | .next t => (t.cores[(0 : CoreId)].regs.sem[39], t.cores[(0 : CoreId)].ctl.semOvf)
     | _ => (0, false)) = (65535#16, true) := by decide +kernel

/-- R54: a copy of 16 bytes lands at its destination. -/
theorem test_copy_lands :
    (match exec (.dCopyComplete 0 1) (withCore0 { core0 with store := Cells.write [] 0x100 [1, 2, 3], ops := [opIn (.copy 0x100 0x200 16)], seq := 2 }) with
     | .next t => storeRead t.cores[(0 : CoreId)].store 0x200 4
     | _ => []) = [1, 2, 3, 0] := by decide +kernel

end Sys2Proof.Tests
end

section
/-! SUPPORT. The statements of the package's outside: the state after reset, partner dies, cave ports, the host's windows, starts and
readiness, fabric ports. For each command, one lemma per condition under which it acts or does nothing. -/

namespace Sys2Proof.Machine

/-! ## What an event whose conditions are tested answers -/

theorem onlyIf_of_true {b : Bool} {s : State} {f : State → Res} (h : b = true) : onlyIf b s f = f s := if_pos h

theorem onlyIf_of_false {b : Bool} {s : State} {f : State → Res} (h : b = false) : onlyIf b s f = .next s := by
  simp [onlyIf, h]

/-! ## The state after reset -/

/-- The level of reset is NONE, and its fuses are not those of lifecycle FIELD. -/
theorem reset_secOk : State.reset.secOk := ⟨by decide, fun h => absurd h (by decide)⟩

theorem reset_queue_disabled (q : QId) : State.reset.hif.queues[q].state = qDisabled := by
  simp [State.reset, HifSt.zero, Queue.zero, qDisabled]

theorem reset_core (c : CoreId) : State.reset.cores[c] = Core.zero := by
  simp [State.reset]

/-- Settles O58: every memory of reset is empty, and a core of reset is `Core.zero`. -/
theorem stateAfterReset : Obligations.StateAfterReset := by
  refine ⟨reset_pending, ⟨reset_mem_wf, reset_host_wf⟩, reset_secOk, reset_mem_bytes, rfl, rfl, rfl, rfl, rfl, reset_queue_disabled,
    fun c => ?_⟩
  rw [reset_core]
  exact ⟨rfl, rfl, rfl⟩

/-! ## Modules of the die links: what a read of a module gives after a write -/

theorem DlSt.modAt_setMod_same (d : DlSt) (i : Nat) (m : DlMod) : (d.setMod i m).modAt i = m := by
  have below : (d.mods.filter fun p => p.1 < i).find? (fun p => p.1 = i) = none := by
    simp only [List.find?_eq_none, List.mem_filter, decide_eq_true_eq]
    omega
  simp [DlSt.modAt, DlSt.setMod, List.find?_append, below]

theorem DlSt.modAt_setMod_other (d : DlSt) {i j : Nat} (m : DlMod) (h : j ≠ i) : (d.setMod i m).modAt j = d.modAt j := by
  have find_filter (q : Nat × DlMod → Bool) (hq : ∀ p, p.1 = j → q p = true) :
      (d.mods.filter q).find? (fun p => p.1 = j) = d.mods.find? (fun p => p.1 = j) := by
    rw [List.find?_filter]
    congr 1; funext p
    by_cases hp : p.1 = j <;> simp [hp, hq]
  have find_none (q : Nat × DlMod → Bool) (hq : ∀ p, p.1 = j → q p = false) :
      (d.mods.filter q).find? (fun p => p.1 = j) = none := by
    simp only [List.find?_eq_none, List.mem_filter, decide_eq_true_eq]
    intro p ⟨_, hp⟩ e
    simp [hq p e] at hp
  unfold DlSt.modAt DlSt.setMod
  congr 2
  rcases Nat.lt_or_gt_of_ne h with lt | gt
  · rw [List.find?_append, find_filter _ (by simp; omega), List.find?_cons_of_neg (by simp; omega), find_none _ (by simp; omega), Option.or_none]
  · rw [List.find?_append, find_none _ (by simp; omega), List.find?_cons_of_neg (by simp; omega), find_filter _ (by simp; omega), Option.none_or]

/-- The two modules of a partner site's link (R347). -/
theorem linkIndices_site (site : AccId) : linkIndices (16 + site.val) = [16 * (16 + site.val), 16 * (16 + site.val) + 1] := by
  have two : linkMods (16 + site.val) = 2 := by
    rw [linkMods, if_neg (by omega), if_neg (by omega), if_pos (by omega)]
  simp [linkIndices, two, List.range_succ]

/-- Removing a site's rails fails the modules of its link and leaves every other module as it is (R36). -/
theorem dropSite_modAt (s : State) (site : AccId) (code i : Nat) :
    (s.dropSite site code).dl.modAt i =
      if i = 16 * (16 + site.val) ∨ i = 16 * (16 + site.val) + 1 then { s.dl.modAt i with state := 4, stored := [], sendq := [] }
      else s.dl.modAt i := by
  simp only [State.dropSite, linkIndices_site, List.foldl_cons, List.foldl_nil]
  generalize 16 * (16 + site.val) = j
  change (DlSt.setMod (s.dl.setMod j _) (j + 1) _).modAt i = _
  by_cases h1 : i = j + 1
  · subst h1
    rw [if_pos (.inr rfl), DlSt.modAt_setMod_same, DlSt.modAt_setMod_other _ _ (by omega)]
  · rw [DlSt.modAt_setMod_other _ _ h1]
    by_cases h0 : i = j
    · subst h0
      rw [if_pos (.inl rfl), DlSt.modAt_setMod_same]
    · rw [if_neg (by omega), DlSt.modAt_setMod_other _ _ h0]

theorem foldl_setMod_acc (f : DlSt → Nat → DlMod) (l : List Nat) (d : DlSt) :
    (l.foldl (fun d i => d.setMod i (f d i)) d).acc = d.acc ∧ (l.foldl (fun d i => d.setMod i (f d i)) d).accPower = d.accPower := by
  induction l generalizing d with
  | nil => exact ⟨rfl, rfl⟩
  | cons i l ih => exact ih _

theorem dropSite_acc (s : State) (site : AccId) (code : Nat) : (s.dropSite site code).dl.acc = s.dl.acc.set site code := by
  simp only [State.dropSite, foldl_setMod_acc]

theorem dropSite_accPower (s : State) (site : AccId) (code : Nat) :
    (s.dropSite site code).dl.accPower = s.dl.accPower.set site false := by
  simp only [State.dropSite, foldl_setMod_acc]

theorem execPartnerOverpower_powered {s : State} {site : AccId} (hlx : s.fuses.lx = true) (hpower : s.dl.accPower[site] = true) :
    execPartnerOverpower site s = .next (s.dropSite site 7) := onlyIf_of_true (by rw [hlx, hpower]; rfl)

/-- Settles O39: the event removes the site's rails, which writes the die links alone, and of them what belongs to the site. -/
theorem partnerOverpowerRemovesRails : Obligations.PartnerOverpowerRemovesRails := by
  intro s site hlx hpower
  refine ⟨s.dropSite site 7, execPartnerOverpower_powered hlx hpower, ?_, ?_, ?_, fun i h0 h1 => ?_, fun k hk => ?_, rfl⟩
  · simp [dropSite_accPower]
  · rw [dropSite_modAt, if_pos (.inl rfl)]
  · rw [dropSite_modAt, if_pos (.inr rfl)]
  · rw [dropSite_modAt, if_neg (by omega)]
  · have apart : site.val ≠ k.val := fun e => hk (Fin.ext e.symm)
    simp [dropSite_accPower, dropSite_acc, apart]

/-! ## Admission of a partner die, its requests, its time-outs and its trip -/

/-- The checks of R362 that a partner die passes to be admitted. -/
def admissible (f : AccFacts) (code : Nat) : Prop :=
  f.trained = true ∧ f.partner = true ∧ f.code = code ∧ f.version = 1 ∧ f.infoOk = true ∧ f.windowGib ≤ 64 ∧ f.tempInTime = true

theorem admissionRefusal_eq_none_iff (f : AccFacts) (code : Nat) : admissionRefusal f code = none ↔ admissible f code := by
  simp only [admissionRefusal, admissible]
  grind

section
variable {s : State} {site : AccId}

/-- A site without an admission yet is judged by the first check that fails (R362). -/
theorem execAccAdmission_judged (hlx : s.fuses.lx = true) (hpower : s.dl.accPower[site] = true) (hacc : s.dl.acc[site] = 0) (f : AccFacts) :
    execAccAdmission site f s = .next (match admissionRefusal f s.fuses.accCode[site] with
      | none => { s with dl := { s.dl with acc := s.dl.acc.set site 1 } }
      | some k => (s.dropSite site k).event procMP 2 4 [site.val, k]) := by
  unfold execAccAdmission
  rw [onlyIf_of_true (by simp [hlx, hpower, hacc])]
  cases admissionRefusal f s.fuses.accCode[site] <;> rfl

theorem execAccAdmission_settled (hacc : s.dl.acc[site] ≠ 0) (f : AccFacts) : execAccAdmission site f s = .next s :=
  onlyIf_of_false (by simp [-Fin.getElem_fin, hacc])

theorem execPartnerTempLoss_admitted (hlx : s.fuses.lx = true) (hacc : s.dl.acc[site] = 1) :
    execPartnerTempLoss site s =
      let t := (s.drawn 1).trip (0x1a + site.val) (Config.order s.free 0 65536)
      .next { t with dl := { t.dl with acc := t.dl.acc.set site 7 } } :=
  onlyIf_of_true (by simp [-Fin.getElem_fin, hlx, hacc])

theorem execPartnerTempLoss_other (hacc : s.dl.acc[site] ≠ 1) : execPartnerTempLoss site s = .next s :=
  onlyIf_of_false (by simp [-Fin.getElem_fin, hacc])

end

/-- Whether an address lies in the window of a partner die. -/
def State.inPartnerWindow (s : State) (a : Nat) : Prop := ∃ n, s.mem.cfg.place s.fuses.lx (bits a 47 0) = .acc n

section
variable {s : State} {c : CoreId} {op : Nat}

/-- A time-out is reported at the source where that is in a partner's window, else at the destination (R363). -/
theorem execPartnerCmdTimeout_waiting {o : Op} {raw : List Byte} {x y z w : Nat} (hop : s.cores[c].opAt op = some o)
    (ht : s.touchesSite c o none = true) (hb : o.body = .xfer raw x y z w) :
    ∃ bad, execPartnerCmdTimeout c op s = .next (s.setXfer c op 0 stUnreach bad) ∧
      let d := XDesc.mk raw
      let atSource := d.usesSrc = true ∧ d.sspace = 0 ∧ s.inPartnerWindow d.src
      (atSource → bad = d.src) ∧ (¬ atSource → bad = d.dst) := by
  unfold execPartnerCmdTimeout
  simp only [hop, onlyIf_of_true ht, hb]
  refine ⟨_, rfl, ?_⟩
  unfold State.inPartnerWindow
  cases s.mem.cfg.place s.fuses.lx (bits (XDesc.mk raw).src 47 0) <;> simp
  grind

theorem execPartnerCmdTimeout_gone (hop : s.cores[c].opAt op = none) : execPartnerCmdTimeout c op s = .next s := by
  simp only [execPartnerCmdTimeout, hop]

end

section
variable {s t : State} {site : AccId} {k : Nat} {p : Packet}

/-- A partner die's read outside what R364 allows. -/
theorem execRdReq_partner_denied {a n : Nat} (hrun : s.running = true) (htake : s.takeAcc site k = (some p, t)) (hmsg : p.msg = .rdReq a n)
    (hmay : t.partnerMay a n = false) :
    execRdReq (some site) k s =
      .next ((t.accessRecord (whoPartner site.val) stUnmapped (bits a 47 0)).answerPartner site p stUnmapped (.rdResp 0 []) []) := by
  unfold execRdReq
  simp only [onlyIf_of_true hrun, htake, hmsg, hmay]
  rfl

/-- A partner die's read that R364 allows, of memory that answers. -/
theorem execRdReq_partner_served {a n : Nat} (hrun : s.running = true) (htake : s.takeAcc site k = (some p, t)) (hmsg : p.msg = .rdReq a n)
    (hmay : t.partnerMay a n = true) (hok : t.readStatus .unit a n = stOk) :
    execRdReq (some site) k s =
      .next ((t.touchLines a n).answerPartner site p stOk (.rdResp 0 []) ((t.touchLines a n).readBytes a n)) := by
  unfold execRdReq
  simp only [onlyIf_of_true hrun, htake, hmsg, hmay, hok]
  rfl

/-- A partner die's write outside what R364 allows. -/
theorem execWr_partner_denied {a : Nat} {wb : Bool} {bs : List Byte} (hrun : s.running = true) (htake : s.takeAcc site k = (some p, t))
    (hmsg : p.msg = .wr a wb bs) (hmay : t.partnerMay a bs.length = false) :
    execWr (some site) k s =
      .next ((t.accessRecord (whoPartner site.val) stUnmapped (bits a 47 0)).wrAnswer (some site) p stUnmapped 0) := by
  unfold execWr
  simp only [onlyIf_of_true hrun, htake, hmsg, hmay]
  rfl

end

/-- Settles O38: the checks of R362 in their order, and each request by what R364 allows. -/
theorem partnerSites : Obligations.PartnerSites := by
  intro s site
  refine ⟨fun f hlx hpower hacc => ⟨fun ok => ?_, fun bad => ?_⟩, fun f hacc => execAccAdmission_settled hacc f,
    fun c op o raw x y z w hop ht hb => execPartnerCmdTimeout_waiting hop ht hb, fun c op hop => execPartnerCmdTimeout_gone hop,
    execPartnerTempLoss_admitted, execPartnerTempLoss_other,
    fun k p a n t hrun htake hmsg => ⟨execRdReq_partner_denied hrun htake hmsg, execRdReq_partner_served hrun htake hmsg⟩,
    fun k p a wb bs t hrun htake hmsg hmay => execWr_partner_denied hrun htake hmsg hmay⟩
  · have none_fails := (admissionRefusal_eq_none_iff f s.fuses.accCode[site]).mpr ok
    rw [exec_accAdmission, execAccAdmission_judged hlx hpower hacc, none_fails]
  · have some_fails := mt (admissionRefusal_eq_none_iff f s.fuses.accCode[site]).mp bad
    obtain ⟨k, hk⟩ := Option.ne_none_iff_exists'.mp some_fails
    exact ⟨k, hk, by rw [exec_accAdmission, execAccAdmission_judged hlx hpower hacc, hk]⟩

/-! ## Cave ports -/

theorem caveRefusal_eq_zero_iff (f : CaveFacts) :
    caveRefusal f = 0 ↔ f.type3 = true ∧ f.cache = false ∧ f.multi = false ∧ 0 < f.volatileMib ∧ 2 ≤ f.decoders := by
  have bitAt_eq_zero (b : Bool) (i : Nat) : bitAt b i = 0 ↔ b = false := by cases b <;> simp [bitAt]
  simp only [caveRefusal, Nat.add_eq_zero_iff, bitAt_eq_zero, Bool.not_eq_false', decide_eq_false_iff_not, and_assoc, Nat.not_lt,
    ← ne_eq, Nat.pos_iff_ne_zero]

theorem CavePortSt.trained_no_link (p : CavePortSt) {f : CaveFacts} (hup : f.up = false) :
    p.trained f = { p with state := 5, perst := true } := by simp [CavePortSt.trained, hup]

theorem CavePortSt.trained_refused (p : CavePortSt) {f : CaveFacts} (hup : f.up = true) (hr : caveRefusal f ≠ 0) :
    p.trained f = { p with state := 4, refuse := caveRefusal f, width := f.width % 32, rate := f.half } := by
  simp [CavePortSt.trained, hup, hr]

theorem CavePortSt.trained_up (p : CavePortSt) {f : CaveFacts} (hup : f.up = true) (hr : caveRefusal f = 0) :
    p.trained f = { p with state := 2, width := f.width % 32, rate := f.half, cap := f.volatileMib / 1024 % 65536, decoders := true } := by
  simp [CavePortSt.trained, hup, hr]

section
variable {s : State} {k : CaveId}

theorem execCavePortTrainingDone_training (hstart : s.starting = true) (hp : s.cave.ports[k].state = 1) (f : CaveFacts) :
    execCavePortTrainingDone k f s = .next ((s.setCavePort k (s.cave.ports[k].trained f)).fixCave) :=
  onlyIf_of_true (by simp [-Fin.getElem_fin, hstart, hp])

theorem execCavePortTrainingDone_other (hp : s.cave.ports[k].state ≠ 1) (f : CaveFacts) : execCavePortTrainingDone k f s = .next s :=
  onlyIf_of_false (by simp [-Fin.getElem_fin, hp])

/-- An UP port of a powered module is watched for time-outs, a lost link and event records (R392, R393). -/
theorem cavePort_watched (hpower : s.pwr.pstate ≤ 3) (hp : s.cave.ports[k].state = 2) :
    execCavePortTimeout k s = .next (({ s with cave := { s.cave with timeout := s.cave.timeout + 1 } }).failCavePort k) ∧
      execCxlLinkDown k s = .next (s.failCavePort k) ∧
      ∀ d, execCxlEvent k d s = .next (s.event procMP 0 5 [k.val, leNat (d.take 29)]) := by
  have watched : (decide (s.pwr.pstate ≤ 3) && decide (s.cave.ports[k].state = 2)) = true := by simp [-Fin.getElem_fin, hpower, hp]
  exact ⟨onlyIf_of_true watched, onlyIf_of_true watched, fun _ => onlyIf_of_true watched⟩

theorem cavePort_not_up (hp : s.cave.ports[k].state ≠ 2) :
    execCavePortTimeout k s = .next s ∧ execCxlLinkDown k s = .next s ∧ ∀ d, execCxlEvent k d s = .next s := by
  have unwatched : (decide (s.pwr.pstate ≤ 3) && decide (s.cave.ports[k].state = 2)) = false := by simp [-Fin.getElem_fin, hp]
  exact ⟨onlyIf_of_false unwatched, onlyIf_of_false unwatched, fun _ => onlyIf_of_false unwatched⟩

/-- The port becomes absent, and the content of the cave is lost where the map uses the port (R22). -/
theorem execCavePwrOkFall_powered (hp : s.cave.ports[k].pwrOk = true) :
    let p := s.cave.ports[k]
    let t := (s.setCavePort k { p with pwrOk := false, perst := true, state := if s.pwr.pstate ≤ 3 then 0 else p.state }).caveLost
    execCavePwrOkFall k s = .next (if t.mem.cfg.caveMap.any fun x => x.port = k then t.loseCave else t) := by
  unfold execCavePwrOkFall
  rw [onlyIf_of_true hp]

theorem execCavePwrOkFall_absent (hp : s.cave.ports[k].pwrOk = false) : execCavePwrOkFall k s = .next s := by
  unfold execCavePwrOkFall
  rw [onlyIf_of_false hp]

end

/-- Settles O40: the end of training by the link and by R392's refusal, and each event by whether the port is UP or powered. -/
theorem cavePorts : Obligations.CavePorts := by
  intro s k
  refine ⟨fun f hstart hp => ⟨execCavePortTrainingDone_training hstart hp f, fun hup => ?_, fun hup ok => ?_, fun hup bad => ?_⟩,
    fun f hp => execCavePortTrainingDone_other hp f, cavePort_watched, cavePort_not_up, execCavePwrOkFall_powered, execCavePwrOkFall_absent⟩
  · rw [CavePortSt.trained_no_link _ hup]
  · rw [CavePortSt.trained_up _ hup ((caveRefusal_eq_zero_iff f).mpr ok)]
    exact ⟨rfl, rfl⟩
  · have refused := mt (caveRefusal_eq_zero_iff f).mp bad
    rw [CavePortSt.trained_refused _ hup refused]
    exact ⟨rfl, refused⟩

/-! ## The windows of the host interface -/

theorem State.bar4Addr_aligned {s : State} (hok : s.hif.bar4Ok = true) (off : Nat) : s.bar4Addr off = s.hif.bar4Base.toNat + off :=
  if_pos hok

theorem State.openBytes_false (s : State) (bs : List Byte) : s.openBytes false bs = bs := rfl

section
variable {s : State}

/-- A read inside the window of an aligned BAR4 (R374). -/
theorem execBar4Read_aligned (hl : s.hostLink = true) (hp : s.pwr.pstate ≠ 3) {off len : Nat} (hin : off + len ≤ 2 ^ s.hif.bar4Log)
    (hok : s.hif.bar4Ok = true) :
    let a := s.hif.bar4Base.toNat + off
    let r := s.hostReadLines (linesOf a len)
    execBar4Read off len s = .next (r.2.answer ((r.1.drop (a % 128)).take len)) := by
  unfold execBar4Read
  simp only [onlyIf_of_true hl, if_neg hp, if_neg (Nat.not_lt.mpr hin), hok, State.bar4Addr_aligned hok, if_true, Bool.not_true,
    State.openBytes_false]

/-- A read while the placement is part-written (R487). -/
theorem execBar4Read_open (hl : s.hostLink = true) (hp : s.pwr.pstate ≠ 3) {off len : Nat} (hin : off + len ≤ 2 ^ s.hif.bar4Log)
    (hok : s.hif.bar4Ok = false) :
    let a := s.bar4Addr off
    let r := (s.drawn freeStep).hostReadLines (linesOf a len)
    execBar4Read off len s = .next (r.2.answer (s.openBytes true ((r.1.drop (a % 128)).take len))) := by
  unfold execBar4Read
  simp only [onlyIf_of_true hl, if_neg hp, if_neg (Nat.not_lt.mpr hin), hok, Bool.false_eq_true, if_false, Bool.not_false]

/-- A write inside the window of an aligned BAR4 (R374). -/
theorem execBar4Write_aligned (hl : s.hostLink = true) (hp : s.pwr.pstate ≠ 3) {off : Nat} {data : List Byte}
    (hin : off + data.length ≤ 2 ^ s.hif.bar4Log) (hok : s.hif.bar4Ok = true) :
    let a := s.hif.bar4Base.toNat + off
    let t := s.writeAs .host a data
    execBar4Write off data s = .next (if s.access .host a data.length = stOk then { t with hif := t.hif.updateLines a data }
      else t.accessRecord whoHost (s.access .host a data.length) a) := by
  unfold execBar4Write
  simp only [onlyIf_of_true hl, if_neg hp, if_neg (Nat.not_lt.mpr hin), hok, State.bar4Addr_aligned hok, if_true, Bool.not_true,
    State.openBytes_false]

/-- A write while the placement is part-written (R487). -/
theorem execBar4Write_open (hl : s.hostLink = true) (hp : s.pwr.pstate ≠ 3) {off : Nat} {data : List Byte}
    (hin : off + data.length ≤ 2 ^ s.hif.bar4Log) (hok : s.hif.bar4Ok = false) :
    let a := s.bar4Addr off
    let bs := s.openBytes true data
    let t := (s.drawn freeStep).writeAs .host a bs
    execBar4Write off data s = .next (if s.access .host a data.length = stOk then { t with hif := t.hif.updateLines a bs }
      else t.accessRecord whoHost (s.access .host a data.length) a) := by
  unfold execBar4Write
  simp only [onlyIf_of_true hl, if_neg hp, if_neg (Nat.not_lt.mpr hin), hok, Bool.false_eq_true, if_false, Bool.not_false]

theorem execBar4Read_beyond (hl : s.hostLink = true) (hp : s.pwr.pstate ≠ 3) {off len : Nat} (hout : 2 ^ s.hif.bar4Log < off + len) :
    execBar4Read off len s = .next s := by
  simp only [execBar4Read, onlyIf_of_true hl, if_neg hp, if_pos hout]

theorem execBar4Write_beyond (hl : s.hostLink = true) (hp : s.pwr.pstate ≠ 3) {off : Nat} {data : List Byte}
    (hout : 2 ^ s.hif.bar4Log < off + data.length) : execBar4Write off data s = .next s := by
  simp only [execBar4Write, onlyIf_of_true hl, if_neg hp, if_pos hout]

/-- In P3 a request is recorded and reaches no memory; a read answers zeros. -/
theorem bar4_standby (hl : s.hostLink = true) (hp : s.pwr.pstate = 3) (off len : Nat) (data : List Byte) :
    execBar4Read off len s = .next ((s.event procMP 3 6 [off, 0]).answer (List.replicate len 0)) ∧
      execBar4Write off data s = .next (s.event procMP 3 6 [off, 1]) := by
  simp only [execBar4Read, execBar4Write, onlyIf_of_true hl, if_pos hp, and_self]

/-- The host interface's own registers while the link is up (R388, R394). -/
theorem hostRegisters_linked (hl : s.hostLink = true) :
    execBar4Sync s = .next (({ s with hif := { s.hif with buf := [] } }).answer (List.replicate 8 0)) ∧
      execHifHfence s = .next (s.answer (toLe 8 s.hif.hostWrites.toNat)) ∧
      execHifHeartbeat s = .next { s with hif := { s.hif with hbArmed := true } } :=
  ⟨onlyIf_of_true hl, onlyIf_of_true hl, onlyIf_of_true hl⟩

theorem execPcieLinkTrain_powered (hp : s.pciePowered = true) (w : Nat) (r : PcieRate) :
    execPcieLinkTrain w r s = .next
      { s with inp := { s.inp with hostRefclk := r.refclk }
               hif := { s.hif with perstLow := false, linkUp := true, width := w % 32, rate := r.gen % 8, busMaster := true, common := r.refclk } } :=
  onlyIf_of_true hp

theorem execPcieLinkTrain_unpowered (hp : s.pciePowered = false) (w : Nat) (r : PcieRate) : execPcieLinkTrain w r s = .next s :=
  onlyIf_of_false hp

/-- Without a link the host reaches nothing. -/
theorem hostWindows_unlinked (hl : s.hostLink = false) (off len : Nat) (data : List Byte) :
    execBar4Sync s = .next s ∧ execHifHfence s = .next s ∧ execHifHeartbeat s = .next s ∧ execBar4Read off len s = .next s ∧
      execBar4Write off data s = .next s :=
  ⟨onlyIf_of_false hl, onlyIf_of_false hl, onlyIf_of_false hl, onlyIf_of_false hl, onlyIf_of_false hl⟩

end

/-- Settles O42: a BAR4 request by the power state, the window and the alignment of its base; the registers by the link. -/
theorem hostWindows : Obligations.HostWindows := by
  intro s
  exact ⟨fun hl hp off len hin => ⟨execBar4Read_aligned hl hp hin, execBar4Read_open hl hp hin⟩,
    fun hl hp off data hin => ⟨execBar4Write_aligned hl hp hin, execBar4Write_open hl hp hin⟩,
    fun hl hp off len data hr hw => ⟨execBar4Read_beyond hl hp hr, execBar4Write_beyond hl hp hw⟩,
    bar4_standby, hostRegisters_linked, execPcieLinkTrain_powered, execPcieLinkTrain_unpowered, hostWindows_unlinked⟩

/-! ## Starts and readiness -/

/-- The conditions of R452 for a start from P4. -/
def State.mayLeaveP4 (s : State) : Prop :=
  s.fw.selected = true ∧ s.inp.thermTrip = false ∧ s.inp.refOk = true ∧ s.inp.inputOk = true ∧ s.inp.overvolt = false ∧
    s.inp.volt ≤ 59000 ∧ s.inp.pwrEn = true ∧ s.inp.coolOk = true

theorem State.waitCond_eq_zero_iff (s : State) : s.waitCond = 0 ↔ s.mayLeaveP4 := by
  unfold State.waitCond State.mayLeaveP4
  grind

section
variable {s : State}

theorem execColdResetRelease_held (hheld : s.start.coldHeld = true) (hp : s.pwr.pstate = 4) (f : ColdFacts) :
    execColdResetRelease f s = .next (s.coldPhase f.fuses f.root f.refOk) := onlyIf_of_true (by simp [hheld, hp])

theorem execColdResetRelease_over (hheld : s.start.coldHeld = false) (f : ColdFacts) : execColdResetRelease f s = .next s :=
  onlyIf_of_false (by simp [hheld])

/-- A start is judged with REF100 as it is seen then (R452). -/
theorem execStartFromP4_judged (hp : s.pwr.pstate = 4) (hdone : s.start.coldDone = true) (hheld : s.start.coldHeld = false)
    (hbar : s.start.barred = false) (hstart : s.starting = false) (hproc : s.procUp procMP = true) (f : StartFacts) :
    let u : State := { s with inp := { s.inp with refOk := f.refOk } }
    (u.mayLeaveP4 → execStartFromP4 f s = .next (u.startUp f)) ∧ (¬ u.mayLeaveP4 → execStartFromP4 f s = .next u) := by
  intro u
  have judged : execStartFromP4 f s = .next (if u.waitCond = 0 then u.startUp f else u) :=
    onlyIf_of_true (by simp [hp, hdone, hheld, hbar, hstart, hproc])
  rw [judged, ← State.waitCond_eq_zero_iff]
  exact ⟨fun may => by rw [if_pos may], fun may => by rw [if_neg may]⟩

theorem execStartFromP4_barred (h : s.starting = true ∨ s.start.barred = true ∨ s.start.coldHeld = true) (f : StartFacts) :
    execStartFromP4 f s = .next s :=
  onlyIf_of_false (by rcases h with h | h | h <;> simp [h])

theorem execStartStepTimeout_starting (hstart : s.starting = true) : execStartStepTimeout s = .next (s.failStart 7) := onlyIf_of_true hstart

theorem startEvents_not_starting (hstart : s.starting = false) (ms : Nat) :
    execStartStepTimeout s = .next s ∧ execReadinessEvaluate ms s = .next s :=
  ⟨onlyIf_of_false hstart, onlyIf_of_false (by simp [hstart])⟩

/-- Readiness is judged once the last step has ended or a step has failed (R457). -/
theorem execReadinessEvaluate_judged {ms : Nat} (hstart : s.starting = true)
    (hend : s.stepsEnded = true ∨ s.start.celUp = false ∨ s.start.capOk = false ∨ s.start.copyOk = false) :
    (s.readyCode = 0 → execReadinessEvaluate ms s = .next (s.becomeReady ms)) ∧
      (s.readyCode ≠ 0 →
        let t := s.failStart s.readyCode
        execReadinessEvaluate ms s =
          .next { t with start := { t.start with dur := BitVec.ofNat 64 (bits t.start.dur.toNat 31 0 + 2 ^ 32 * (ms % 2 ^ 32)) } }) := by
  have ended : (s.starting && (s.stepsEnded || !s.start.celUp || !s.start.capOk || !s.start.copyOk)) = true := by
    rcases hend with h | h | h | h <;> simp [hstart, h]
  unfold execReadinessEvaluate
  rw [onlyIf_of_true ended]
  exact ⟨fun ready => congrArg _ (if_neg (not_not.mpr ready)), fun failing => congrArg _ (if_pos failing)⟩

/-- Ports settle once, in the last steps of a start or after them (R455). -/
theorem execPortsSettled_settles (hrun : s.running = true) (hstage : s.start.stage = 8 ∨ s.start.stage = 9)
    (hset : s.start.settled = false) :
    let u : State := { s with start := { s.start with settled := true } }
    let up := (List.range 12).any fun i => s.fab.portUp i
    (up = true → execPortsSettled s = .next ({ u with start := { u.start with asking := true } } : State).askAll) ∧
      (up = false → s.fab.root = true → execPortsSettled s = .next u.runPromenade) ∧
      (up = false → s.fab.root = false → execPortsSettled s = .next u) := by
  intro u up
  have settles : execPortsSettled s = if up then .next ({ u with start := { u.start with asking := true } } : State).askAll
      else if s.fab.root then .next u.runPromenade else .next u :=
    onlyIf_of_true (by rcases hstage with h | h <;> simp [hrun, h, hset])
  rw [settles]
  exact ⟨fun hup => by rw [if_pos hup], fun hup root => by rw [hup, root]; rfl, fun hup root => by rw [hup, root]; rfl⟩

theorem execPortsSettled_again (hset : s.start.settled = true) : execPortsSettled s = .next s := onlyIf_of_false (by simp [hset])

/-- The end of the wait for answers (R455). -/
theorem execAskTimeout_asking (hrun : s.running = true) (hask : s.start.asking = true ∨ s.fab.prom.asking = true) :
    let u : State := { s with start := { s.start with asking := false } }
    let v : State := { u with fab := { u.fab with prom := { u.fab.prom with asking := false, asked := [] } } }
    (s.fab.valid = true → execAskTimeout s = .next u) ∧
      (s.fab.valid = false → s.fab.prom.answers ≠ [] → execAskTimeout s = .next u.concludeJoin) ∧
      (s.fab.valid = false → s.fab.prom.answers = [] → execAskTimeout s =
        .next (if s.start.asking = true ∧ s.fab.root = true ∧ s.fab.prom.running = false then v.runPromenade else v)) := by
  intro u v
  have asked : execAskTimeout s = if s.fab.valid then .next u else if !s.fab.prom.answers.isEmpty then .next u.concludeJoin
      else .next (if s.start.asking && s.fab.root && !s.fab.prom.running then v.runPromenade else v) :=
    onlyIf_of_true (by rcases hask with h | h <;> simp [hrun, h])
  rw [asked]
  refine ⟨fun hv => by rw [if_pos hv], fun hv hne => ?_, fun hv hnil => ?_⟩
  · simp [hv, hne]
  · simp [hv, hnil, and_assoc]

/-- A die whose cores are all fenced is reset at a step boundary (R463). -/
theorem execVatDieReset_due {v : VatId} (hcore : s.vcoreOn = true) (hprot : s.pwr.protect = none) (hphase : s.job.phase = 0)
    (hres : s.ras.dieResetting = none) (hfence : s.dieFenced v = true) (hcount : s.ras.dieResets[v] < 3)
    (hops : ∀ c : CoreId, s.cores[c].ops = []) (hlinks : ∀ l, 12 ≤ l → l ≤ 15 → s.linkFailed l = false) :
    execVatDieReset v s = .next (s.resetDie v) := by
  have idle : ((List.finRange 256).all fun c => s.cores[c].ops.isEmpty) = true := by simp [-Fin.getElem_fin, hops]
  have linked : ([12, 13, 14, 15].all fun l => !s.linkFailed l) = true := by simp [hlinks]
  refine onlyIf_of_true ?_
  rw [hcore, hprot, hres, hfence, idle, linked]
  simp [-Fin.getElem_fin, hphase, hcount]

theorem execVatDieReset_not_due {v : VatId} (h : s.dieFenced v = false ∨ 3 ≤ s.ras.dieResets[v] ∨ s.job.phase ≠ 0) :
    execVatDieReset v s = .next s := by
  refine onlyIf_of_false ?_
  rcases h with unfenced | often | inside
  · simp [unfenced]
  · simp [-Fin.getElem_fin, Nat.not_lt.mpr often]
  · simp [inside]

theorem execVatResetDone_resetting {v : VatId} (hres : s.ras.dieResetting = some v.val) :
    execVatResetDone false s = .next (s.endDieReset v false) ∧
      ((∀ x ∈ s.dl.mods, onDie v x.1 = true → x.2.state ≠ 1) → execVatResetDone true s = .next (s.endDieReset v true)) := by
  have same : (Fin.ofNat 4 v.val : VatId) = v := Fin.ofNat_val_eq_self v
  simp only [execVatResetDone, hres, same]
  refine ⟨onlyIf_of_true rfl, fun trained => onlyIf_of_true ?_⟩
  simpa [or_iff_not_imp_left] using fun a b h => trained (a, b) h

theorem execVatResetDone_idle (hres : s.ras.dieResetting = none) (ok : Bool) : execVatResetDone ok s = .next s := by
  simp only [execVatResetDone, hres]

end

/-- Settles O53: each event by the conditions under which it happens, a start by the first condition of R452 that fails. -/
theorem startsAndReadiness : Obligations.StartsAndReadiness := by
  intro s
  exact ⟨fun f hheld hp => execColdResetRelease_held hheld hp f, fun f hheld => execColdResetRelease_over hheld f,
    fun f hp hdone hheld hbar hstart hproc => execStartFromP4_judged hp hdone hheld hbar hstart hproc f,
    fun f h => execStartFromP4_barred h f, execStartStepTimeout_starting, startEvents_not_starting,
    fun ms hstart hend => execReadinessEvaluate_judged hstart hend, execPortsSettled_settles, execPortsSettled_again,
    execAskTimeout_asking, fun v => execVatDieReset_due, fun v => execVatDieReset_not_due, fun v => execVatResetDone_resetting,
    execVatResetDone_idle⟩

/-! ## Frames, lane failures, OPT_READY, training and retraining of a fabric port -/

/-- A port with a frame's corrections counted (R310). -/
def Port.countFec (x : Port) (f : Frame) : Port :=
  { x with fecCorr := x.fecCorr + BitVec.ofNat 64 f.corrected, fecUncorr := x.fecUncorr + BitVec.ofNat 64 f.uncorrectable }

/-- The new neighbour on a port asked for an address (R297). -/
def State.askNeighbour (s : State) (p : PortId) : State :=
  ({ s with fab := { s.fab with prom := { s.fab.prom with asking := true, asked := p.val :: s.fab.prom.asked.filter (· ≠ p.val) } } } :
    State).sendPromOn p.val s.fuses.hubId .ask

section
variable {s : State} {p : PortId}

/-- A frame that is bad or out of order is discarded (R281). -/
theorem receiveFrame_discarded {f : Frame} (h : f.good = false ∨ (f.fseq ≠ 4095 ∧ f.fseq ≠ s.fab.ports[p].rxSeq)) :
    s.receiveFrame p f = s.nakFrame p (s.fab.ports[p].countFec f) := by
  unfold State.receiveFrame
  rcases h with bad | ⟨numbered, apart⟩
  · rw [bad]; rfl
  · cases hg : f.good
    · rfl
    · simp only [Bool.not_true, Bool.false_eq_true, if_false, if_neg numbered]
      exact if_pos apart

/-- A null frame brings its link word alone (R280, R281). -/
theorem receiveFrame_null {f : Frame} (hg : f.good = true) (hn : f.fseq = 4095) :
    s.receiveFrame p f =
      ({ s with fab := { s.fab with ports := s.fab.ports.set p (s.fab.ports[p].countFec f) } } : State).linkWord p f := by
  unfold State.receiveFrame
  simp only [hg, Bool.not_true, Bool.false_eq_true, if_false, if_pos hn]
  rfl

/-- A frame in order is delivered, and its link word taken (R281). -/
theorem receiveFrame_inOrder {f : Frame} (hg : f.good = true) (hn : f.fseq ≠ 4095) (ho : f.fseq = s.fab.ports[p].rxSeq) :
    let x := s.fab.ports[p]
    let r := f.chunks.foldl takeChunk (x.rxCur, [])
    let n := r.2.foldl (fun a q => a + 40 + q.len) 0
    let z := { x.countFec f with rxSeq := (x.rxSeq + 1) % 4095, nakOut := false, ackDue := true, rxCur := r.1,
                                 rxBytes := x.rxBytes + BitVec.ofNat 64 n }
    s.receiveFrame p f =
      ({ s with fab := { s.fab with ports := s.fab.ports.set p z, inq := s.fab.inq ++ r.2.map fun q => (p.val, q) } } : State).linkWord p f := by
  unfold State.receiveFrame
  simp only [hg, Bool.not_true, Bool.false_eq_true, if_false, if_neg hn, ← ho, ne_eq, not_true_eq_false]
  rfl

theorem execFrameRx_trained (hon : s.fabricOn = true) (hx : s.fab.ports[p].state = 2 ∨ s.fab.ports[p].state = 3) (f : Frame) :
    execFrameRx p f s = .next (s.receiveFrame p f) :=
  onlyIf_of_true (by rcases hx with h | h <;> simp [-Fin.getElem_fin, hon, h])

/-- A port that carries traffic on the failing lane retrains (R283). -/
theorem execLaneSignalFail_carrying {lane : Fin 8} (hon : s.fabricOn = true)
    (hx : s.fab.ports[p].state = 2 ∨ (s.fab.ports[p].state = 3 ∧ (s.fab.ports[p].higrp = true ↔ lane.val / 4 = 1))) :
    let x := s.fab.ports[p]
    let t : State := { s with fab := { s.fab with ports := s.fab.ports.set p { x with laneBad := x.laneBad ||| 2 ^ lane.val } } }
    execLaneSignalFail p lane s = .next (t.trainPort p) := by
  unfold execLaneSignalFail
  refine Eq.trans (onlyIf_of_true ?_) rfl
  rcases hx with full | ⟨half, group⟩
  · simp [-Fin.getElem_fin, hon, full]
  · simp [-Fin.getElem_fin, hon, half, group]

theorem execOptReadyRise_eq :
    let t : State := { s with fab := { s.fab with ports := s.fab.ports.set p { s.fab.ports[p] with optReady := true, trainFails := 0 } } }
    execOptReadyRise p s =
      .next (if s.fabricOn = true ∧ (s.fab.ports[p].state = 0 ∨ s.fab.ports[p].state = 5) then t.trainPort p else t) := by
  simp only [execOptReadyRise, Bool.and_eq_true, Bool.or_eq_true, decide_eq_true_eq]
  rfl

theorem execOptReadyFall_eq :
    let x := s.fab.ports[p]
    let t : State := { s with fab := { s.fab with ports := s.fab.ports.set p { x with optReady := false } } }
    execOptReadyFall p s = .next (t.portState p (if x.state = 2 ∨ x.state = 3 then 5 else 0)) := by
  simp only [execOptReadyFall, Bool.or_eq_true, decide_eq_true_eq]

/-- Training ends in the state of R284; a module without an address asks its new neighbour (R297). -/
theorem execPortTrainingDone_training (hon : s.fabricOn = true) (hx : s.fab.ports[p].state = 1)
    (hproc : s.procUp (s.lpFor (p.val / 3)) = true) (res : PortTrain) :
    let y := s.fab.trained p res
    let t := ({ s with fab := { s.fab with ports := s.fab.ports.set p { y with state := 1 } } } : State).portState p y.state
    execPortTrainingDone p res s =
      .next (if (y.state = 2 ∨ y.state = 3) ∧ t.start.settled = true ∧ t.fab.valid = false ∧ t.fab.prom.running = false then
        t.askNeighbour p
      else t) := by
  intro y t
  have ended : execPortTrainingDone p res s = if y.state ≠ 2 && y.state ≠ 3 then .next t
      else if !t.start.settled || t.fab.valid || t.fab.prom.running then .next t
      else .next (t.askNeighbour p) :=
    onlyIf_of_true (by simp [-Fin.getElem_fin, hon, hx, hproc])
  rw [ended]
  clear_value t y
  grind

theorem execRetrain_on (hon : s.fabricOn = true) : execRetrain p s = .next (s.trainPort p) := onlyIf_of_true hon

end

/-- Settles O32: a frame by its check and its number; the other events by the state of the port they find. -/
theorem fabricPortEvents : Obligations.FabricPortEvents := by
  intro s p
  exact ⟨fun f hon hx => ⟨execFrameRx_trained hon hx f, receiveFrame_discarded, receiveFrame_null, receiveFrame_inOrder⟩,
    fun lane hon hx => execLaneSignalFail_carrying hon hx, execOptReadyRise_eq, execOptReadyFall_eq,
    fun res hon hx hproc => execPortTrainingDone_training hon hx hproc res, execRetrain_on⟩

end Sys2Proof.Machine
end

section
/-! SUPPORT. The scalar slot and the fetch: registers, a slot whose guard is false, how a bundle of one scalar slot issues, and the statements about
them. -/

namespace Sys2Proof.Machine

/-! ## Registers -/

theorem CoreRegs.sset_zero (r : CoreRegs) (v : W64) : r.sset 0 v = r := if_pos rfl

theorem CoreRegs.pset_zero (r : CoreRegs) (v : Bool) : r.pset 0 v = r := if_pos rfl

theorem CoreRegs.sset_of_ne (r : CoreRegs) {i : SReg} (h : i ≠ 0) (v : W64) : r.sset i v = { r with s := r.s.set i v } := if_neg h

theorem CoreRegs.pset_of_ne (r : CoreRegs) {i : PReg} (h : i ≠ 0) (v : Bool) : r.pset i v = { r with p := r.p.set i v } := if_neg h

theorem CoreRegs.sget_sset (r : CoreRegs) (i j : SReg) (v : W64) :
    (r.sset i v).sget j = if j = i ∧ i ≠ 0 then v else r.sget j := by
  by_cases hi : i = 0
  · simp [hi, sset_zero]
  · rw [sset_of_ne r hi]
    by_cases hj : j = i
    · simp [CoreRegs.sget, hj, hi]
    · have apart : i.val ≠ j.val := fun e => hj (Fin.ext e.symm)
      simp [CoreRegs.sget, hj, apart]

theorem CoreRegs.pget_pset (r : CoreRegs) (i j : PReg) (v : Bool) :
    (r.pset i v).pget j = if j = i ∧ i ≠ 0 then v else r.pget j := by
  by_cases hi : i = 0
  · simp [hi, pset_zero]
  · rw [pset_of_ne r hi]
    by_cases hj : j = i
    · simp [CoreRegs.pget, hj, hi]
    · have apart : i.val ≠ j.val := fun e => hj (Fin.ext e.symm)
      simp [CoreRegs.pget, hj, apart]

/-- Settles O7: s0 and p0 are read before, and written past, the register file. -/
theorem registersZeroAreFixed : Obligations.RegistersZeroAreFixed := by
  intro r
  refine ⟨rfl, rfl, r.sset_zero, r.pset_zero, r.sget_sset, r.pget_pset, fun i v => ?_⟩
  by_cases hi : i = 0
  · simp [hi, CoreRegs.sset_zero]
  · simp [CoreRegs.sset_of_ne r hi]

/-! ## A bundle of which no slot executes -/

section
variable {s : State} {c : CoreId} {g : Guard}

/-- The core-level part of issuing a bundle whose slots are all no-ops, or guarded off. -/
theorem tryIssue_nops {k : Core} {env : CoreEnv} {b : Bundle} (hb : b.live k.regs = ⟨some .nop, some .nop, some .nop, some .nop⟩) :
    k.tryIssue env b = .issued { k with regs := k.regs.advance .seq, ctl := { k.ctl with waiting := false, halting := Flow.seq = .halt } } [] .none
      (Flow.seq = .halt) := by
  unfold Core.tryIssue
  rw [hb]
  rfl

theorem issue_nops {b : Bundle} (hf : s.mayFetch c = true)
    (hb : b.live s.cores[c].regs = ⟨some .nop, some .nop, some .nop, some .nop⟩) :
    s.issue c b = .next (s.issued c s.cores[c] .seq) :=
  issue_plain hf (tryIssue_nops hb)

theorem issueS_off (hf : s.mayFetch c = true) (hg : g.holds s.cores[c].regs = false) (op : SOp) :
    s.issueS c g op = .next (s.issued c s.cores[c] .seq) :=
  issue_nops hf (by simp [-Fin.getElem_fin, Bundle.live, Bundle.nops, hg])

theorem issueM_off (hf : s.mayFetch c = true) (hg : g.holds s.cores[c].regs = false) (op : MOp) :
    s.issueM c g op = .next (s.issued c s.cores[c] .seq) :=
  issue_nops hf (by simp [-Fin.getElem_fin, Bundle.live, Bundle.nops, hg])

theorem issueV_off (hf : s.mayFetch c = true) (hg : g.holds s.cores[c].regs = false) (op : VOp) :
    s.issueV c g op = .next (s.issued c s.cores[c] .seq) :=
  issue_nops hf (by simp [-Fin.getElem_fin, Bundle.live, Bundle.nops, hg])

theorem issueD_off (hf : s.mayFetch c = true) (hg : g.holds s.cores[c].regs = false) (op : DOp) :
    s.issueD c g op = .next (s.issued c s.cores[c] .seq) :=
  issue_nops hf (by simp [-Fin.getElem_fin, Bundle.live, Bundle.nops, hg])

end

/-- Settles O6: with its guard false the one slot of the bundle is a no-op like the other three, whatever it holds. -/
theorem guardedOffSlotIsNoOp : Obligations.GuardedOffSlotIsNoOp := fun _ _ _ hf hg =>
  ⟨issueS_off hf hg, issueM_off hf hg, issueV_off hf hg, issueD_off hf hg, fun rd a b => issueS_off hf hg (.alu .add rd a b),
    fun sem n => issueD_off hf hg (.post sem n)⟩

/-! ## How a scalar slot issues -/

theorem SOp.fault_of_ne_halt {op : SOp} (h : op ≠ .halt) (inSeg : Bool) : SOp.fault inSeg (some op) = none := by
  cases op with
  | halt => exact absurd rfl h
  | _ => rfl

/-- Only a loop can fault at issue (R49). -/
theorem Core.issueFault_nop (k : Core) (m : Cells 8) {op : SOp} (h : ∀ a body, op ≠ .loop a body) : k.issueFault m op .nop = none := by
  cases op with
  | loop a body => exact absurd rfl (h a body)
  | _ => rfl

theorem SOp.flow_ne_halt {op : SOp} (h : op ≠ .halt) (r : CoreRegs) : op.flow r ≠ .halt := by
  cases op with
  | halt => exact absurd rfl h
  | _ => exact Flow.noConfusion

/-- The core-level part of a bundle that stalls on something else than a semaphore. -/
theorem tryIssue_stall {k : Core} {env : CoreEnv} {b : Bundle} {l : Live} (hb : b.live k.regs = l) (hf : l.fault k.seg.isOpen = none)
    (hsem : k.waitsSem l.d = false) (hs : k.stalls l = true) :
    k.tryIssue env b = .stall { k with ctl := { k.ctl with waiting := false } } := by
  subst hb
  simp [Core.tryIssue, hf, hsem, hs]

section
variable {s : State} {c : CoreId} {g : Guard}

theorem issue_stall {b : Bundle} {y : Core} (hf : s.mayFetch c = true) (hi : s.cores[c].tryIssue (s.env c) b = .stall y) :
    s.issue c b = .next (s.setCore c y) := by
  unfold State.issue
  simp only [hf, hi, Bool.not_true, Bool.false_eq_true, if_false]

/-- The executing slots of a bundle that holds one legal scalar slot. -/
theorem live_S {r : CoreRegs} {op : SOp} (hg : g.holds r = true) (hl : op.legal = true) :
    ({ Bundle.nops with sg := g, s := (some op).filter SOp.legal } : Bundle).live r = ⟨some op, some .nop, some .nop, some .nop⟩ := by
  simp [Bundle.live, Bundle.nops, hg, hl]

theorem issueS_stall {op : SOp} (h : s.runs c g) (hl : op.legal = true) (hh : op ≠ .halt) (hw : s.cores[c].stallS (some op) = true) :
    s.issueS c g op = .next (s.stalled c) := by
  refine issue_stall h.1 (tryIssue_stall (live_S h.2 hl) ?_ rfl ?_)
  · simp only [Live.fault, SOp.fault_of_ne_halt hh]; rfl
  · simp only [Core.stalls, hw, Bool.true_or]

/-- A legal scalar slot that neither stalls nor faults has its effect on the core and sends the PC where it says. -/
theorem issueS_goes {op : SOp} (h : s.runs c g) (hl : op.legal = true) (hh : op ≠ .halt) (hw : s.cores[c].stallS (some op) = false)
    (hi : s.cores[c].issueFault (s.cores[c].execS (s.env c) s.cores[c].regs op).store op .nop = none) :
    s.issueS c g op = .next (s.issued c (s.cores[c].execS (s.env c) s.cores[c].regs op) (op.flow s.cores[c].regs)) := by
  rw [issueS_ok h hl (SOp.fault_of_ne_halt hh _) hw hi, if_neg (SOp.flow_ne_halt hh _)]

/-- A scalar slot that goes to the next bundle. -/
theorem issueS_seq {op : SOp} (h : s.runs c g) (hl : op.legal = true) (hf : op.flow s.cores[c].regs = .seq)
    (hw : s.cores[c].stallS (some op) = false) :
    s.issueS c g op = .next (s.issued c (s.cores[c].execS (s.env c) s.cores[c].regs op) .seq) := by
  have not_halt : op ≠ .halt := by rintro rfl; cases hf
  have not_loop : ∀ a body, op ≠ .loop a body := by rintro a body rfl; cases hf
  rw [issueS_goes h hl not_halt hw (Core.issueFault_nop _ _ not_loop), hf]

end

/-- Settles O2: each operation issues as a scalar slot that writes rd. -/
theorem scalarArithmetic : Obligations.ScalarArithmetic := by
  intro s c g rd a b h
  have alu (op : AluOp) := issueS_seq (op := .alu op rd a b) h rfl rfl rfl
  exact ⟨alu .add, alu .sub, alu .and, alu .or, alu .xor, alu .shl, alu .shr, alu .sra, alu .mul, alu .min, alu .max,
    fun _ => issueS_seq h rfl rfl rfl, fun _ => issueS_seq h rfl rfl rfl, fun _ => issueS_seq h rfl rfl rfl⟩

/-- Settles O3: with a listed FN each operation issues as a scalar slot that writes its register, with a reserved one it faults. -/
theorem scalarPredicatesAndFloat : Obligations.ScalarPredicatesAndFloat := by
  intro s c g rd a b pd pa pb h
  refine ⟨fun fn => ?_, fun _ _ _ => issueS_seq h rfl rfl rfl, fun fn => ?_, issueS_seq h rfl rfl rfl, issueS_seq h rfl rfl rfl,
    issueS_seq h rfl rfl rfl, fun fn => ?_⟩
  · split
    case isTrue listed => exact issueS_seq h (decide_eq_true listed) rfl rfl
    case isFalse reserved => exact issueS_illegal h (decide_eq_false reserved)
  · split
    case isTrue listed => exact issueS_seq h (decide_eq_true listed) rfl rfl
    case isFalse reserved => exact issueS_illegal h (decide_eq_false reserved)
  · by_cases listed : fn.toNat ≤ 1
    · rw [exec_sFcvt, execSFcvt, issueS_seq (op := .fcvt rd a fn) h (decide_eq_true listed) rfl rfl]
      have cases_of_listed : fn.toNat = 0 ∨ fn.toNat = 1 := by omega
      rcases cases_of_listed with e | e <;> simp only [Core.execS, fcvtEval, e] <;> rfl
    · rw [if_neg (by omega), if_neg (by omega)]
      exact issueS_illegal h (decide_eq_false listed)

/-! ## Stores of a core -/

/-- A write that meets no region in use, no combiner value and no declared input writes its bytes alone (R81, R72, R229). -/
theorem Core.writeStore_apart (k : Core) (fr own : Nat) (cmb : Bool) {at' : Nat} {bs : List Byte} (hbs : bs ≠ [])
    (hraces : k.races own (spanCut at' bs.length) = false)
    (hcmb : k.cmb.entries = [] ∨ spansMeet (spanCut at' bs.length) k.cmb.area = false)
    (hseg : k.seg.isOpen = false ∨ spansMeet (spanCut at' bs.length) k.seg.regions = false) :
    k.writeStore fr own cmb at' bs = { k with store := storePut k.store at' bs } := by
  have some_bytes : bs.isEmpty = false := by simpa using hbs
  have cmb_apart : (!cmb && !k.cmb.entries.isEmpty && spansMeet (spanCut at' bs.length) k.cmb.area) = false := by
    rcases hcmb with e | e <;> simp [e]
  have seg_apart : (k.seg.isOpen && spansMeet (spanCut at' bs.length) k.seg.regions) = false := by
    rcases hseg with e | e <;> simp [e]
  simp [Core.writeStore, some_bytes, hraces, cmb_apart, seg_apart]

theorem toLe_length (n x : Nat) : (toLe n x).length = n := by
  induction n generalizing x with
  | zero => rfl
  | succ n ih => exact congrArg Nat.succ (ih _)

/-- Settles O4: with a listed register the access issues or stalls as `stallS` says, with another it faults.
That an unlisted register is illegal is the model's choice (log 7). -/
theorem scalarLoadStoreAndControlRegisters : Obligations.ScalarLoadStoreAndControlRegisters := by
  intro s c g rd a h k r
  refine ⟨fun _ => issueS_seq h rfl rfl rfl, fun imm => ⟨issueS_seq h rfl rfl rfl, fun hraces hcmb hseg => ?_⟩, fun n listed => ?_,
    fun n listed => ?_, ?_, fun n unlisted => ⟨issueS_illegal h unlisted, issueS_illegal h unlisted⟩⟩
  · have len := toLe_length 8 (r.sget rd).toNat
    rw [← Core.writeStore_apart k s.free 0 false (by simp [← List.length_pos_iff, len]) (by rwa [len]) (by rwa [len]) (by rwa [len])]
    exact issueS_seq h rfl rfl rfl
  · split
    case isTrue waits => exact issueS_stall h listed (by simp) waits
    case isFalse goes =>
      rw [exec_sCsrr, execSCsrr, issueS_seq (op := .csrr rd n) h listed rfl (eq_false_of_ne_true goes)]
      split <;> simp only [Core.execS, *] <;> rfl
  · split
    case isTrue waits => exact issueS_stall h listed (by simp) waits
    case isFalse goes => exact issueS_seq h listed rfl (eq_false_of_ne_true goes)
  · have waits_iff : k.stallS (some (.csrw 0x110#12 a)) = k.ops.any Op.isCombiner := rfl
    split
    case isTrue waits => exact issueS_stall h rfl (by simp) (waits_iff.trans waits)
    case isFalse goes => exact issueS_seq h rfl rfl (waits_iff.trans (eq_false_of_ne_true goes))

/-! ## Control flow and the fetch -/

section
variable {s : State} {c : CoreId} {g : Guard}

theorem issue_of_no_fetch (hf : s.mayFetch c = false) (b : Bundle) : s.issue c b = .next s := by
  unfold State.issue
  rw [hf]
  rfl

theorem fetch_of_no_fetch (hf : s.mayFetch c = false) : s.fetch c = .next s := by
  unfold State.fetch
  rw [hf]
  rfl

theorem issueS_loop (h : s.runs c g) (a : SReg) (body : BitVec 12) :
    s.issueS c g (.loop a body) = .next (if body.toNat = 0 then s.coreFault c 1 s.cores[c].regs.pc
      else if (s.cores[c].regs.sget a).toNat ≠ 0 ∧ 4 ≤ s.cores[c].regs.loops.length then s.coreFault c 3 s.cores[c].regs.pc
      else s.issued c s.cores[c] (.loop (s.cores[c].regs.sget a).toNat body.toNat)) := by
  split
  case isTrue empty => exact issueS_illegal h (decide_eq_false (not_not.mpr empty))
  case isFalse some_body =>
    split
    case isTrue deep => exact issueS_late h (decide_eq_true some_body) rfl rfl (by simp [-Fin.getElem_fin, Core.issueFault, deep, fLoopOvf])
    case isFalse room => exact issueS_goes h (decide_eq_true some_body) (by simp) rfl (by simp [-Fin.getElem_fin, Core.issueFault, room])

theorem issueS_halt (h : s.runs c g) :
    s.issueS c g .halt = .next (if s.cores[c].seg.isOpen then s.coreFault c 9 s.cores[c].regs.pc
      else (s.issued c s.cores[c] .halt).startHalt c) := by
  split
  case isTrue inside => exact issueS_fault h (by rw [inside]; rfl)
  case isFalse outside => exact issueS_ok h rfl (by rw [eq_false_of_ne_true outside]; rfl) rfl rfl

/-- The fetch where a `d.imem` has met the bundles in use: a free bundle is tried (R73). -/
theorem fetch_free (hf : s.mayFetch c = true) (hfree : (s.cores[c].imem.wild || s.cores[c].imemPending s.cores[c].regs.pc) = true) :
    s.fetch c = ((s.updCore c fun x => { x with imem := { x.imem with wild := true } }).drawn 16).issue c
      (decodeBundle (BitVec.ofNat 128 (leNat (freeBytes s.free 16)))) := by
  unfold State.fetch
  simp only [hf, hfree, Bool.not_true, Bool.false_eq_true, if_false, if_true]

/-- The fetch from the image (R45, R79, R519). -/
theorem fetch_image (hf : s.mayFetch c = true) (hfree : (s.cores[c].imem.wild || s.cores[c].imemPending s.cores[c].regs.pc) = false) :
    s.fetch c = if s.cores[c].imem.len ≤ s.cores[c].regs.pc then .next (s.coreFault c 2 s.cores[c].regs.pc)
      else if s.cores[c].imem.bad.contains s.cores[c].regs.pc then .next (s.coreFault c 4 s.cores[c].regs.pc)
      else s.issue c (decodeBundle (Cells.get s.cores[c].imem.words s.cores[c].regs.pc)) := by
  unfold State.fetch
  simp only [hf, hfree, Bool.not_true, Bool.false_eq_true, if_false]
  rfl

/-- A good bundle of the image is tried. -/
theorem fetch_good (hf : s.mayFetch c = true) (hfree : (s.cores[c].imem.wild || s.cores[c].imemPending s.cores[c].regs.pc) = false)
    (inside : s.cores[c].regs.pc < s.cores[c].imem.len) (good : s.cores[c].imem.bad.contains s.cores[c].regs.pc = false) :
    s.fetch c = s.issue c (decodeBundle (Cells.get s.cores[c].imem.words s.cores[c].regs.pc)) := by
  rw [fetch_image hf hfree, if_neg (Nat.not_le.mpr inside), if_neg (ne_true_of_eq_false good)]

theorem mayFetch_wild (hf : s.mayFetch c = true) (n : Nat) :
    ((s.updCore c fun x => { x with imem := { x.imem with wild := true } }).drawn n).mayFetch c = true := by
  rw [← hf]
  simp only [State.mayFetch, State.coreOn, State.vatClocked, State.vcoreOn, State.running, State.drawn_cores, State.drawn_pwr, State.drawn_ras,
    State.drawn_job, State.updCore_pwr, State.updCore_ras, State.updCore_job, State.updCore_same]
  rfl

/-- The core-level part of issuing an `s.` operation of two sources beside a `v.spl`: both read the registers as the bundle found them (R45, R46). -/
theorem tryIssue_alu_spl {k : Core} {env : CoreEnv} {b : Bundle} {op : AluOp} {rd x y q : SReg} {vd : VReg} (hs : b.s = some (.alu op rd x y))
    (hm : b.m = some .nop) (hv : b.v = some (.spl vd q)) (hd : b.d = some .nop) (hsg : b.sg.holds k.regs = true) (hvg : b.vg.holds k.regs = true)
    (hch : k.vec.chains = []) :
    k.tryIssue env b =
      let r := (k.regs.sset rd (op.eval (k.regs.sget x) (k.regs.sget y))).vset vd.val (List.replicate 64 ((k.regs.sget q).setWidth 32))
      .issued { k with regs := r.advance .seq, ctl := { k.ctl with waiting := false, halting := Flow.seq = .halt } } [] .none
        (Flow.seq = .halt) := by
  have live : b.live k.regs = ⟨some (.alu op rd x y), some .nop, some (.spl vd q), some .nop⟩ := by
    simp [Bundle.live, hs, hm, hv, hd, hsg, hvg]
  have no_stall : k.stalls ⟨some (.alu op rd x y), some .nop, some (.spl vd q), some .nop⟩ = false := by
    simp [Core.stalls, Core.stallS, Core.stallM, Core.stallV, Core.stallD, Live.needs, hch]
  unfold Core.tryIssue
  rw [live]
  simp only [no_stall]
  rfl

theorem issue_alu_spl {b : Bundle} {op : AluOp} {rd x y q : SReg} {vd : VReg} (hf : s.mayFetch c = true) (hs : b.s = some (.alu op rd x y))
    (hm : b.m = some .nop) (hv : b.v = some (.spl vd q)) (hd : b.d = some .nop) (hsg : b.sg.holds s.cores[c].regs = true)
    (hvg : b.vg.holds s.cores[c].regs = true) (hch : s.cores[c].vec.chains = []) :
    s.issue c b = .next (s.setsRegs c ((s.cores[c].regs.sset rd (op.eval (s.cores[c].regs.sget x) (s.cores[c].regs.sget y))).vset vd.val
      (List.replicate 64 ((s.cores[c].regs.sget q).setWidth 32)))) :=
  issue_plain (x := { s.cores[c] with regs := _ }) (f := .seq) hf (tryIssue_alu_spl hs hm hv hd hsg hvg hch)

/-- A bundle of four no-ops executes nothing, whatever its guards. -/
theorem live_nops {b : Bundle} (hs : b.s = some .nop) (hm : b.m = some .nop) (hv : b.v = some .nop) (hd : b.d = some .nop) (r : CoreRegs) :
    b.live r = ⟨some .nop, some .nop, some .nop, some .nop⟩ := by
  simp only [Bundle.live, hs, hm, hv, hd, ite_self]

end

/-- Settles O5: the scalar slot's flow, and the fetch by whether the bundle at the PC is free, beyond the image, bad, or issues.
That a fifth loop of count 0 faults nowhere, and that the PC does not wrap, is the model's choice (logs 5 and 104). -/
theorem scalarControlFlow : Obligations.ScalarControlFlow := by
  refine ⟨fun s c g hf => ⟨fetch_of_no_fetch hf, issue_of_no_fetch hf _, issue_of_no_fetch hf _⟩, fun s c g a h => ?_, fun s c hf => ?_⟩
  · exact ⟨issueS_seq h rfl rfl rfl, fun _ => issueS_goes h rfl (by simp) rfl rfl, fun _ => issueS_goes h rfl (by simp) rfl rfl,
      issueS_goes h rfl (by simp) rfl rfl, fun body => issueS_loop h a body, issueS_halt h⟩
  · intro k pc free tries
    have issue_eq (t : State) (b : Bundle) (ht : t.mayFetch c = true) (hpc : t.cores[c].regs.pc = pc) : t.issue c b = .next (tries t b) := by
      simp only [State.issue, ht, hpc, tries, Bool.not_true, Bool.false_eq_true, if_false]
      cases t.cores[c].tryIssue (t.env c) b <;> rfl
    refine ⟨fun hfree => ?_, fun hfree beyond => ?_, fun hfree inside bad => ?_, fun hfree inside good => ⟨?_, ?_, ?_⟩⟩
    · rw [exec_bundleFetch, execBundleFetch, fetch_free hf hfree]
      exact issue_eq _ _ (mayFetch_wild hf 16) (by rw [State.drawn_cores, State.updCore_same])
    · rw [exec_bundleFetch, execBundleFetch, fetch_image hf hfree, if_pos beyond]
    · rw [exec_bundleFetch, execBundleFetch, fetch_image hf hfree, if_neg (Nat.not_le.mpr inside), if_pos bad]
    all_goals rw [exec_bundleFetch, execBundleFetch, fetch_good hf hfree inside good]
    · exact issue_eq s _ hf rfl
    · exact fun hs hm hv hd => issue_nops hf (live_nops hs hm hv hd _)
    · exact fun op rd x y q vd hs hm hv hd => issue_alu_spl hf hs hm hv hd

end Sys2Proof.Machine
end

section
/-! SUPPORT. The matrix slot and the array: how a matrix slot issues, what each event of the array does to its core. -/

namespace Sys2Proof.Machine

/-! ## How a matrix slot issues -/

section
variable {s : State} {c : CoreId} {g : Guard}

/-- A legal matrix slot that must wait stalls its bundle (R51, R52). -/
theorem issueM_stall {op : MOp} (h : s.runs c g) (hl : op.legal = true) (hd : MOp.fault s.cores[c].seg.isOpen (some op) = none)
    (hw : s.cores[c].stallM (some op) = true) : s.issueM c g op = .next (s.stalled c) := by
  have live : ({ Bundle.nops with mg := g, m := (some op).filter MOp.legal } : Bundle).live s.cores[c].regs =
      ⟨some .nop, some op, some .nop, some .nop⟩ := by
    simp [-Fin.getElem_fin, Bundle.live, Bundle.nops, h.2, hl]
  refine issue_stall h.1 (tryIssue_stall live ?_ rfl ?_)
  · simp only [Live.fault, hd]; rfl
  · simp only [Core.stalls, hw, Bool.true_or, Bool.or_true]

theorem issueM_cfg (h : s.runs c g) (a b : BitVec 4) (sp : BitVec 2) :
    s.issueM c g (.cfg a b sp) = .next (match mcfgOf a b sp with
      | some m => s.issued c { s.cores[c] with mcfg := m } .seq
      | none => s.coreFault c 1 s.cores[c].regs.pc) := by
  cases hm : mcfgOf a b sp with
  | none => exact issueM_illegal h (congrArg Option.isSome hm)
  | some m =>
    rw [issueM_ok (op := .cfg a b sp) h (congrArg Option.isSome hm) rfl rfl]
    simp only [Core.execM, hm]
    rfl

theorem MOp.fault_bload {inSeg : Bool} {post : Option SemId} (hp : semClassOk inSeg post = true) (ag : AgId) (kreg : SReg) :
    MOp.fault inSeg (some (.bload ag post kreg)) = none := if_pos hp

theorem MOp.fault_pass {inSeg : Bool} {post : Option SemId} (hp : semClassOk inSeg post = true) (ag : AgId) (bank keep : Bool) (kreg : SReg) :
    MOp.fault inSeg (some (.pass ag bank keep post kreg)) = none := if_pos hp

theorem issueM_bload (h : s.runs c g) {post : Option SemId} (hp : semClassOk s.cores[c].seg.isOpen post = true) (ag : AgId) (kreg : SReg) :
    s.issueM c g (.bload ag post kreg) = .next (if 2 ≤ s.cores[c].arr.loads.length then s.stalled c
      else s.issued c (s.cores[c].issueLoad s.cores[c] ag post (s.cores[c].regs.sget kreg)) .seq) := by
  split
  case isTrue full => exact issueM_stall h rfl (MOp.fault_bload hp ag kreg) (decide_eq_true full)
  case isFalse room => exact issueM_ok h rfl (MOp.fault_bload hp ag kreg) (decide_eq_false room)

end

/-- Settles O8: the mode is set where the formats are listed; a load or a pass enters its queue unless it must wait or its post is of the
wrong class. -/
theorem matrixSlotQueuesWork : Obligations.MatrixSlotQueuesWork := by
  intro s c g ag post kreg h k w
  refine ⟨issueM_cfg h, fun hp => ⟨issueM_bload h hp ag kreg, fun bank keep => ⟨fun room free => ?_, fun waits => ?_⟩⟩,
    ⟨_, rfl, rfl, rfl, rfl, rfl⟩, fun bank keep => ⟨_, rfl, rfl, rfl, rfl, rfl, rfl, rfl, rfl⟩, fun hp => ⟨?_, fun bank keep => ?_⟩⟩
  · have goes : k.stallM (some (.pass ag bank keep post kreg)) = false := by simpa [Core.stallM, free] using room
    exact issueM_ok h rfl (MOp.fault_pass hp ag bank keep kreg) goes
  · have stalls : k.stallM (some (.pass ag bank keep post kreg)) = true := by simpa only [Core.stallM, Bool.or_eq_true, decide_eq_true_eq] using waits
    exact issueM_stall h rfl (MOp.fault_pass hp ag bank keep kreg) stalls
  · exact issueM_fault h (if_neg (ne_true_of_eq_false hp))
  · exact issueM_fault h (if_neg (ne_true_of_eq_false hp))

/-! ## What an event of the array does to its core -/

section
variable {k : Core}

theorem Core.passStart_front {p : Pass} (hp : k.arr.frontPass = some p) (hn : p.count ≠ 0) (fr : Nat) :
    k.passStart fr =
      let x := if (k.ags[p.ag]).active then k.agClash fr p.ag else k.setAg p.ag ((k.ags[p.ag]).start k.regs p.ag)
      { x with
        arr := x.arr.setPass { p with started := true, src := some x.ags[p.ag] },
        regs := if p.keep then x.regs else x.regs.clearBank p.bank } := by
  unfold Core.passStart
  rw [hp]
  exact if_neg hn

theorem Core.issueSlot_whey (hi : k.arr.issuing = none) (hl : 0 < k.arr.level) :
    k.issueSlot = ({ k with arr := { k.arr.wheyStep false with aclk := nextIssue k.arr.level 64 k.arr.aclk } }, []) := by
  unfold Core.issueSlot
  rw [hi]
  exact if_neg (Nat.pos_iff_ne_zero.mp hl)

theorem Core.issueSlot_level_zero (hl : k.arr.level = 0) :
    k.issueSlot = ({ k with arr := { k.arr with active := false, whey := false } }, []) := by
  unfold Core.issueSlot
  cases k.arr.issuing <;> exact if_pos hl

/-- A pass of count 0, or one all of whose k-steps have issued, is done. -/
theorem Core.passComplete_done {p : Pass} {ps : List Pass} (hp : k.arr.passes = p :: ps) (done : p.count = 0 ∨ (p.started = true ∧ p.issued = true))
    (hs : p.spoilt = false) (fr : Nat) : k.passComplete fr = ({ k with arr := { k.arr with passes := ps } }).complete p.post := by
  have done' : (decide (p.count = 0) || (p.started && p.issued)) = true := by simpa using done
  simp only [Core.passComplete, hp, done', hs, Bool.false_eq_true, if_true, if_false]

theorem Core.loadStart_head {l : Load} {ls : List Load} (hl : k.arr.loads = l :: ls) (hs : l.started = false) (hn : l.count ≠ 0) (fr : Nat) :
    k.loadStart fr =
      let x := if (k.ags[l.ag]).active then k.agClash fr l.ag else k.setAg l.ag ((k.ags[l.ag]).start k.regs l.ag)
      { x with arr := { x.arr with loads := { l with started := true, src := some x.ags[l.ag] } :: ls } } := by
  have waiting : (l.started || decide (l.count = 0)) = false := by simp [hs, hn]
  unfold Core.loadStart
  rw [hl]
  exact if_neg (ne_true_of_eq_false waiting)

theorem Core.loadWrite_empty {l : Load} {ls : List Load} (hl : k.arr.loads = l :: ls) (hn : l.count = 0) :
    k.loadWrite = ({ k with arr := { k.arr with loads := ls } }).complete l.post := by
  unfold Core.loadWrite
  rw [hl]
  exact if_pos hn

end

section
variable {s : State} {c : CoreId}

theorem execLevelStep_enabled (hon : s.vcoreOn = true) (hen : s.cores[c].ctl.enabled = true) (quiet : Bool) :
    execLevelStep c quiet s = .next (s.setCore c (s.cores[c].levelStep (s.ceiling (vatOf c)) quiet)) :=
  onlyIf_of_true (by rw [hon, hen]; rfl)

theorem execPassFrontEndStart_clocked (h : s.coreClocked c = true) :
    execPassFrontEndStart c s = .next ((s.setCore c (s.cores[c].passStart s.free)).drawn freeStep) := onlyIf_of_true h

theorem execArrayIssueSlot_clocked (h : s.coreClocked c = true) :
    execArrayIssueSlot c s = .next (s.withCore c s.cores[c].issueSlot) := onlyIf_of_true h

theorem execPassComplete_clocked (h : s.coreClocked c = true) :
    execPassComplete c s = .next ((s.withCore c (s.cores[c].passComplete s.free)).drawn freeStep) := onlyIf_of_true h

theorem execBloadStart_clocked (h : s.coreClocked c = true) :
    execBloadStart c s = .next ((s.setCore c (s.cores[c].loadStart s.free)).drawn freeStep) := onlyIf_of_true h

theorem execBloadSlotWrite_clocked (h : s.coreClocked c = true) :
    execBloadSlotWrite c s = .next (s.withCore c s.cores[c].loadWrite) := onlyIf_of_true h

theorem execTopupDecrement_clocked (h : s.coreClocked c = true) :
    execTopupDecrement c s = .next (s.setCore c s.cores[c].topupDecrement) := onlyIf_of_true h

end

/-- Settles O9: each event of a clocked core is one function of that core; the cases of these functions. -/
theorem arrayEvents : Obligations.ArrayEvents := by
  intro s c k
  refine ⟨fun hon hen quiet => execLevelStep_enabled hon hen quiet, fun h => ⟨execPassFrontEndStart_clocked h, fun p hp hn => ?_,
    execArrayIssueSlot_clocked h, fun hi hl => ?_, fun hl => ?_, execPassComplete_clocked h, fun p ps hp done hs => ?_,
    execBloadStart_clocked h, fun l ls hl hs hn => ?_, execBloadSlotWrite_clocked h, fun l ls hl hn => ?_, execTopupDecrement_clocked h⟩⟩
  · rw [exec_passFrontEndStart, execPassFrontEndStart_clocked h, Core.passStart_front hp hn]
  · rw [exec_arrayIssueSlot, execArrayIssueSlot_clocked h, Core.issueSlot_whey hi hl]; rfl
  · rw [exec_arrayIssueSlot, execArrayIssueSlot_clocked h, Core.issueSlot_level_zero hl]; rfl
  · rw [exec_passComplete, execPassComplete_clocked h, Core.passComplete_done hp done hs]
  · rw [exec_bloadStart, execBloadStart_clocked h, Core.loadStart_head hl hs hn]
  · rw [exec_bloadSlotWrite, execBloadSlotWrite_clocked h, Core.loadWrite_empty hl hn]

end Sys2Proof.Machine
end

section
/-! SUPPORT. Semaphores and segments: how a move/sync slot issues, waits, stalls or faults. -/

namespace Sys2Proof.Machine

/-! ## How a move/sync slot issues -/

section
variable {s : State} {c : CoreId} {g : Guard}

/-- The executing slots of a bundle that holds one move/sync slot. -/
theorem live_D {r : CoreRegs} {op : DOp} (hg : g.holds r = true) :
    ({ Bundle.nops with dg := g, d := some op } : Bundle).live r = ⟨some .nop, some .nop, some .nop, some op⟩ := by
  simp [Bundle.live, Bundle.nops, hg]

theorem live_fault_D {inSeg : Bool} {op : DOp} (hd : DOp.fault inSeg (some op) = none) :
    Live.fault ⟨some .nop, some .nop, some .nop, some op⟩ inSeg = none := by
  simp only [Live.fault, hd]; rfl

/-- A `y.wait` whose semaphore is too low stalls its bundle (R62). -/
theorem issueD_waits {op : DOp} (h : s.runs c g) (hd : DOp.fault s.cores[c].seg.isOpen (some op) = none)
    (hw : s.cores[c].waitsSem (some op) = true) :
    s.issueD c g op = .next (s.setCore c { s.cores[c] with ctl := { s.cores[c].ctl with waiting := true } }) := by
  refine issue_stall h.1 ?_
  unfold Core.tryIssue
  rw [live_D h.2]
  simp only [live_fault_D hd, hw, if_true]

/-- A move/sync slot that must wait for a commit or for a place among the 32 stalls its bundle (R55, R70). -/
theorem issueD_stall {op : DOp} (h : s.runs c g) (hd : DOp.fault s.cores[c].seg.isOpen (some op) = none)
    (hsem : s.cores[c].waitsSem (some op) = false)
    (hw : s.cores[c].stallD (some op) = true ∨ Live.needs ⟨some .nop, some .nop, some .nop, some op⟩ = 1 ∧ 32 ≤ s.cores[c].outstanding) :
    s.issueD c g op = .next (s.stalled c) := by
  refine issue_stall h.1 (tryIssue_stall (live_D h.2) (live_fault_D hd) hsem ?_)
  rcases hw with commit | ⟨one, full⟩
  · simp only [Core.stalls, commit, Bool.or_true, Bool.true_or]
  · have no_place : 32 < s.cores[c].outstanding + 1 := by omega
    simp only [Core.stalls, one, decide_eq_true no_place, ne_eq, one_ne_zero, not_false_eq_true, decide_true, Bool.and_true, Bool.or_true]

/-- A move/sync slot that faults at issue (R54, R518, R519). -/
theorem issueD_late {op : DOp} {n : Nat} (h : s.runs c g) (hd : DOp.fault s.cores[c].seg.isOpen (some op) = none)
    (hsem : s.cores[c].waitsSem (some op) = false) (hw : s.cores[c].stallD (some op) = false)
    (hn : Live.needs ⟨some .nop, some .nop, some .nop, some op⟩ = 0 ∨ s.cores[c].outstanding < 32)
    (hi : s.cores[c].issueFault s.cores[c].store .nop op = some n) :
    s.issueD c g op = .next (s.coreFault c n s.cores[c].regs.pc) := by
  refine issue_fault h.1 ?_
  have at_most_one : Live.needs ⟨some .nop, some .nop, some .nop, some op⟩ ≤ 1 := by simp only [Live.needs]; split <;> simp
  have goes : s.cores[c].stalls ⟨some .nop, some .nop, some .nop, some op⟩ = false := by
    simp only [Core.stalls, Core.stallS, Core.stallM, Core.stallV, hw, Bool.false_or, room_ok at_most_one hn]
  have same : s.cores[c].execSmv (s.env c) .nop .nop .nop = s.cores[c] := rfl
  unfold Core.tryIssue
  rw [live_D h.2]
  simp only [live_fault_D hd, hsem, goes, same, hi, Bool.false_eq_true, if_false]

theorem State.issued_core (x : Core) (f : Flow) :
    (s.issued c x f).cores[c] = { x with regs := x.regs.advance f, ctl := { x.ctl with waiting := false, halting := f = .halt } } :=
  State.setCore_same s c _

/-! ## Semaphores -/

theorem Core.postN_fits (k : Core) {sem : SemId} {n : Nat} (hv : (k.regs.sem[sem]).toNat + n ≤ 65535) :
    k.postN sem n = ({ k with regs := { k.regs with sem := k.regs.sem.set sem (BitVec.ofNat 16 ((k.regs.sem[sem]).toNat + n)) } }, []) :=
  if_neg (by omega)

theorem Core.postN_saturates (k : Core) {sem : SemId} {n : Nat} (hv : 65535 < (k.regs.sem[sem]).toNat + n) :
    k.postN sem n = ({ k with regs := { k.regs with sem := k.regs.sem.set sem 0xffff#16 }, ctl := { k.ctl with semOvf := true } },
      [.semOvf sem.val]) :=
  if_pos hv

theorem DOp.fault_wait {inSeg : Bool} {sem : SemId} (hp : semClassOk inSeg (some sem) = true) (n : BitVec 8) :
    DOp.fault inSeg (some (.wait sem n)) = none := if_pos hp

theorem DOp.fault_post {inSeg : Bool} {sem : SemId} (hp : semClassOk inSeg (some sem) = true) (n : BitVec 8) :
    DOp.fault inSeg (some (.post sem n)) = none := if_pos hp

theorem issueD_post_fits {sem : SemId} {n : BitVec 8} (h : s.runs c g) (hp : semClassOk s.cores[c].seg.isOpen (some sem) = true)
    (hv : (s.cores[c].regs.sem[sem]).toNat + n.toNat ≤ 65535) :
    s.issueD c g (.post sem n) = .next (s.setsRegs c { s.cores[c].regs with
      sem := s.cores[c].regs.sem.set sem (BitVec.ofNat 16 ((s.cores[c].regs.sem[sem]).toNat + n.toNat)) }) := by
  refine issueD_plain h (DOp.fault_post hp n) rfl rfl (.inl rfl) rfl ?_
  simp only [Core.execD, Core.postN_fits _ hv]

theorem issueD_post_saturates {sem : SemId} {n : BitVec 8} (h : s.runs c g) (hp : semClassOk s.cores[c].seg.isOpen (some sem) = true)
    (hv : 65535 < (s.cores[c].regs.sem[sem]).toNat + n.toNat) :
    s.issueD c g (.post sem n) = .next (((s.setCore c { s.cores[c] with
      regs := ({ s.cores[c].regs with sem := s.cores[c].regs.sem.set sem 0xffff#16 } : CoreRegs).advance .seq,
      ctl := { s.cores[c].ctl with semOvf := true, waiting := false, halting := false } }).applyEv c (.semOvf sem.val)).drawn freeStep) := by
  rw [issueD_ok h (DOp.fault_post hp n) rfl rfl (.inl rfl) rfl]
  simp only [Core.execD, Core.postN_saturates _ hv]
  rfl

theorem issueD_postr (h : s.runs c g) (rv : SReg) (m : Fin 16) (n : BitVec 8) :
    s.issueD c g (.postr rv m n) = .next (if s.cores[c].seg.isOpen then s.coreFault c 7 s.cores[c].regs.pc
      else if 32 ≤ s.cores[c].outstanding then s.stalled c
      else (s.atIssue c).updCore c fun x => x.addOp none [] [] (.postr ((s.cores[c].regs.sget rv).toNat % 65536) (48 + m.val) n.toNat)) := by
  split
  case isTrue inside => exact issueD_fault h (if_pos inside)
  case isFalse outside =>
    have legal : DOp.fault s.cores[c].seg.isOpen (some (.postr rv m n)) = none := if_neg outside
    split
    case isTrue full => exact issueD_stall h legal rfl (.inr ⟨rfl, full⟩)
    case isFalse room => exact issueD_ok h legal rfl rfl (.inr (by omega)) rfl

end

/-- Settles O12: a wait issues or stalls as its semaphore stands, a post fits or saturates, a remote post enters, waits or faults.
The register operand of y.postr modulo 65536 is the model's choice (log 82). -/
theorem semaphoreWaitAndPost : Obligations.SemaphoreWaitAndPost := by
  intro s c g sem n h k v put
  refine ⟨fun hp => ⟨fun enough => ?_, fun low => ?_, issueD_post_fits h hp, issueD_post_saturates h hp⟩,
    fun hp => ⟨issueD_fault h (if_neg (ne_true_of_eq_false hp)), issueD_fault h (if_neg (ne_true_of_eq_false hp))⟩,
    fun rv m => issueD_postr h rv m n⟩
  · exact issueD_plain h (DOp.fault_wait hp n) (decide_eq_false (Nat.not_lt.mpr enough)) rfl (.inl rfl) rfl rfl
  · exact issueD_waits h (DOp.fault_wait hp n) (decide_eq_true low)

/-! ## Segments -/

section
variable {s : State} {c : CoreId} {g : Guard}

theorem issueD_seg (h : s.runs c g) (rs : SReg) (hseg : s.cores[c].seg.isOpen = false) :
    s.issueD c g (.seg rs) = .next (s.issued c (s.cores[c].openSeg s.cores[c] (s.cores[c].regs.sget rs).toNat) .seq) :=
  issueD_plain h (if_neg (ne_true_of_eq_false hseg)) rfl rfl (.inl rfl) rfl rfl

/-- A `y.commit` whose segment is idle decides it (R70). -/
theorem issueD_commit (h : s.runs c g) (hseg : s.cores[c].seg.isOpen = true) (hidle : s.cores[c].segIdle = true) :
    s.issueD c g .commit = .next ((s.atIssue c).decideCommit c s.cores[c].regs.pc) :=
  issueD_ok h (if_pos hseg) rfl (by simp only [Core.stallD, hidle, Bool.not_true]) (.inl rfl) rfl

/-- The decision reads the flag and the replays that the core had before the bundle, which writes neither. -/
theorem decideCommit_atIssue (pc : Nat) :
    (s.atIssue c).decideCommit c pc =
      let a := s.atIssue c
      let t := if s.cores[c].num.segovf = false then a.withCore c a.cores[c].commitSeg
        else if s.cores[c].seg.replays < 3 then a.withCore c a.cores[c].rewindSeg
        else (a.coreFault c 8 pc).updCore c fun x => { x with regs := { x.regs with pc := pc } }
      if s.pwr.protect.isSome || s.job.parkLost then t.updCore c fun x => { x with ctl := { x.ctl with stopped := true } } else t := by
  have flag : (s.atIssue c).cores[c].num.segovf = s.cores[c].num.segovf := by rw [State.atIssue, State.issued_core]
  have replays : (s.atIssue c).cores[c].seg.replays = s.cores[c].seg.replays := by rw [State.atIssue, State.issued_core]
  unfold State.decideCommit
  simp only [flag, replays, Bool.not_eq_true', fSegLimit]
  rfl

theorem execRewindAccClear_due (hon : s.coreOn c = true) (hdue : s.cores[c].seg.accClear = true) :
    execRewindAccClear c s = .next (if s.cores[c].accClearReady then
      s.setCore c { s.cores[c] with regs := { s.cores[c].regs with acc := [] }, seg := { s.cores[c].seg with accClear := false } } else s) := by
  unfold execRewindAccClear
  rw [hon, hdue]
  split
  case isTrue ready => exact onlyIf_of_true ready
  case isFalse early => exact onlyIf_of_false (eq_false_of_ne_true early)

end

/-- Settles O13: y.seg and y.commit by whether a segment is open, the commit by whether it is idle.
What the commit waits for and where SEG_LIMIT leaves the PC are the model's choices (logs 96 and 105). -/
theorem segmentOpenAndCommit : Obligations.SegmentOpenAndCommit := by
  intro s c g rs k a
  refine ⟨fun h closed => ⟨issueD_seg h rs closed, issueD_fault h (if_neg (ne_true_of_eq_false closed))⟩, fun h opened => issueD_fault h (if_pos opened),
    fun h opened busy => ?_, fun h opened idle => ?_, execRewindAccClear_due⟩
  · exact issueD_stall h (if_pos opened) rfl (.inl (by simp only [Core.stallD]; rw [busy]; rfl))
  · rw [exec_yCommit, execYCommit, issueD_commit h opened idle, decideCommit_atIssue]

end Sys2Proof.Machine
end

section
/-! SUPPORT. Copies, descriptors of generators, instruction loads and transfers: how they enter, how they complete, what a transfer moves. -/

namespace Sys2Proof.Machine

/-! ## Copies, descriptors of generators, instruction loads -/

theorem storeAddr_storeAddr (a : Nat) : storeAddr (storeAddr a) = storeAddr a := Nat.mod_mod a storeBytes

/-- Bits of an address above 21 do not matter to a read (R41). -/
theorem storeRead_storeAddr (m : Cells 8) (a n : Nat) : storeRead m (storeAddr a) n = storeRead m a n := by
  have shifted (i : Nat) : storeAddr (storeAddr a + i) = storeAddr (a + i) := Nat.mod_add_mod a storeBytes i
  simp only [storeRead, storeAddr_storeAddr, shifted]

theorem storeLe_storeAddr (m : Cells 8) (a n : Nat) : storeLe m (storeAddr a) n = storeLe m a n :=
  congrArg leNat (storeRead_storeAddr m a n)

section
variable {s : State} {c : CoreId} {g : Guard} {post : Option SemId}

theorem DOp.fault_copy {inSeg : Bool} (hp : semClassOk inSeg post = true) (a b n : SReg) :
    DOp.fault inSeg (some (.copy a b n post)) = none := if_pos hp

theorem DOp.fault_async (hp : semClassOk false post = true) (k : DKind) (rs : SReg) :
    DOp.fault false (some (.async k rs post)) = none := if_pos hp

theorem issueD_copy (h : s.runs c g) (hp : semClassOk s.cores[c].seg.isOpen post = true) (a b n : SReg) :
    let r := s.cores[c].regs
    let src := storeAddr (r.sget a).toNat
    let dst := storeAddr (r.sget b).toNat
    let len := (r.sget n).toNat
    s.issueD c g (.copy a b n post) = .next (if 32 ≤ s.cores[c].outstanding then s.stalled c
      else if copyOk (r.sget a).toNat (r.sget b).toNat len then
        s.issued c (s.cores[c].addOp post [(src, len)] [(dst, len)] (.copy src dst len)) .seq
      else s.coreFault c 11 r.pc) := by
  intro r src dst len
  have issue_fault_eq : s.cores[c].issueFault s.cores[c].store .nop (.copy a b n post) =
      if copyOk (r.sget a).toNat (r.sget b).toNat len then none else some fArgRange := rfl
  split
  case isTrue full => exact issueD_stall h (DOp.fault_copy hp a b n) rfl (.inr ⟨rfl, full⟩)
  case isFalse room =>
    split
    case isTrue ok => exact issueD_plain h (DOp.fault_copy hp a b n) rfl rfl (.inr (by omega)) (issue_fault_eq.trans (if_pos ok)) rfl
    case isFalse bad => exact issueD_late h (DOp.fault_copy hp a b n) rfl rfl (.inr (by omega)) (issue_fault_eq.trans (if_neg bad))

theorem issueD_agld (h : s.runs c g) (ag : AgId) (rs : SReg) :
    let x := agDescAt s.cores[c].store (s.cores[c].regs.sget rs).toNat
    s.issueD c g (.agld ag rs) = .next (if agDescOk x then
        s.issued c (if (s.cores[c].ags[ag]).active then s.cores[c].agClash s.free ag
          else s.cores[c].setAg ag { s.cores[c].ags[ag] with desc := x, taken := 0, base := 0 }) .seq
      else s.coreFault c 1 s.cores[c].regs.pc) := by
  intro x
  have issue_fault_eq : s.cores[c].issueFault s.cores[c].store .nop (.agld ag rs) = if agDescOk x then none else some fIllegal := rfl
  split
  case isTrue ok =>
    refine issueD_plain h rfl rfl rfl (.inl rfl) (issue_fault_eq.trans (if_pos ok)) ?_
    simp only [Core.execD]
    split <;> rfl
  case isFalse bad => exact issueD_late h rfl rfl rfl (.inl rfl) (issue_fault_eq.trans (if_neg bad))

/-- An asynchronous operation outside a segment waits for a place among the 32 (R55). -/
theorem issueD_async_full (h : s.runs c g) (hseg : s.cores[c].seg.isOpen = false) (hp : semClassOk false post = true)
    (full : 32 ≤ s.cores[c].outstanding) (k : DKind) (rs : SReg) : s.issueD c g (.async k rs post) = .next (s.stalled c) :=
  issueD_stall h (by rw [hseg]; exact DOp.fault_async hp k rs) rfl (.inr ⟨rfl, full⟩)

theorem issueD_async_inSeg (h : s.runs c g) (hseg : s.cores[c].seg.isOpen = true) (k : DKind) (rs : SReg) :
    s.issueD c g (.async k rs post) = .next (s.coreFault c 7 s.cores[c].regs.pc) :=
  issueD_fault h (if_pos hseg)

theorem issueD_async_class (h : s.runs c g) (hseg : s.cores[c].seg.isOpen = false) (hp : semClassOk false post = false) (k : DKind) (rs : SReg) :
    s.issueD c g (.async k rs post) = .next (s.coreFault c 10 s.cores[c].regs.pc) :=
  issueD_fault h (by rw [hseg]; exact if_neg (ne_true_of_eq_false hp))

/-- A bundle whose slot leaves its effect to the module writes neither its core's store nor the numbers of its operations. -/
theorem atIssue_store : (s.atIssue c).cores[c].store = s.cores[c].store := by
  rw [State.atIssue, State.issued_core]

theorem atIssue_seq : (s.atIssue c).cores[c].seq = s.cores[c].seq := by
  rw [State.atIssue, State.issued_core]

theorem issueD_imem (h : s.runs c g) (hseg : s.cores[c].seg.isOpen = false) (hp : semClassOk false post = true) (rs : SReg) :
    let y := storeLe s.cores[c].store (s.cores[c].regs.sget rs).toNat 16
    let first := (imemDesc y).2.1
    let cnt := (imemDesc y).2.2.1
    s.issueD c g (.async .imem rs post) = .next (if 32 ≤ s.cores[c].outstanding then s.stalled c
      else if imemOk y then (s.atIssue c).updCore c fun x =>
        { x.addOp post [] [] (.imem (imemDesc y).1 first cnt (s.descAddr c rs)) with
          imem := { x.imem with image := none, wild := x.imem.wild || (decide (cnt ≠ 0) && x.imemInUse first cnt) } }
      else s.coreFault c 11 s.cores[c].regs.pc) := by
  intro y first cnt
  have legal : DOp.fault s.cores[c].seg.isOpen (some (.async .imem rs post)) = none := by rw [hseg]; exact DOp.fault_async hp .imem rs
  have issue_fault_eq : s.cores[c].issueFault s.cores[c].store .nop (.async .imem rs post) = if imemOk y then none else some fArgRange := rfl
  split
  case isTrue full => exact issueD_async_full h hseg hp full .imem rs
  case isFalse room =>
    split
    case isTrue ok =>
      have desc : storeLe (s.atIssue c).cores[c].store (s.descAddr c rs) 16 = y := by
        rw [atIssue_store, State.descAddr, storeLe_storeAddr]
      rw [issueD_async h hseg hp (by omega) (issue_fault_eq.trans (if_pos ok))]
      change Host.Outcome.next ((s.atIssue c).startImem c (s.descAddr c rs) post) = _
      simp only [State.startImem, desc]
      rfl
    case isFalse bad => exact issueD_late h legal rfl rfl (.inr (by omega)) (issue_fault_eq.trans (if_neg bad))

end

/-- Settles O14: each operation enters its work, waits for a place, or raises the fault of its check.
The order of stalls and faults is the model's choice (log 6). -/
theorem moveSlotWithinTheCore : Obligations.MoveSlotWithinTheCore := by
  intro s c g a b n rs ag post h k src dst len
  refine ⟨fun hp => issueD_copy h hp a b n, fun hp => issueD_fault h (if_neg (ne_true_of_eq_false hp)), fun x hx => ?_,
    fun hseg hp => issueD_imem h hseg hp rs, fun hseg hp => issueD_async_class h hseg hp .imem rs, fun hseg => issueD_async_inSeg h hseg .imem rs⟩
  subst hx
  exact issueD_agld h ag rs

/-! ## Completion of operations -/

section
variable {s : State} {c : CoreId} {op : Nat} {o : Op}

/-- What an event of an operation that the core has does. -/
theorem onOp_of_opAt (ho : s.cores[c].opAt op = some o) (f : Op → Res) : s.onOp c op f = f o := by
  simp only [State.onOp, ho]

theorem storeOn_of (hon : s.vcoreOn = true) (hen : s.cores[c].ctl.enabled = true) : s.storeOn c = true := by
  rw [State.storeOn, hon, hen]; rfl

theorem execDCopyComplete_copy (hon : s.storeOn c = true) (ho : s.cores[c].opAt op = some o) {src dst len : Nat} (hb : o.body = .copy src dst len) :
    execDCopyComplete c op s = .next ((s.writeStoreOf c o.id dst
      (s.openBytes (src ≠ dst && overlaps src len dst len) (storeRead s.cores[c].store src len))).endOp c o) := by
  simp only [execDCopyComplete, onlyIf_of_true hon, onOp_of_opAt ho, hb]

theorem execImemLoadComplete_imem (hon : s.storeOn c = true) (ho : s.cores[c].opAt op = some o) {src first n addr : Nat}
    (hb : o.body = .imem src first n addr) :
    execImemLoadComplete c op s = .next ((s.loadBundles c src first addr (List.range n)).endOp c o) := by
  simp only [execImemLoadComplete, onlyIf_of_true hon, onOp_of_opAt ho, hb]

theorem execRemotePostDeliver_postr (hon : s.storeOn c = true) (ho : s.cores[c].opAt op = some o) {v sem n : Nat} (hb : o.body = .postr v sem n) :
    execRemotePostDeliver c op s =
      .next (if s.postrReady c op v then ((s.updCore c fun x => x.dropOp op).postVcid v sem n).2 else s) := by
  simp only [execRemotePostDeliver, onlyIf_of_true hon, onOp_of_opAt ho, hb]
  split <;> rfl

end

/-- Settles O15: each completion by the body of its operation.
The free bytes of overlapping ranges and the source read at completion are the model's choice (log 21). -/
theorem moveCompletions : Obligations.MoveCompletions := by
  intro s c op o hon hen ho
  have hstore := storeOn_of hon hen
  refine ⟨fun src dst len hb => ⟨fun apart => ?_, fun hne meets => ?_⟩, fun src first n addr hb => execImemLoadComplete_imem hstore ho hb,
    fun v sem n hb => execRemotePostDeliver_postr hstore ho hb⟩
  · have defined : (decide (src ≠ dst) && overlaps src len dst len) = false := by
      rcases apart with e | e <;> simp [e]
    rw [exec_dCopyComplete, execDCopyComplete_copy hstore ho hb, defined]
    rfl
  · rw [exec_dCopyComplete, execDCopyComplete_copy hstore ho hb, decide_eq_true hne, meets]
    rfl

/-! ## Transfers -/

/-- A COPY or a FILL to its destination, once its source is not to be asked of another module. -/
def State.moveToDest (e : State) (c : CoreId) (own : Nat) (d : XDesc) : State :=
  let p := (e.xferChunks c d).foldl (fun p x => XProg.chunk c own d p x.1 x.2) ⟨e, 0, stOk, 0, 0, e.copyOverlaps c d⟩
  let q := d.pieces.foldl (State.sendPieces c own d) ⟨e, 0, stOk, 0, 0, false⟩
  if e.isRemote d.dspace d.dstExt then q.st.failXfer c own 0 q.code q.bad else p.st.setXfer c own p.done p.code p.bad

/-- What an entered transfer with a sound descriptor of some bytes does (R188, R190): `own` is its operation number. -/
def State.moveXfer (e : State) (c : CoreId) (own : Nat) (d : XDesc) : State :=
  if d.op = 2 then
    (e.wbackRows (e.sideRanges c d true)).2.2.setXfer c own 0 (e.wbackRows (e.sideRanges c d true)).1 (e.wbackRows (e.sideRanges c d true)).2.1
  else if d.usesSrc && e.isRemote d.sspace d.srcExt then e.readPieces c own d d.pieces
  else if d.op = 3 then
    (e.warmRows (e.sideRanges c d false)).2.2.setXfer c own 0 (e.warmRows (e.sideRanges c d false)).1 (e.warmRows (e.sideRanges c d false)).2.1
  else e.moveToDest c own d

/-- A transfer enters, and moves its data where its descriptor is sound and names some bytes. -/
theorem startXfer_eq (a : State) (c : CoreId) (addr : Nat) (post : Option SemId) :
    a.startXfer c addr post =
      let d := XDesc.mk (storeRead a.cores[c].store addr 64)
      if !(d.ok && decide (d.total ≠ 0)) then a.entersXfer c addr post
      else (a.entersXfer c addr post).moveXfer c a.cores[c].seq d := by
  unfold State.startXfer
  extract_lets raw d own live rd wr e
  have entered : a.entersXfer c addr post = e := rfl
  rw [entered]
  clear_value e
  unfold State.moveXfer State.moveToDest
  generalize e.wbackRows (e.sideRanges c d true) = w
  generalize e.warmRows (e.sideRanges c d false) = m
  rfl

section
variable {s : State} {c : CoreId} {g : Guard} {rs : SReg} {post : Option SemId}

/-- A bundle leaves the core's store and its operation numbers, so the transfer it starts reads the descriptor the slot named. -/
theorem startXfer_atIssue :
    (s.atIssue c).startXfer c (s.descAddr c rs) post =
      if !((s.xdesc c rs).ok && decide ((s.xdesc c rs).total ≠ 0)) then (s.atIssue c).entersXfer c (s.descAddr c rs) post
      else ((s.atIssue c).entersXfer c (s.descAddr c rs) post).moveXfer c s.cores[c].seq (s.xdesc c rs) := by
  rw [startXfer_eq, atIssue_store, atIssue_seq]
  rfl

theorem startXfer_idle (h : (s.xdesc c rs).ok = false ∨ (s.xdesc c rs).total = 0) :
    (s.atIssue c).startXfer c (s.descAddr c rs) post = (s.atIssue c).entersXfer c (s.descAddr c rs) post := by
  rw [startXfer_atIssue]
  rcases h with e | e <;> simp [e]

theorem startXfer_live (hok : (s.xdesc c rs).ok = true) (hn : (s.xdesc c rs).total ≠ 0) :
    (s.atIssue c).startXfer c (s.descAddr c rs) post =
      ((s.atIssue c).entersXfer c (s.descAddr c rs) post).moveXfer c s.cores[c].seq (s.xdesc c rs) := by
  rw [startXfer_atIssue]
  simp [hok, hn]

/-- A slot whose descriptor holds the operation of the command issues as a `d.xfer`. -/
theorem issueXfer_of_op {n : Nat} (hop : (s.xdesc c rs).op = n) : s.issueXfer c g rs post n = s.issueD c g (.async .xfer rs post) := by
  have named : (g.holds s.cores[c].regs && decide ((s.xdesc c rs).op ≠ n)) = false := by simp [hop]
  exact if_neg (ne_true_of_eq_false named)

theorem issueXfer_starts {n : Nat} (hop : (s.xdesc c rs).op = n) (h : s.mayStart c g post) :
    s.issueXfer c g rs post n = .next ((s.atIssue c).startXfer c (s.descAddr c rs) post) := by
  obtain ⟨runs, closed, class_ok, room⟩ := h
  exact (issueXfer_of_op hop).trans (issueD_async runs closed class_ok room rfl)

theorem issueXfer_moves {n : Nat} (hop : (s.xdesc c rs).op = n) (h : s.mayStart c g post) (hok : (s.xdesc c rs).ok = true)
    (hn : (s.xdesc c rs).total ≠ 0) :
    s.issueXfer c g rs post n =
      .next (((s.atIssue c).entersXfer c (s.descAddr c rs) post).moveXfer c s.cores[c].seq (s.xdesc c rs)) := by
  rw [issueXfer_starts hop h, startXfer_live hok hn]

/-- What every `d.xfer` slot shares: its faults, its stall, its start, and a descriptor with nothing to move (R54, R61, R68, R190). -/
theorem issueXfer_cases {n : Nat} (runs : s.runs c g) (hop : (s.xdesc c rs).op = n) :
    (s.cores[c].seg.isOpen = true → s.issueXfer c g rs post n = .next (s.coreFault c 7 s.cores[c].regs.pc)) ∧
    (s.cores[c].seg.isOpen = false → semClassOk false post = false → s.issueXfer c g rs post n = .next (s.coreFault c 10 s.cores[c].regs.pc)) ∧
    (s.cores[c].seg.isOpen = false → semClassOk false post = true → 32 ≤ s.cores[c].outstanding →
      s.issueXfer c g rs post n = .next (s.stalled c)) ∧
    (s.mayStart c g post → s.issueXfer c g rs post n = .next ((s.atIssue c).startXfer c (s.descAddr c rs) post) ∧
      ((s.xdesc c rs).ok = false ∨ (s.xdesc c rs).total = 0 →
        s.issueXfer c g rs post n = .next ((s.atIssue c).entersXfer c (s.descAddr c rs) post))) := by
  have issue_eq := issueXfer_of_op (g := g) (post := post) hop
  refine ⟨fun inside => ?_, fun closed bad => ?_, fun closed ok full => ?_, fun h => ⟨issueXfer_starts hop h, fun idle => ?_⟩⟩
  · rw [issue_eq, issueD_async_inSeg runs inside]
  · rw [issue_eq, issueD_async_class runs closed bad]
  · rw [issue_eq, issueD_async_full runs closed ok full]
  · rw [issueXfer_starts hop h, startXfer_idle idle]

end

section
variable (e : State) (c : CoreId) (own : Nat) {d : XDesc}

theorem moveXfer_wback (hop : d.op = 2) :
    e.moveXfer c own d = (e.wbackRows (e.sideRanges c d true)).2.2.setXfer c own 0 (e.wbackRows (e.sideRanges c d true)).1
      (e.wbackRows (e.sideRanges c d true)).2.1 := if_pos hop

theorem moveXfer_warm (hop : d.op = 3) :
    e.moveXfer c own d = if e.isRemote d.sspace d.srcExt then e.readPieces c own d d.pieces
      else (e.warmRows (e.sideRanges c d false)).2.2.setXfer c own 0 (e.warmRows (e.sideRanges c d false)).1
        (e.warmRows (e.sideRanges c d false)).2.1 := by
  have uses : d.usesSrc = true := by rw [XDesc.usesSrc, hop]; rfl
  have not_wback : ¬ d.op = 2 := by rw [hop]; decide
  rw [State.moveXfer, if_neg not_wback, uses, Bool.true_and, if_pos hop]

theorem moveXfer_copy (hop : d.op = 0) :
    e.moveXfer c own d = if e.isRemote d.sspace d.srcExt then e.readPieces c own d d.pieces else e.moveToDest c own d := by
  have uses : d.usesSrc = true := by rw [XDesc.usesSrc, hop]; rfl
  have not_wback : ¬ d.op = 2 := by rw [hop]; decide
  have not_warm : ¬ d.op = 3 := by rw [hop]; decide
  rw [State.moveXfer, if_neg not_wback, uses, Bool.true_and, if_neg not_warm]

theorem moveXfer_fill (hop : d.op = 1) : e.moveXfer c own d = e.moveToDest c own d := by
  have uses : d.usesSrc = false := by rw [XDesc.usesSrc, hop]; rfl
  have not_wback : ¬ d.op = 2 := by rw [hop]; decide
  have not_warm : ¬ d.op = 3 := by rw [hop]; decide
  rw [State.moveXfer, if_neg not_wback, uses, Bool.false_and, if_neg Bool.false_ne_true, if_neg not_warm]

end

/-- Settles O16: the four commands share how the slot issues; each then moves as its operation says.
The order of faults, the data moved at issue and the free bytes of an overlap are the model's choices (logs 6, 26 and 42). -/
theorem transfersEnter : Obligations.TransfersEnter := by
  intro s c g rs post runs k d own a e each
  refine ⟨issueXfer_cases runs, issueXfer_cases runs, issueXfer_cases runs, issueXfer_cases runs, fun h hok hn => ?_⟩
  have copy (hop : d.op = 0) : exec (.xferCopy c g rs post) s = .next (e.moveXfer c own d) := issueXfer_moves hop h hok hn
  have fill (hop : d.op = 1) : exec (.xferFill c g rs post) s = .next (e.moveXfer c own d) := issueXfer_moves hop h hok hn
  have wback (hop : d.op = 2) : exec (.xferWback c g rs post) s = .next (e.moveXfer c own d) := issueXfer_moves hop h hok hn
  have warm (hop : d.op = 3) : exec (.xferWarm c g rs post) s = .next (e.moveXfer c own d) := issueXfer_moves hop h hok hn
  clear_value e own d
  refine ⟨fun hop => ?_, fun hop => ?_, fun hop => ?_, fun hop => ?_⟩
  · rw [wback hop, moveXfer_wback e c own hop]
  · rw [warm hop, moveXfer_warm e c own hop]
  · rw [copy hop, moveXfer_copy e c own hop]; rfl
  · rw [fill hop, moveXfer_fill e c own hop]; rfl

end Sys2Proof.Machine
end

section
/-! SUPPORT. Errors of core stores, hangs and stalls of cores, errors of memory. -/

namespace Sys2Proof.Machine

/-! ## Errors of core stores and of memory -/

section
variable {s : State} {c : CoreId}

theorem execStoreEcc_on (hon : s.coreOn c = true) (w : Nat) (passes : Bool) :
    execStoreEcc c w passes s =
      let t : State := { s with ras := { s.ras with csUe := s.ras.csUe + 1 } }
      let t := if s.cores[c].ctl.run then t.eccFault c else t
      let u := t.updCore c fun y =>
        { y with store := storePut y.store (16 * (w % (storeBytes / 16))) (List.replicate 16 0), ctl := { y.ctl with ueStep := y.ctl.ueStep + 1 } }
      .next (if passes = false ∨ 0 < s.cores[c].ctl.ueStep then u.fence c true 466
        else match s.cores[c].ctl.item with
          | none => u
          | some i => if i.norestart || s.cores[c].cmb.sentAny then u.failStep 466
            else let v := u.withCore c u.cores[c].endAbrupt.sendTel
              { v with job := { v.job with moved := v.job.moved ++ [(c.val, i)] } }) := by
  have test : (!passes || decide (0 < s.cores[c].ctl.ueStep)) = true ↔ passes = false ∨ 0 < s.cores[c].ctl.ueStep := by simp
  unfold execStoreEcc
  simp only [onlyIf_of_true hon, test]
  split
  case isTrue again => rfl
  case isFalse first =>
    cases s.cores[c].ctl.item with
    | none => rfl
    | some i => dsimp only; split <;> rfl

theorem execCoreHang_running (hon : s.coreOn c = true) (hrun : s.cores[c].ctl.run = true) :
    execCoreHang c s = .next ((s.updCore c fun y => { y with ctl := { y.ctl with hung := true } }).fence c false 466) :=
  onlyIf_of_true (by rw [hon, hrun]; rfl)

theorem execCoreStall_waiting (hon : s.coreOn c = true) (hrun : s.cores[c].ctl.run = true) (hwait : s.cores[c].ctl.waiting = true) (sem : SemId) :
    execCoreStall c sem s = .next ((s.event (qpProc (s.dispatchQp (vatOf c))) 13 2
      [s.cores[c].ctl.vcid.toNat, sem.val, s.cores[c].regs.pc, (Config.fresh s.free).toNat]).drawn 1) :=
  onlyIf_of_true (by rw [hon, hrun, hwait]; rfl)

/-- The state in which a corrected core-store error has been counted (R466). -/
def State.csCounted (s : State) (c : CoreId) : State :=
  ({ s with ras := { s.ras with csCe := s.ras.csCe + 1 } } : State).updCore c fun y => { y with ctl := { y.ctl with ceTotal := y.ctl.ceTotal + 1 } }

theorem execCsCorrectedError_within (hon : s.coreOn c = true) : execCsCorrectedError c false s = .next (s.csCounted c) := onlyIf_of_true hon

theorem execCsCorrectedError_past (hon : s.coreOn c = true) :
    execCsCorrectedError c true s = .next (if c.val ∈ s.job.fenceDue then s.csCounted c
      else { s.csCounted c with job := { s.job with fenceDue := s.job.fenceDue ++ [c.val] } }) := by
  unfold execCsCorrectedError
  rw [onlyIf_of_true hon]
  by_cases due : c.val ∈ s.job.fenceDue <;> simp [due, State.csCounted]

theorem csCounted_ceTotal : ((s.csCounted c).cores[c]).ctl.ceTotal = s.cores[c].ctl.ceTotal + 1 := by
  rw [State.csCounted, State.updCore_same]

/-- A corrected error counts, and beyond the threshold the core is due for a fence. -/
theorem execCsCorrectedError_on (hon : s.coreOn c = true) (past : Bool) :
    ∃ t, execCsCorrectedError c past s = .next t ∧ t.ras.csCe = s.ras.csCe + 1 ∧ (t.cores[c]).ctl.ceTotal = s.cores[c].ctl.ceTotal + 1 ∧
      (past = true → c.val ∈ t.job.fenceDue) ∧ (past = false → t.job.fenceDue = s.job.fenceDue) := by
  cases past with
  | false => exact ⟨_, execCsCorrectedError_within hon, rfl, csCounted_ceTotal, nofun, fun _ => rfl⟩
  | true =>
    refine ⟨_, execCsCorrectedError_past hon, ?_⟩
    split
    case isTrue due => exact ⟨rfl, csCounted_ceTotal, fun _ => due, nofun⟩
    case isFalse new => exact ⟨rfl, csCounted_ceTotal, fun _ => List.mem_append_right _ (List.mem_singleton_self _), nofun⟩

theorem execHbmCorrectedError_live {pc : Fin 1024} (hrun : s.running = true) (hlive : s.mem.isRetired pc.val = false) (past : Bool) :
    execHbmCorrectedError pc past s =
      let t : State := { s with ras := { s.ras with hbmCe := s.ras.hbmCe + 1 } }
      .next (if past then t.markChannel pc.val 1 else t) :=
  onlyIf_of_true (by rw [hrun, hlive]; rfl)

theorem execHbmUncorr_hbm {addr kind : Nat} {dom : Nat} (hrun : s.running = true) (hp : s.place addr = .hbm kind dom) :
    execHbmUncorr addr s =
      let m := { s.mem with uncorr := (addr / 128) :: s.mem.uncorr.filter (· ≠ addr / 128) }
      let ch := m.channelAt dom addr
      let ue := if s.ras.pcUe.contains (ch, addr / 256) then s.ras.pcUe else s.ras.pcUe ++ [(ch, addr / 256)]
      let t : State := { s with mem := m, ras := { s.ras with hbmUe := s.ras.hbmUe + 1, pcUe := ue } }
      .next ((if s.ras.pcUe.any fun x => x.1 = ch && x.2 ≠ addr / 256 then t.markChannel ch 0 else t).uncorrEffect kind addr) := by
  unfold execHbmUncorr
  rw [hp]
  exact onlyIf_of_true hrun

theorem execHbmUncorr_cave {addr : Nat} {p : CaveId} (hrun : s.running = true) (hp : s.place addr = .cave p) :
    execHbmUncorr addr s =
      let m := { s.mem with uncorr := (addr / 128) :: s.mem.uncorr.filter (· ≠ addr / 128) }
      let t : State := { s with mem := m, cave := { s.cave with poison := s.cave.poison + 1 } }
      .next (t.uncorrEffect (t.caveKind addr) addr) := by
  unfold execHbmUncorr
  rw [hp]
  exact onlyIf_of_true hrun

end

/-- Settles O18: each event by the state of the core, or by the place of the line. -/
theorem coreErrorEvents : Obligations.CoreErrorEvents := by
  intro s c k
  exact ⟨fun w passes hon => execStoreEcc_on hon w passes, execCoreHang_running, fun sem hon hrun hwait => execCoreStall_waiting hon hrun hwait sem,
    fun hon past => execCsCorrectedError_on hon past, fun pc past hrun hlive => execHbmCorrectedError_live hrun hlive past,
    fun addr hrun => ⟨fun kind dom hp => execHbmUncorr_hbm hrun hp, fun p hp => execHbmUncorr_cave hrun hp⟩⟩

end Sys2Proof.Machine
end

section
/-! SUPPORT. Work items: their dispatch and their end. -/

namespace Sys2Proof.Machine

/-! ## The life of a work item -/

/-- A scalar register is read from the scalar registers alone. -/
theorem CoreRegs.sget_congr {r q : CoreRegs} (h : r.s = q.s) (i : SReg) : r.sget i = q.sget i := by
  simp only [CoreRegs.sget, h]

section
variable (x : Core) (w : WorkItem) (vcount : Nat) (epoch step : W64) (round : Bool) (seed : W64)

/-- Registers s1 to s4 hold what R75 names, every other 0. -/
theorem startItem_sget (r : SReg) :
    (x.startItem w vcount epoch step round seed).regs.sget r =
      if r = 4 then step else if r = 3 then BitVec.ofNat 64 vcount else if r = 2 then BitVec.ofNat 64 w.vcid
      else if r = 1 then w.argAddr.setWidth 64 else 0#64 := by
  have written : (x.startItem w vcount epoch step round seed).regs.s =
      ((((CoreRegs.zero.sset 1 (w.argAddr.setWidth 64)).sset 2 (BitVec.ofNat 64 w.vcid)).sset 3 (BitVec.ofNat 64 vcount)).sset 4 step).s := rfl
  have zeros : CoreRegs.zero.sget r = 0#64 := by simp [CoreRegs.sget, CoreRegs.zero]
  simp [CoreRegs.sget_congr written, CoreRegs.sget_sset, zeros]

theorem startItem_sem (i : SemId) :
    (x.startItem w vcount epoch step round seed).regs.sem[i] = if i.val < 40 then 0#16 else x.regs.sem[i] :=
  Vector.getElem_ofFn ..

/-- Instruction memory with the image of an item loaded, unless it is resident (R73). -/
def Core.loadImage (y : Core) (w : WorkItem) : Core :=
  if y.imem.image = some w.image then y
  else { y with imem := ⟨Cells.putDense [] 0 w.bundles, w.bundles.length, [], some w.image, false⟩ }

theorem loadImage_image (y : Core) : (y.loadImage w).imem.image = some w.image := by
  unfold Core.loadImage
  split
  case isTrue resident => exact resident
  case isFalse => rfl

/-- Loading an image writes the instruction memory alone. -/
theorem loadImage_frame (y : Core) : y.loadImage w = { y with imem := (y.loadImage w).imem } := by
  unfold Core.loadImage
  split <;> rfl

end

section
variable {s : State} {c : CoreId}

/-- An idle core in service, of a job that runs, may be given an item of a VCID (R74 to R76). -/
theorem execWorkItemDispatch_idle {w : WorkItem} (hon : s.vcoreOn = true) (hprot : s.pwr.protect = none) (hen : s.cores[c].ctl.enabled = true)
    (hfen : s.cores[c].ctl.fenced = false) (hhung : s.cores[c].ctl.hung = false) (hrun : s.cores[c].ctl.run = false) (hjob : s.job.state = 2)
    (hstop : s.job.stopDispatch = false) (hdie : s.ras.dieResetting ≠ some (vatOf c).val)
    (hproc : s.procUp (qpProc (s.dispatchQp (vatOf c))) = true) (hmay : s.mayRun c w.vcid = true) :
    execWorkItemDispatch c w s =
      let u : State := { s with pwr := { s.pwr with gated := s.pwr.gated.set (vatOf c) false },
                                job := { s.job with moved := s.job.moved.filter fun m => !(m.1 = c.val && m.2.id = w.id) } }
      let v := if s.cores[c].ctl.standIn = some w.vcid then u.swapMailbox c (u.ownVcid c) w.vcid else u
      let seed := ((s.job.cfg.map (·.seed)).getD 0) ^^^ BitVec.ofNat 64 (w.vcid * 0x9e3779b9)
      .next (v.setCore c ((v.cores[c].startItem w v.job.vcids.length v.job.mapEpoch v.job.step ((s.job.cfg.map (·.round)).getD false) seed).loadImage w)) := by
  unfold execWorkItemDispatch
  exact onlyIf_of_true (by simp [-Fin.getElem_fin, hon, hprot, hen, hfen, hhung, hrun, hjob, hstop, hdie, hproc, hmay])

theorem execWorkItemEnd_fault (hon : s.coreOn c = true) (hrun : s.cores[c].ctl.run = true) (hfault : s.cores[c].ctl.fault = true) :
    execWorkItemEnd c s = .next (s.closeItem c s.cores[c].endAbrupt) := by
  have live : (s.coreOn c && s.cores[c].ctl.run) = true := by rw [hon, hrun]; rfl
  simp only [execWorkItemEnd, onlyIf_of_true live, hfault, if_true]

theorem execWorkItemEnd_running (hon : s.coreOn c = true) (hrun : s.cores[c].ctl.run = true) (hfault : s.cores[c].ctl.fault = false)
    (hhalt : s.cores[c].ctl.halting = false) : execWorkItemEnd c s = .next s := by
  have live : (s.coreOn c && s.cores[c].ctl.run) = true := by rw [hon, hrun]; rfl
  simp only [execWorkItemEnd, onlyIf_of_true live, hfault, hhalt, Bool.not_false, Bool.false_eq_true, if_true, if_false]

/-- A halted item of which only the flush of its end is left ends when that flush has been answered (R227). -/
theorem execWorkItemEnd_flush {o : Op} {f : FlushOp} (hon : s.coreOn c = true) (hrun : s.cores[c].ctl.run = true)
    (hfault : s.cores[c].ctl.fault = false) (hhalt : s.cores[c].ctl.halting = true) (hch : s.cores[c].vec.chains = [])
    (hpass : s.cores[c].arr.passes = []) (hload : s.cores[c].arr.loads = []) (hops : s.cores[c].ops = [o]) (hb : o.body = .flush f)
    (hauto : f.auto = true) :
    execWorkItemEnd c s = if f.pend = 0 then
        let t := s.finishFlush c o f
        let x := t.cores[c]
        .next (t.closeItem c { x with
          ctl := { x.ctl with run := false, waiting := false, halting := false, item := none },
          seg := { SegSt.zero with id := x.seg.id }, arr := { x.arr with warm := false }, cmb := { x.cmb with discard := 0 } })
      else .next s := by
  have live : (s.coreOn c && s.cores[c].ctl.run) = true := by rw [hon, hrun]; rfl
  have idle : (s.cores[c].vec.chains.isEmpty && s.cores[c].arr.passes.isEmpty && s.cores[c].arr.loads.isEmpty) = true := by
    rw [hch, hpass, hload]; rfl
  simp only [execWorkItemEnd, onlyIf_of_true live, hfault, hhalt, idle, hops, hb, hauto, Bool.not_true, Bool.true_and, decide_eq_true_eq,
    Bool.false_eq_true, if_false]

end

/-- Settles O21: a dispatch starts the item on the core that holds its mailbox; an end by fault, and by halt.
What remains in flight at the end of an item is the model's choice (logs 20 and 35). -/
theorem workItemLifecycle : Obligations.WorkItemLifecycle := by
  intro s c k
  refine ⟨fun w hon hprot hen hfen hhung hrun hjob hstop hdie hproc hmay => ?_,
    fun hon hrun hfault => ⟨execWorkItemEnd_fault hon hrun hfault, rfl, rfl, rfl, rfl⟩,
    fun hon hrun hfault hhalt => execWorkItemEnd_running hon hrun hfault hhalt,
    fun o f hon hrun hfault hhalt hch hpass hload hops hb hauto => ⟨fun some_pend => ?_, fun none_pend => ?_⟩⟩
  · intro u v seed y z
    refine ⟨execWorkItemDispatch_idle hon hprot hen hfen hhung hrun hjob hstop hdie hproc hmay, ?_⟩
    have image : z.imem.image = some w.image := loadImage_image w y
    have frame : z = { y with imem := z.imem } := loadImage_frame w y
    have own_mailbox : k.ctl.standIn ≠ some w.vcid → v = u := fun h => if_neg h
    clear_value z
    generalize z.imem = im at frame image
    subst frame
    have sget (r : SReg) := startItem_sget v.cores[c] w v.job.vcids.length v.job.mapEpoch v.job.step ((s.job.cfg.map (·.round)).getD false) seed r
    have sem (i : SemId) := startItem_sem v.cores[c] w v.job.vcids.length v.job.mapEpoch v.job.step ((s.job.cfg.map (·.round)).getD false) seed i
    refine ⟨rfl, rfl, rfl, rfl, image, sget 1, sget 2, sget 3, sget 4, sget 5, fun r l => rfl, fun i hi => (sem i).trans (if_pos hi),
      fun i hi => (sem i).trans (if_neg (Nat.not_lt.mpr hi)), rfl, rfl, fun h => ?_⟩
    rw [own_mailbox h]
    exact ⟨rfl, rfl, rfl, rfl⟩
  · rw [exec_workItemEnd, execWorkItemEnd_flush hon hrun hfault hhalt hch hpass hload hops hb hauto, if_neg (by omega)]
  · rw [exec_workItemEnd, execWorkItemEnd_flush hon hrun hfault hhalt hch hpass hload hops hb hauto, if_pos none_pend]

end Sys2Proof.Machine
end

section
/-! SUPPORT. The chains of the vector engine: what a start comes to, and which started chain ends. -/

namespace Sys2Proof.Machine

/-! ## The start and the end of a chain -/

/-- While no chain's turn has come, nothing can start (R120). -/
theorem chainStart_of_no_next {k : Core} {env : CoreEnv} (h : k.nextChain = none) : k.chainStart env = .none := by
  unfold Core.chainStart
  rw [h]

/-- The chain that ends is a queued chain that has started, whatever the free choice among them (R121, log 100). -/
theorem endingChain_of_started {k : Core} (h : ∃ ch ∈ k.vec.chains, ch.out.isSome = true) (fr : Nat) :
    ∃ ch o, ch ∈ k.vec.chains ∧ k.endingChain fr = some ch ∧ ch.out = some o := by
  obtain ⟨ch, queued, started⟩ := h
  have some_started : 0 < (k.vec.chains.filter fun x => x.out.isSome).length :=
    List.length_pos_of_mem (List.mem_filter.mpr ⟨queued, started⟩)
  have chosen := List.getElem?_eq_getElem (Nat.mod_lt (Config.fresh fr).toNat some_started)
  obtain ⟨ends_queued, ends_started⟩ := List.mem_filter.mp (List.mem_of_getElem? chosen)
  obtain ⟨o, out⟩ := Option.isSome_iff_exists.mp ends_started
  exact ⟨_, o, ends_queued, chosen, out⟩

theorem endingChain_of_none_started {k : Core} (h : ∀ ch ∈ k.vec.chains, ch.out = none) (fr : Nat) : k.endingChain fr = none := by
  have none_started : (k.vec.chains.filter fun x => x.out.isSome) = [] :=
    List.filter_eq_nil_iff.mpr fun ch queued => by simp [h ch queued]
  simp only [Core.endingChain, none_started, List.getElem?_nil]

section
variable {s : State} {c : CoreId}

/-- A core that runs and has not faulted takes the fault of its chain; another keeps the state its first fault left (R79, R127). -/
theorem chainFault_eq (pc : Nat) (x : Core) :
    s.chainFault c pc x = if x.ctl.fault = false ∧ x.ctl.run = true then (s.setCore c x).coreFault c fIllegal pc else s.setCore c x := by
  unfold State.chainFault
  cases x.ctl.fault <;> cases x.ctl.run <;> rfl

theorem execChainStart_started {x : Core} (hclk : s.coreClocked c = true) (h : s.cores[c].chainStart (s.env c) = .started x) :
    execChainStart c s = .next ((s.setCore c x).drawn freeStep) := by
  simp only [execChainStart, onlyIf_of_true hclk, h]

theorem execChainStart_illegal {pc : Nat} {x : Core} (hclk : s.coreClocked c = true) (h : s.cores[c].chainStart (s.env c) = .illegal pc x) :
    execChainStart c s = .next (s.chainFault c pc x) := by
  simp only [execChainStart, onlyIf_of_true hclk, h]

theorem execChainStart_none (hclk : s.coreClocked c = true) (h : s.cores[c].chainStart (s.env c) = .none) :
    execChainStart c s = .next s := by
  simp only [execChainStart, onlyIf_of_true hclk, h]

/-- A started chain that ends writes its outputs, free ones where an undefined case reaches them, and posts (R63, R121, log 43). -/
theorem execChainComplete_ends {ch : Chain} {o : ChainOut} (hclk : s.coreClocked c = true) (hend : s.cores[c].endingChain s.free = some ch)
    (hout : ch.out = some o) :
    execChainComplete c s =
      let o' := if ch.spoilt then o.wild s.free else o
      .next (((s.withCore c ((s.cores[c].writeAll s.free ch.seq o'.stores).chainFinish ch o')).drawn freeStep).completionPost c ch.post) := by
  simp only [execChainComplete, onlyIf_of_true hclk, hend, hout]

theorem execChainComplete_none (hclk : s.coreClocked c = true) (hend : s.cores[c].endingChain s.free = none) :
    execChainComplete c s = .next s := by
  simp only [execChainComplete, onlyIf_of_true hclk, hend]

end

/-- Settles O11: a start by what the queued chain comes to, a completion by whether some chain of the queue has started.
Which of several started chains ends is free (log 100). -/
theorem chainEvents : Obligations.ChainEvents := by
  intro s c hclk k
  refine ⟨fun x hx => execChainStart_started hclk hx, fun pc x hx => ?_,
    fun hnext => execChainStart_none hclk (chainStart_of_no_next hnext), fun hstarted => ?_,
    fun hidle => execChainComplete_none hclk (endingChain_of_none_started hidle s.free)⟩
  · rw [exec_chainStart, execChainStart_illegal hclk hx, chainFault_eq]
    rfl
  · obtain ⟨ch, o, queued, ends, out⟩ := endingChain_of_started hstarted s.free
    exact ⟨ch, o, queued, ends, out, execChainComplete_ends hclk ends out⟩

end Sys2Proof.Machine
end

section
/-! SUPPORT. The mailbox: how a request that passes the checks is served, and what each opcode that answers at once comes to. -/

namespace Sys2Proof.Machine

/-! ## The service of a request -/

section
variable {s : State} {ch : Chan} {m : MbxReq} {cfg : Option JobConfig}

/-- A request that the MP serves now meets no held response, and neither processor it needs is down (R400, R401, R407). -/
theorem serve_of_servesMail (h : s.servesMail ch m) : s.serve ch m cfg = s.mbServe ch m cfg := by
  obtain ⟨-, mp_up, mp_free, sp_ready, fresh⟩ := h
  have sp_there : (needsSp m && !s.procUp procSP && !s.procHeld procSP) = false := by
    cases needed : needsSp m
    · rfl
    · rcases sp_ready needed with h | h <;> simp [h]
  cases ch with
  | host =>
    cases last : s.mbx.lastHost with
    | none => simp [State.serve, last, mp_up, mp_free, sp_there]
    | some r => simp [State.serve, last, fresh r last, mp_up, mp_free, sp_there]
  | mgmt =>
    cases last : s.mbx.lastMgmt with
    | none => simp [State.serve, last, mp_up, mp_free, sp_there]
    | some r => simp [State.serve, last, fresh r last, mp_up, mp_free, sp_there]

/-- A request that passes the checks answers by its opcode, when that is not one that is accepted (R406 to R410, R507). -/
theorem mbServe_of_passesMail (h : s.passesMail ch m cfg) (hquick : acceptingOp m.op = false) :
    s.mbServe ch m cfg = (s.quickOp m).2.2.reply' ch m (s.quickOp m).1 (s.quickOp m).2.1 := by
  obtain ⟨-, version, length, granted, attached, permitted⟩ := h
  have not_denied : (ch = .mgmt && (m.op = 0x0002 || m.op = 0x0015 || m.op = 0x0016)) = false := by
    simpa [mailDenied, and_assoc] using granted
  have in_session : (ch = .host && !s.hif.attached && !noSession m.op) = false := by
    simpa [State.mailUnattached] using attached
  simp only [State.mbServe, version, length, not_denied, in_session, permitted, hquick, ne_eq, not_true_eq_false, Bool.not_true,
    Bool.not_false, Bool.false_eq_true, if_false, if_true]

/-- The row of an opcode that answers at once: the answer that the opcode comes to (R409). -/
theorem mbRow_of_passesMail {op : Nat} (h : s.passesMail ch m none) (hop : m.op = op) (hquick : acceptingOp op = false) {st : Nat}
    {bs : List Byte} {t : State} (hanswer : s.quickOp m = (st, bs, t)) : s.mbRow op ch m none = .next (t.reply' ch m st bs) := by
  obtain ⟨up, -⟩ := h.1
  rw [State.mbRow, onlyIf_of_true (by simp [hop, up]), serve_of_servesMail h.1, mbServe_of_passesMail h (hop ▸ hquick), hanswer]

end

/-! ## What an opcode that answers at once comes to -/

section
variable {s : State} {m : MbxReq}

theorem quickOp_getInfo (h : m.op = 0x0001) : s.quickOp m = (mbOk, s.infoBytes, s) := by simp only [State.quickOp, h]

theorem quickOp_jobStatus (h : m.op = 0x0014) : s.quickOp m = (mbOk, s.jobBytes, s) := by simp only [State.quickOp, h]

theorem quickOp_logInfo (h : m.op = 0x0031) :
    s.quickOp m = (mbOk, toLe 8 s.log.base ++ toLe 8 s.log.head ++ toLe 8 s.log.suppressed.toNat, s) := by simp only [State.quickOp, h]

theorem quickOp_attach (h : m.op = 0x0002) {st : Nat} {t : State} (hattach : s.attachSession (BitVec.ofNat 64 (m.fld 0 8)) = (st, t)) :
    s.quickOp m = (st, if st = mbOk then toLe 8 t.hif.session.toNat else [], t) := by simp only [State.quickOp, h, hattach]

theorem quickOp_opStatus_known (h : m.op = 0x0003) {bs : List Byte} (hbs : s.opBytes (m.fld 0 4) (m.fld 4 4) = some bs) :
    s.quickOp m = (mbOk, bs, s) := by simp only [State.quickOp, h, hbs]

theorem quickOp_opStatus_unknown (h : m.op = 0x0003) (hnone : s.opBytes (m.fld 0 4) (m.fld 4 4) = none) :
    s.quickOp m = (mbArg, [], s) := by simp only [State.quickOp, h, hnone]

theorem quickOp_promoReset_layer (h : m.op = 0x0018) {t : State} (ht : s.promoResetOf (m.fld 0 2) = some t) :
    s.quickOp m = (mbOk, [], t) := by simp only [State.quickOp, h, ht]

theorem quickOp_promoReset_none (h : m.op = 0x0018) (hnone : s.promoResetOf (m.fld 0 2) = none) :
    s.quickOp m = (mbArg, [], s) := by simp only [State.quickOp, h, hnone]

theorem quickOp_traceSet_range (h : m.op = 0x0030) {t : State} (ht : s.setTrace (m.fld 0 2) (m.fld 2 2) (bit (m.fld 4 4) 0) = some t) :
    s.quickOp m = (mbOk, [], t) := by simp only [State.quickOp, h, ht]

theorem quickOp_traceSet_none (h : m.op = 0x0030) (hnone : s.setTrace (m.fld 0 2) (m.fld 2 2) (bit (m.fld 4 4) 0) = none) :
    s.quickOp m = (mbArg, [], s) := by simp only [State.quickOp, h, hnone]

theorem quickOp_logMark (h : m.op = 0x0032) :
    s.quickOp m = (mbOk, s.logMarkOf (BitVec.ofNat 64 (m.fld 0 8)) (m.fld 8 24)) := by simp only [State.quickOp, h]

/-! ### ATTACH (R391) -/

section
variable {id : W64}

theorem attachSession_new (hid : id = 0) (hsp : s.procHeld procSP = false) :
    s.attachSession id = (mbOk, (s.message procMP procSP).newSession.message procSP procMP) := by
  simp only [State.attachSession, if_pos hid, hsp, Bool.false_eq_true, if_false]

theorem attachSession_new_held (hid : id = 0) (hsp : s.procHeld procSP = true) : s.attachSession id = (mbFailed, s) := by
  simp only [State.attachSession, if_pos hid, if_pos hsp]

theorem attachSession_foreign (hid : id ≠ 0) (hother : id ≠ s.hif.session) : s.attachSession id = (mbSession, s) := by
  simp only [State.attachSession, if_neg hid, if_pos hother]

theorem attachSession_detached (hid : id ≠ 0) (hsame : id = s.hif.session) (hdet : s.hif.attached = false) :
    s.attachSession id = (mbOk, s.resumeSession) := by
  simp only [State.attachSession, if_neg hid, if_neg (not_not.mpr hsame), hdet, Bool.false_eq_true, if_false]

theorem attachSession_attached (hid : id ≠ 0) (hsame : id = s.hif.session) (hatt : s.hif.attached = true) :
    s.attachSession id = (mbOk, s) := by
  simp only [State.attachSession, if_neg hid, if_neg (not_not.mpr hsame), if_pos hatt]

end

/-! ### PROMO_RESET (R156) -/

theorem promoResetOf_layer {l : Nat} (h : l < 4096 ∨ l = 0xffff) :
    let t : State := { s with job := { s.job with promoReset := s.job.promoReset ++ if l = 0xffff then List.range 4096 else [l] } }
    s.promoResetOf l = some (if s.job.phase = 0 then t.resetPromo else t) := by
  have exists_layer : (4096 ≤ l && l ≠ 0xffff) = false := by simp; omega
  simp only [State.promoResetOf, exists_layer, Bool.false_eq_true, if_false]

theorem promoResetOf_no_layer {l : Nat} (h : 4096 ≤ l) (hall : l ≠ 0xffff) : s.promoResetOf l = none := by
  simp [State.promoResetOf, h, hall]

/-! ### TRACE_SET (R413) -/

/-- Bit `i` of a word set or cleared. -/
def putBit (on : Bool) (x : W64) (i : Nat) : W64 := if on then x ||| BitVec.ofNat 64 (2 ^ i) else x &&& ~~~(BitVec.ofNat 64 (2 ^ i))

theorem getLsbD_putBit (on : Bool) (x : W64) (i : Nat) {j : Nat} (hj : j < 64) :
    (putBit on x i).getLsbD j = if i = j then on else x.getLsbD j := by
  have one_bit : (BitVec.ofNat 64 (2 ^ i)).getLsbD j = decide (i = j) := by
    rw [BitVec.getLsbD_ofNat, Nat.testBit_two_pow, decide_eq_true hj, Bool.true_and]
  have put : (putBit on x i).getLsbD j = if on then x.getLsbD j || decide (i = j) else x.getLsbD j && !decide (i = j) := by
    cases on
    · simp only [putBit, Bool.false_eq_true, if_false, BitVec.getLsbD_and, BitVec.getLsbD_not, one_bit, decide_eq_true hj, Bool.true_and]
    · simp only [putBit, if_true, BitVec.getLsbD_or, one_bit]
  rw [put]
  by_cases h : i = j <;> cases on <;> simp [h]

/-- Setting or clearing, one after the other, the bits of a list that `p` picks. -/
theorem getLsbD_foldl_putBit (on : Bool) (p : Nat → Bool) (l : List Nat) (x : W64) {j : Nat} (hj : j < 64) :
    (l.foldl (fun y i => if p i then putBit on y i else y) x).getLsbD j = if j ∈ l ∧ p j = true then on else x.getLsbD j := by
  induction l generalizing x with
  | nil => simp
  | cons i l ih =>
    have first : (if p i then putBit on x i else x).getLsbD j = if j = i ∧ p j = true then on else x.getLsbD j := by
      by_cases h : j = i
      · subst h
        by_cases hp : p j = true <;> simp only [hp, if_true, if_false, true_and, Bool.false_eq_true, getLsbD_putBit on x j hj]
      · by_cases hp : p i = true <;> simp only [hp, h, if_true, if_false, false_and, Bool.false_eq_true, getLsbD_putBit on x i hj, Ne.symm h]
    rw [List.foldl_cons, ih, first]
    by_cases h : j ∈ l <;> by_cases hp : p j = true <;> simp [h, hp]

/-- Word `w` of the trace points, `count` of them from `first` on set or cleared. -/
def traceWord (first count : Nat) (on : Bool) (x : W64) (w : Nat) : W64 :=
  (List.range 64).foldl (fun y i => if first ≤ 64 * w + i && 64 * w + i < first + count then putBit on y i else y) x

theorem getLsbD_traceWord (first count : Nat) (on : Bool) (x : W64) (w : Nat) (j : Fin 64) :
    (traceWord first count on x w).getLsbD j.val =
      if first ≤ 64 * w + j.val ∧ 64 * w + j.val < first + count then on else x.getLsbD j.val := by
  rw [traceWord, getLsbD_foldl_putBit on (fun i => first ≤ 64 * w + i && 64 * w + i < first + count) _ _ j.isLt]
  simp

theorem setTrace_range {first count : Nat} (on : Bool) (h : first + count ≤ 4096) :
    s.setTrace first count on =
      some { s with log := { s.log with trace := Vector.ofFn fun w : Fin 64 => traceWord first count on s.log.trace[w] w.val } } :=
  if_neg (Nat.not_lt.mpr h)

theorem setTrace_beyond {first count : Nat} (on : Bool) (h : 4096 < first + count) : s.setTrace first count on = none := if_pos h

end

/-- Settles O47: each opcode by what it comes to, ATTACH by the session it names, the others by whether what they name exists.
The layouts of payloads and answers are the model's choice (log 55). -/
theorem mailboxAnswers : Obligations.MailboxAnswers := by
  intro s ch m pass
  refine ⟨fun h => mbRow_of_passesMail pass h rfl (quickOp_getInfo h), fun h => mbRow_of_passesMail pass h rfl (quickOp_jobStatus h),
    fun h => mbRow_of_passesMail pass h rfl (quickOp_logInfo h), fun h => ?attach, fun h => ?opStatus, fun h => ?promoReset,
    fun h => ?traceSet, fun h => mbRow_of_passesMail pass h rfl (quickOp_logMark h)⟩
  case attach =>
    intro id
    have answers {st : Nat} {t : State} (hattach : s.attachSession id = (st, t)) :=
      mbRow_of_passesMail pass h rfl (quickOp_attach h hattach)
    refine ⟨fun hid hother => answers (attachSession_foreign hid hother),
      fun hid hsame hdet => answers (attachSession_detached hid hsame hdet), fun hid hsame hatt => ?_,
      fun hid hsp => answers (attachSession_new hid hsp), fun hid hsp => answers (attachSession_new_held hid hsp)⟩
    rw [hsame]
    exact answers (attachSession_attached hid hsame hatt)
  case opStatus =>
    exact ⟨fun bs hbs => mbRow_of_passesMail pass h rfl (quickOp_opStatus_known h hbs),
      fun hnone => mbRow_of_passesMail pass h rfl (quickOp_opStatus_unknown h hnone)⟩
  case promoReset =>
    exact ⟨fun hl => mbRow_of_passesMail pass h rfl (quickOp_promoReset_layer h (promoResetOf_layer hl)),
      fun hl hall => mbRow_of_passesMail pass h rfl (quickOp_promoReset_none h (promoResetOf_no_layer hl hall))⟩
  case traceSet =>
    refine ⟨fun hr => ⟨_, mbRow_of_passesMail pass h rfl (quickOp_traceSet_range h (setTrace_range _ hr)), fun k j => ?_⟩,
      fun hr => mbRow_of_passesMail pass h rfl (quickOp_traceSet_none h (setTrace_beyond _ hr))⟩
    simp only [Fin.getElem_fin, Vector.getElem_ofFn]
    exact getLsbD_traceWord _ _ _ _ _ j

end Sys2Proof.Machine
end

section
/-! SUPPORT. Memory, the end of a transfer, the commit of the memory configuration and the end of a window, packets of the fabric. -/

namespace Sys2Proof.Machine

/-! ## A byte of memory after a write -/

section
variable {m : MemSt} {a b : Nat} {bs : List Byte}

/-- What a byte reads as depends on the module's memory alone, so the laws of a write ask for nothing of the host's. -/
theorem byteAt_write_host (host : Memory) : (({ m with host := host } : MemSt).write a bs).byteAt b = (m.write a bs).byteAt b := rfl

theorem wf_without_host (hwf : Cells.wf m.bytes = true) : ({ m with host := [] } : MemSt).wf = true := Bool.and_eq_true_iff.mpr ⟨hwf, rfl⟩

theorem byteAt_write_inside {i : Nat} (hwf : Cells.wf m.bytes = true) (hi : i < bs.length) : (m.write a bs).byteAt (a + i) = bs[i] := by
  rw [← byteAt_write_host []]
  exact MemSt.byteAt_write_in (wf_without_host hwf) hi

theorem byteAt_write_outside (hwf : Cells.wf m.bytes = true) (hb : b < a ∨ a + bs.length ≤ b) : (m.write a bs).byteAt b = m.byteAt b := by
  rw [← byteAt_write_host []]
  exact MemSt.byteAt_write_other (wf_without_host hwf) hb

/-- A write heals the lines that it covers whole, and no other (R166). -/
theorem mem_write_uncorr {l : Nat} :
    l ∈ (m.write a bs).uncorr ↔ l ∈ m.uncorr ∧ ¬ (a ≤ 128 * l ∧ 128 * l + 128 ≤ a + bs.length) := by
  have healed : (m.write a bs).uncorr = m.uncorr.filter fun l => !(a ≤ 128 * l && 128 * l + 128 ≤ a + bs.length) := rfl
  rw [healed, List.mem_filter, Bool.not_eq_true', ← Bool.not_eq_true, Bool.and_eq_true, decide_eq_true_eq, decide_eq_true_eq]

end

/-- Settles O26: a write cuts the undefined ranges and writes the cells of its bytes alone. -/
theorem memoryReadsWhatWasWritten : Obligations.MemoryReadsWhatWasWritten := by
  intro m a bs hwf
  refine ⟨?_, m.write_host a bs, fun i hi => byteAt_write_inside hwf hi, fun b hb => byteAt_write_outside hwf hb, fun l => mem_write_uncorr⟩
  rw [MemSt.write_bytes]
  exact write_wf hwf

/-! ## The end of a transfer -/

section
variable {s : State} {c : CoreId} {op : Nat} {o : Op} {raw : List Byte} {addr done code bad : Nat}

theorem execXferComplete_xfer (hon : s.storeOn c = true) (ho : s.cores[c].opAt op = some o) (hb : o.body = .xfer raw addr done code bad) :
    execXferComplete c op s =
      .next (if s.waitsNet c op || s.xferHeld c (XDesc.mk raw) then s else s.finishXfer c o raw addr done code bad) := by
  simp only [execXferComplete, onlyIf_of_true hon, onOp_of_opAt ho, hb]

/-- A transfer that ends well with no write-back and no status word leaves only its post. -/
theorem finishXfer_plain (hwb : (XDesc.mk raw).wb = false) (hcode : code = stOk) (hstatus : (XDesc.mk raw).statusw = false) :
    s.finishXfer c o raw addr done code bad = s.endOp c o := by
  simp only [State.finishXfer, hwb, hstatus, Bool.false_and, Bool.false_eq_true, if_false, if_pos hcode]

end

/-- Settles O17: the transfer waits for its requests and its links; else it finishes. -/
theorem transferCompletes : Obligations.TransferCompletes := by
  intro s c op o raw addr done code bad hon hen ho hb d
  have complete := execXferComplete_xfer (storeOn_of hon hen) ho hb
  have finish (hnet : s.waitsNet c op = false) (hlinks : s.xferHeld c d = false) :
      execXferComplete c op s = .next (s.finishXfer c o raw addr done code bad) := by
    rw [complete, hnet, hlinks]
    rfl
  refine ⟨fun waits => ?_, fun hnet hlinks => finish hnet hlinks, fun hnet hlinks hwb hcode hstatus => ?_⟩
  · rw [exec_xferComplete, complete, if_pos (Bool.or_eq_true_iff.mpr waits)]
  · rw [exec_xferComplete, finish hnet hlinks, finishXfer_plain hwb hcode hstatus]

/-! ## The commit of the memory configuration, the end of a counting window -/

section
variable {s : State}

theorem execMemCommit_on (hp : s.pwr.pstate ≤ 3) : execMemCommit s = .next (s.commitMem false) := onlyIf_of_true (decide_eq_true hp)

/-- The status of a commit that is not the job load's: a job loaded makes it BUSY (R168, R521). -/
def State.memStatus (s : State) : Nat := commitStatus s.mem.cfg.shadow s.mem.cfg.pinShadow s.mem.cfg.cap s.jobLoaded

theorem memStatus_eq :
    commitStatus s.mem.cfg.shadow s.mem.cfg.pinShadow s.mem.cfg.cap (s.jobLoaded && !false) = s.memStatus := by
  rw [Bool.not_false, Bool.and_true, State.memStatus]

/-- A commit that fails a check writes the status alone (R521). -/
theorem commitMem_refused (h : s.memStatus ≠ 0) :
    s.commitMem false = { s with mem := { s.mem with cfg := { s.mem.cfg with status := BitVec.ofNat 64 s.memStatus } } } := by
  rw [State.commitMem, memStatus_eq, if_pos h]

/-- A commit that passes the checks puts the shadow in force, and changes the memory alone (R168). -/
theorem commitMem_accepted (h : s.memStatus = 0) :
    let m := s.mem.cfg
    let t := s.commitMem false
    t.mem.cfg.table = m.shadow ∧ t.mem.cfg.pin = m.pinShadow ∧ t.mem.cfg.caveMask = m.caveShadow ∧ t.mem.cfg.status = 0 ∧
      t.cores = s.cores ∧ t.job = s.job ∧ t.fab = s.fab := by
  intro m t
  have applied : t = ({ s with mem := t.mem } : State).drawn 1 ∧
      t.mem.cfg = { m with table := m.shadow, pin := m.pinShadow, caveMask := m.caveShadow, status := 0 } := by
    simp only [t, State.commitMem, memStatus_eq, if_neg (not_not.mpr h)]
    exact ⟨rfl, rfl⟩
  obtain ⟨frame, cfg⟩ := applied
  clear_value t
  rw [cfg, frame]
  exact ⟨rfl, rfl, rfl, rfl, rfl, rfl, rfl⟩

/-- The counters of a Cellar as a window leaves them: HBM_IMBAL of the window, the others begun anew (R194). -/
def MemStat.nextWindow (w : MemStat) (ratio pc used : Nat) : MemStat :=
  { w with imbal := BitVec.ofNat 64 (ratio + 2 ^ 16 * pc + bitAt (decide (w.hotThr.toNat < ratio)) 24), win := w.winNext,
           ltagPeak := w.ltagNow, ltagNow := used, reqs := [] }

theorem execHbmWindowEnd_running (hrun : s.running = true) (n : CelId) (a b : Nat) :
    let w := s.mem.stat[n]
    let ratio := w.ratio (s.mem.liveChannels n.val).length a
    let pc := w.busyPc b
    let t : State := { s with mem := { s.mem with stat := s.mem.stat.set n (w.nextWindow ratio pc (s.fab.tagsUsed n.val)) } }
    execHbmWindowEnd n a b s = .next (if decide (w.hotThr.toNat < ratio) then t.event procMP 0 4 [n.val, ratio, pc] else t) :=
  onlyIf_of_true hrun

end

/-- Settles O25: the commit by its status, the window by its threshold.
What a window without requests reads is the model's choice (log 107). -/
theorem memoryConfigurationCommit : Obligations.MemoryConfigurationCommit := by
  intro s
  refine ⟨?commit, fun hrun n a b => execHbmWindowEnd_running hrun n a b⟩
  case commit =>
    intro m st hp
    refine ⟨fun refused => ?_, fun accepted => ⟨_, execMemCommit_on hp, commitMem_accepted accepted⟩⟩
    rw [exec_memCommit, execMemCommit_on hp, commitMem_refused refused]
    rfl

/-! ## Packets delivered -/

section
variable {s : State} {k : Nat} {p : Packet} {want : Msg → Bool} {f : State → Packet → Res}

/-- An undamaged packet of the kind asked for is taken out and handled. -/
theorem onDelivered_of_holdsPacket (h : s.holdsPacket k p) (hw : want p.msg = true) : s.onDelivered k want f = f (s.takeDeliv k) p := by
  obtain ⟨held, sound⟩ := h
  simp only [State.onDelivered, held, hw, sound, Bool.not_true, Bool.false_eq_true, if_false]

/-- What a command that takes a delivered packet does in a running module. -/
theorem running_takes_delivered (hrun : s.running = true) (h : s.holdsPacket k p) (hw : want p.msg = true) :
    onlyIf s.running s (fun s => s.onDelivered k want f) = f (s.takeDeliv k) p :=
  (onlyIf_of_true hrun).trans (onDelivered_of_holdsPacket h hw)

/-- A damaged packet is counted and not handled (R287). -/
theorem onDelivered_damaged (held : s.fab.deliv[k]? = some p) (bad : p.crcOk = false) (hw : want p.msg = true) :
    s.onDelivered k want f = .next (s.takeDeliv k).badPacket := by
  simp only [State.onDelivered, held, hw, bad, Bool.not_true, Bool.not_false, Bool.false_eq_true, if_false, if_true]

theorem onResponse_late (h : s.holdsPacket k p) (hw : want p.msg = true) (hnone : (s.takeDeliv k).fab.reqOf p = none) :
    s.onResponse k want = .next (s.takeDeliv k).lateResp := by
  simp only [State.onResponse, onDelivered_of_holdsPacket h hw, hnone]

theorem onResponse_known (h : s.holdsPacket k p) (hw : want p.msg = true) {r : NetReq} (hreq : (s.takeDeliv k).fab.reqOf p = some r) :
    s.onResponse k want = .next ((s.takeDeliv k).respondTo r p) := by
  simp only [State.onResponse, onDelivered_of_holdsPacket h hw, hreq]

end

/-! ## Forwarding, remote requests, responses, posts, detaches, time-outs -/

section
variable {s : State} {k : Nat} {p : Packet}

theorem execPacketForward_queued {i : Nat} (hon : s.fabricOn = true) (hq : s.fab.inq[k]? = some (i, p)) (hprom : p.msg.typ ≠ 0x38) :
    execPacketForward k s = .next ((s.takeInq k).forward i p) := by
  simp only [execPacketForward, onlyIf_of_true hon, hq, if_neg hprom]

theorem execRequestTimeout_waiting {r : NetReq} (hrun : s.running = true) (hreq : s.fab.reqs[k]? = some r) (hopen : r.done = false) :
    execRequestTimeout k s = .next (s.completeReq r stUnreach none true) := by
  simp only [execRequestTimeout, onlyIf_of_true hrun, hreq, hopen, Bool.false_eq_true, if_false]

/-- A delivered read is served, and each part of its data answered (R287, R288). -/
theorem execRdReq_delivered {a n : Nat} (hrun : s.running = true) (h : s.holdsPacket k p) (hmsg : p.msg = .rdReq a n) :
    execRdReq none k s =
      let r := (s.takeDeliv k).serveRead p.src a n
      .next (r.1.foldl (fun s x => s.route (p.respond s.fab.faddr.toNat x.2.1 (.rdResp x.1 x.2.2)) none) r.2) := by
  refine (running_takes_delivered hrun h (by rw [hmsg]; rfl)).trans ?_
  simp only [hmsg]

/-- A delivered write is applied and acknowledged (R287). -/
theorem execWr_delivered {a : Nat} {wb : Bool} {bs : List Byte} (hrun : s.running = true) (h : s.holdsPacket k p)
    (hmsg : p.msg = .wr a wb bs) :
    execWr none k s =
      let r := (s.takeDeliv k).serveWrite p.src a wb bs
      .next (r.2.2.wrAnswer none p r.1 r.2.1) := by
  refine (running_takes_delivered hrun h (by rw [hmsg]; rfl)).trans ?_
  simp only [hmsg]

section
variable {i : AccId} {u : State}

/-- The status of a partner die's read: of what R364 does not let it reach, that of an unmapped address. -/
def State.partnerReadStatus (u : State) (a n : Nat) : Nat := if u.partnerMay a n then u.readStatus .unit a n else stUnmapped

theorem partnerReadStatus_eq (u : State) (a n : Nat) :
    (if !u.partnerMay a n then stUnmapped else u.readStatus .unit a n) = u.partnerReadStatus a n := by
  cases may : u.partnerMay a n <;> simp [State.partnerReadStatus, may]

/-- A partner die's read, answered by its status (R364). -/
theorem execRdReq_partner {a n : Nat} (hrun : s.running = true) (htake : s.takeAcc i k = (some p, u)) (hmsg : p.msg = .rdReq a n) :
    execRdReq (some i) k s =
      let st := u.partnerReadStatus a n
      let v := if st = stUnmapped ∨ st = stCaveDown then u.accessRecord (whoPartner i.val) st (bits a 47 0) else u.touchLines a n
      .next (v.answerPartner i p st (.rdResp 0 []) (if st = stOk then v.readBytes a n else [])) := by
  simp only [execRdReq, onlyIf_of_true hrun, htake, hmsg, partnerReadStatus_eq, Bool.or_eq_true, decide_eq_true_eq]

/-- A partner die's write of what R364 lets it reach. -/
theorem execWr_partner_allowed {a : Nat} {wb : Bool} {bs : List Byte} (hrun : s.running = true) (htake : s.takeAcc i k = (some p, u))
    (hmsg : p.msg = .wr a wb bs) (hmay : u.partnerMay a bs.length = true) :
    execWr (some i) k s =
      let r := u.serveWrite (whoPartner i.val) a wb bs
      .next (r.2.2.wrAnswer (some i) p r.1 r.2.1) := by
  simp only [execWr, onlyIf_of_true hrun, htake, hmsg, hmay, Bool.not_true, Bool.false_eq_true, if_false]

theorem execWr_partner {a : Nat} {wb : Bool} {bs : List Byte} (hrun : s.running = true) (htake : s.takeAcc i k = (some p, u))
    (hmsg : p.msg = .wr a wb bs) :
    execWr (some i) k s =
      let r := u.serveWrite (whoPartner i.val) a wb bs
      .next (if u.partnerMay a bs.length then r.2.2.wrAnswer (some i) p r.1 r.2.1
        else (u.accessRecord (whoPartner i.val) stUnmapped (bits a 47 0)).wrAnswer (some i) p stUnmapped 0) := by
  cases hmay : u.partnerMay a bs.length
  · exact execWr_partner_denied hrun htake hmsg hmay
  · exact execWr_partner_allowed hrun htake hmsg hmay

end

/-- The commands that take a delivered packet of the types of reads, writes, posts and detaches (R287). -/
def TakesDelivered (k typ : Nat) (i : Instr) : Prop :=
  (typ, i) ∈ [(1, Instr.rdReq none k), (2, .rdResp k), (3, .wr none k), (4, .wrAck k), (5, .post k), (0x29, .detach k)]

/-- Each of them handles the delivered packet in its own way when that is of its type. -/
theorem exec_takes_delivered (hrun : s.running = true) {typ : Nat} {i : Instr} (hi : TakesDelivered k typ i) :
    ∃ f, exec i s = s.onDelivered k (fun m => m.typ = typ) f := by
  simp only [TakesDelivered, List.mem_cons, List.not_mem_nil, or_false, Prod.mk.injEq] at hi
  rcases hi with ⟨rfl, rfl⟩ | ⟨rfl, rfl⟩ | ⟨rfl, rfl⟩ | ⟨rfl, rfl⟩ | ⟨rfl, rfl⟩ | ⟨rfl, rfl⟩ <;> exact ⟨_, if_pos hrun⟩

theorem exec_damaged (hrun : s.running = true) (held : s.fab.deliv[k]? = some p) (bad : p.crcOk = false) {i : Instr}
    (hi : TakesDelivered k p.msg.typ i) : exec i s = .next (s.takeDeliv k).badPacket := by
  obtain ⟨f, handled⟩ := exec_takes_delivered hrun hi
  rw [handled, onDelivered_damaged held bad (decide_eq_true rfl)]

/-- The two commands that take a response, each of its own type (R287). -/
theorem exec_response {i : Instr} (hrun : s.running = true) (hi : p.msg.typ = 2 ∧ i = .rdResp k ∨ p.msg.typ = 4 ∧ i = .wrAck k) :
    exec i s = s.onResponse k fun m => m.typ = p.msg.typ := by
  rcases hi with ⟨kind, rfl⟩ | ⟨kind, rfl⟩ <;> rw [kind] <;> exact if_pos hrun

theorem execPost_delivered {v m n : Nat} (hrun : s.running = true) (h : s.holdsPacket k p) (hmsg : p.msg = .post v m n) :
    execPost k s = .next ((s.takeDeliv k).postVcid v m n).2 := by
  refine (running_takes_delivered hrun h (by rw [hmsg]; rfl)).trans ?_
  simp only [hmsg]

/-- The running multicast that a message identifier names (R306). -/
def State.multicastOf (t : State) (id : Nat) : Option Coll :=
  t.coll.colls.find? fun c => c.active && (64 * c.cseq + c.comm) % 65536 = id && (CDesc.mk c.desc).op = 6

/-- The source of a multicast sends a detached child what it lacks from an offset on; to itself, nothing (R306). -/
def State.sendCatchUp (t : State) (c : Coll) (off dir child : Nat) : State :=
  let fs := if child = t.fab.faddr.toNat then [] else (t.fragsFor c 0 0).filter fun f => off ≤ f.off
  fs.foldl (fun u f =>
    (u.readFrag c f).1.inject { (u.readFrag c f).1.fragPacket c child f (u.readFrag c f).2 with
      group := if dir = 0 then 0 else 65536 + (CDesc.mk c.desc).mcgrp }) t

theorem execDetach_none {id off dir child : Nat} (hrun : s.running = true) (h : s.holdsPacket k p) (hmsg : p.msg = .detach id off dir child)
    (hnone : (s.takeDeliv k).multicastOf id = none) : execDetach k s = .next (s.takeDeliv k) := by
  refine (running_takes_delivered hrun h (by rw [hmsg]; rfl)).trans ?_
  unfold State.multicastOf at hnone
  simp only [hmsg, hnone]

theorem execDetach_running {id off dir child : Nat} {c : Coll} (hrun : s.running = true) (h : s.holdsPacket k p)
    (hmsg : p.msg = .detach id off dir child) (hsome : (s.takeDeliv k).multicastOf id = some c) :
    execDetach k s = .next ((s.takeDeliv k).sendCatchUp c off dir child) := by
  refine (running_takes_delivered hrun h (by rw [hmsg]; rfl)).trans ?_
  unfold State.multicastOf at hsome
  simp only [hmsg, hsome]
  rfl

end

/-- Settles O34: each command by the packet it takes; the requests of partner dies by what R364 allows.
That a command names its packet by place, and that a partner's tags are free, are the model's choices (logs 73 and 68). -/
theorem fabricPackets : Obligations.FabricPackets := by
  intro s k
  refine ⟨fun i p hon hq hprom => execPacketForward_queued hon hq hprom, fun hrun => ?_⟩
  intro t
  refine ⟨fun p a n h hmsg => execRdReq_delivered hrun h hmsg, fun p a wb bs h hmsg => execWr_delivered hrun h hmsg,
    fun i p u a n htake hmsg => execRdReq_partner hrun htake hmsg, fun i p u a wb bs htake hmsg => execWr_partner hrun htake hmsg,
    fun p i h hi => ?response, fun p v m n h hmsg => execPost_delivered hrun h hmsg,
    fun p id off dir child h hmsg => ?detach, fun r hreq hopen => execRequestTimeout_waiting hrun hreq hopen,
    fun p held bad i hi kind => ?damaged⟩
  case response =>
    have wanted : decide (p.msg.typ = p.msg.typ) = true := decide_eq_true rfl
    rw [exec_response hrun hi]
    exact ⟨onResponse_late h wanted, fun r hreq => onResponse_known h wanted hreq⟩
  case detach =>
    intro it
    exact ⟨execDetach_none hrun h hmsg, fun c hsome => execDetach_running hrun h hmsg hsome⟩
  case damaged =>
    exact exec_damaged hrun held bad (kind ▸ hi)

end Sys2Proof.Machine
end

section
/-! SUPPORT. The step program: what each of its barriers does in the states that it waits for. -/

namespace Sys2Proof.Machine

/-! ## The step program -/

section
variable {s : State}

theorem execStartBarrierDone_waiting (hb : s.job.inBarrier = true) (hst : s.job.state = 1 ∨ s.job.state = 3) :
    execStartBarrierDone s =
      let t := ({ s with job := { s.job with inBarrier := false, attempts := 0 } }).setJob 2
      .next ((t.endOpOf (if s.job.state = 1 then 0x0010 else 0x0012) mbOk).serveBoundary) :=
  onlyIf_of_true (by simpa [hb] using hst)

/-- A step starts where the job runs, nothing holds the boundary, and the module may work (R420). -/
def State.mayStep (s : State) : Bool :=
  s.job.state = 2 && !s.job.inBarrier && s.job.phase = 0 && !s.ras.recovering && s.ras.restoring.isNone && s.job.reshard.isNone &&
    !s.boundaryBusy && !s.interrupted && s.leader.isSome && s.vcoreOn && s.pwr.protect.isNone && !s.job.stopDispatch

theorem execStepStart_may (h : s.mayStep = true) :
    execStepStart s =
      let t := s.claimAll.2
      let v := t.applyConfigs.healFirmware
      let u := if v.job.retry then v else v.setMicros
      .next (if s.claimAll.1 then { u with job := { u.job with phase := 1, failed := false } } else t) := by
  refine (onlyIf_of_true h).trans ?_
  cases hclaim : s.claimAll with
  | mk ready t => cases ready <;> rfl

/-- The backward-close barrier of a step under way: complete once the step fails, or no core runs (R328). -/
theorem execBackwardCloseBarrier_due {govf fail : Bool} (hjob : s.job.state = 2) (hlo : 1 ≤ s.job.phase) (hhi : s.job.phase ≤ 3)
    (hlead : s.leader.isSome = true) (hdone : (s.job.failed || fail) = true ∨ ∀ c : CoreId, s.cores[c].ctl.run = false) :
    execBackwardCloseBarrier govf fail s =
      if s.job.failed || fail then .next (s.failNow (govf || s.job.govf) true)
      else
        let t := s.dropAllReplicas.sealBanks s.job.step.toNat
        let us := byTable (t.job.upds.filter fun e => e.src = 0)
        .next (({ t with job := { t.job with phase := 4, ready := t.job.ready ++ us } }).commitStep.payState) := by
  have complete : (s.job.failed || fail || (List.finRange 256).all fun c => !s.cores[c].ctl.run) = true := by
    rcases hdone with failed | idle
    · rw [failed, Bool.true_or]
    · simp [-Fin.getElem_fin, idle]
  exact onlyIf_of_true (by simp only [hjob, hlo, hhi, hlead, complete, decide_true, Bool.and_true])

theorem execStepEndBarrier_due {govf : Bool} {ftz total : Nat} (hjob : s.job.state = 2) (hphase : s.job.phase = 5)
    (hfly : s.ras.inflight = false) (hdue : s.ras.stateDue = false) (hlead : s.leader.isSome = true) :
    execStepEndBarrier govf ftz total s = .next (s.endStep (govf || s.job.govf) (ftz + s.backSums.1) (total + s.backSums.2)) :=
  onlyIf_of_true (by simp only [hjob, hphase, hfly, hdue, hlead, decide_true, Bool.not_false, Bool.and_true])

end

/-- Settles O30: each command by the state it waits for; the closing barrier by whether the step fails. -/
theorem stepProgram : Obligations.StepProgram := by
  intro s
  refine ⟨execStartBarrierDone_waiting, ?start, fun govf fail hjob hlo hhi hlead => ⟨fun failing => ?_, fun sound hfail idle => ?_⟩,
    fun govf ftz total => execStepEndBarrier_due⟩
  case start =>
    intro hjob hbar hphase hrec hrest hresh hbusy hint hlead hon hprot hstop
    exact execStepStart_may (by
      simp only [State.mayStep, hjob, hbar, hphase, hrec, hrest, hresh, hbusy, hint, hlead, hon, hprot, hstop, decide_true, Bool.not_false,
        Option.isNone_none, Bool.and_true])
  · have failed : (s.job.failed || fail) = true := Bool.or_eq_true_iff.mpr failing
    rw [exec_backwardCloseBarrier, execBackwardCloseBarrier_due hjob hlo hhi hlead (.inl failed), if_pos failed]
  · have goes_on : ¬ (s.job.failed || fail) = true := by simp [sound, hfail]
    rw [exec_backwardCloseBarrier, execBackwardCloseBarrier_due hjob hlo hhi hlead (.inr idle), if_neg goes_on]

end Sys2Proof.Machine
end

section
/-! SUPPORT. Sub-requests of gathers, partial responses, gradient packets, acknowledgements, bank clears: how each command handles what waits on the
module and what the fabric has delivered. -/

namespace Sys2Proof.Machine

/-! ## What waits on the module -/

section
variable {s : State} {k : Nat}

theorem execGsub_local {m : GSub} (hrun : s.running = true) (hm : s.gsubs[k]? = some m) :
    execGsub false k s =
      let r := ({ s with gsubs := s.gsubs.eraseIdx k } : State).serveSub m
      .next (if firstOfCellar (s.gsubs.take k) m then { r.2 with gparts := r.2.gparts ++ [r.1] } else s) := by
  unfold execGsub
  simp only [onlyIf_of_true hrun, hm, Bool.false_eq_true, if_false]
  cases firstOfCellar (s.gsubs.take k) m <;> rfl

theorem execGpart_local {m : GPart} (hrun : s.running = true) (hm : s.gparts[k]? = some m) :
    execGpart false k s = .next ((({ s with gparts := s.gparts.eraseIdx k }).addPart m).freeLocal fun r =>
      match r.msg with
      | .gsub x => x.core = m.core && x.op = m.op && x.chunk = m.chunk && x.shard = m.shard && x.home = m.home && x.cellar = m.cellar
      | _ => false) := by
  unfold execGpart
  simp only [onlyIf_of_true hrun, hm, Bool.false_eq_true, if_false] <;> rfl

theorem execFlushAck_local {a : GradAck} (hrun : s.running = true) (ha : s.gacks[k]? = some a) :
    execFlushAck false k s = .next ((({ s with gacks := s.gacks.eraseIdx k }).ackGrad a).freeLocal fun r =>
      match r.msg with
      | .flush p => p.core = a.core && p.op = a.op && p.table = a.table && p.owner = a.owner && p.cellar = a.cellar
      | _ => false) := by
  unfold execFlushAck
  simp only [onlyIf_of_true hrun, ha, Bool.false_eq_true, if_false] <;> rfl

/-- A gradient packet is answered once its bank has taken it or turned it away; until then it waits where it stands (R237, R241). -/
theorem execFlush_local {p : GradPacket} (hrun : s.running = true) (hp : s.grads[k]? = some p) :
    execFlush false k s =
      let v := s.applyGrad (Fin.ofNat 4 p.cellar) p
      .next (match v.1 with
        | none => v.2
        | some r => ({ v.2 with grads := v.2.grads.eraseIdx k }).answerGrad p none r.1 r.2) := by
  unfold execFlush
  simp only [onlyIf_of_true hrun, hp, Bool.false_eq_true, if_false]
  rcases s.applyGrad (Fin.ofNat 4 p.cellar) p with ⟨_ | r, t⟩ <;> rfl

end

/-! ## What the fabric has delivered -/

section
variable {s : State} {k : Nat} {p : Packet}

theorem execGsub_delivered {m : GSub} (hrun : s.running = true) (h : s.holdsPacket k p) (hmsg : p.msg = .gsub m) :
    execGsub true k s =
      let r := (s.takeDeliv k).serveSub m
      .next (if firstOfCellar (gsubsOf (s.fab.deliv.take k)) m then r.2.sendMsg (p.respond r.2.fab.faddr.toNat stOk (.gpart r.1)) else s) := by
  obtain ⟨held, sound⟩ := h
  unfold execGsub
  simp only [onlyIf_of_true hrun, held, hmsg, sound, Bool.not_true, Bool.false_eq_true, if_true, if_false]
  cases firstOfCellar (gsubsOf (s.fab.deliv.take k)) m <;> rfl

theorem execFlush_delivered {g : GradPacket} (hrun : s.running = true) (h : s.holdsPacket k p) (hmsg : p.msg = .flush g) :
    execFlush true k s =
      let v := s.applyGrad (Fin.ofNat 4 g.cellar) g
      .next (match v.1 with
        | none => v.2
        | some r => (v.2.takeDeliv k).answerGrad g (some p) r.1 r.2) := by
  obtain ⟨held, sound⟩ := h
  unfold execFlush
  simp only [onlyIf_of_true hrun, held, hmsg, sound, Bool.not_true, Bool.false_eq_true, if_true, if_false]
  rcases s.applyGrad (Fin.ofNat 4 g.cellar) g with ⟨_ | r, t⟩ <;> rfl

theorem execGpart_delivered (hrun : s.running = true) : execGpart true k s = s.onResponse k fun m => m.typ = 0x11 := if_pos hrun

theorem execFlushAck_delivered (hrun : s.running = true) : execFlushAck true k s = s.onResponse k fun m => m.typ = 0x13 := if_pos hrun

/-- A damaged response is counted and answers no request (R287). -/
theorem onResponse_damaged {want : Msg → Bool} (held : s.fab.deliv[k]? = some p) (bad : p.crcOk = false) (hw : want p.msg = true) :
    s.onResponse k want = .next (s.takeDeliv k).badPacket := onDelivered_damaged held bad hw

theorem execGsub_damaged {m : GSub} (hrun : s.running = true) (held : s.fab.deliv[k]? = some p) (bad : p.crcOk = false) (hmsg : p.msg = .gsub m) :
    execGsub true k s = .next (s.takeDeliv k).badPacket := by
  unfold execGsub
  simp only [onlyIf_of_true hrun, held, hmsg, bad, Bool.not_false, if_true]

theorem execFlush_damaged {g : GradPacket} (hrun : s.running = true) (held : s.fab.deliv[k]? = some p) (bad : p.crcOk = false)
    (hmsg : p.msg = .flush g) : execFlush true k s = .next (s.takeDeliv k).badPacket := by
  unfold execFlush
  simp only [onlyIf_of_true hrun, held, hmsg, bad, Bool.not_false, if_true]

/-- The two commands that take the answer to a sub-request or to a gradient packet, each of its own type (R207, R233, R287). -/
theorem exec_answer {i : Instr} (hrun : s.running = true)
    (hi : p.msg.typ = 0x11 ∧ i = .gpart true k ∨ p.msg.typ = 0x13 ∧ i = .flushAck true k) :
    exec i s = s.onResponse k fun m => m.typ = p.msg.typ := by
  rcases hi with ⟨kind, rfl⟩ | ⟨kind, rfl⟩ <;> rw [kind]
  · exact execGpart_delivered hrun
  · exact execFlushAck_delivered hrun

end

theorem execBankClearDone_clearing {s : State} {n : CelId} {b : Fin 2} (hrun : s.running = true) (hc : (s.press[n].banks[b]).clearing = true) :
    execBankClearDone n b s =
      let x := s.press[n]
      let m := s.mem.zeroRange (x.hbmPart b).index (16 * (x.hbmPart b).slots)
      let m := if s.spillOk n then m.zeroRange (x.cavePart b).index (16 * (x.cavePart b).slots) else m
      .next { s with mem := m, press := s.press.set n { x with banks := x.banks.set b GBank.zero } } :=
  onlyIf_of_true (by rw [hrun, hc]; rfl)

/-- Settles O22: each command by whether what it handles waits on the module, or was delivered whole or damaged. -/
theorem poolingAndGradientPackets : Obligations.PoolingAndGradientPackets := by
  intro s k hrun
  refine ⟨fun m => execGsub_local hrun, fun p m => execGsub_delivered hrun, fun m => execGpart_local hrun, fun p i h hi => ?answer,
    fun p held bad => ⟨fun kind => ?_, fun kind => ?_, fun m => execGsub_damaged hrun held bad, fun q => execFlush_damaged hrun held bad⟩,
    fun p hp => ?applied, fun q p h hmsg => ?delivered, fun a => execFlushAck_local hrun, fun n b => execBankClearDone_clearing hrun⟩
  case answer =>
    have wanted : decide (p.msg.typ = p.msg.typ) = true := decide_eq_true rfl
    rw [exec_answer hrun hi]
    exact ⟨onResponse_late h wanted, fun r hreq => onResponse_known h wanted hreq⟩
  · exact (execGpart_delivered hrun).trans (onResponse_damaged held bad (decide_eq_true kind))
  · exact (execFlushAck_delivered hrun).trans (onResponse_damaged held bad (decide_eq_true kind))
  case applied =>
    refine ⟨fun r taken => ?_, fun waits => ?_⟩
    · rw [exec_flush, execFlush_local hrun hp]; simp only [taken]
    · rw [exec_flush, execFlush_local hrun hp]; simp only [waits]
  case delivered =>
    refine ⟨fun r taken => ?_, fun waits => ?_⟩
    · rw [exec_flush, execFlush_delivered hrun h hmsg]; simp only [taken]
    · rw [exec_flush, execFlush_delivered hrun h hmsg]; simp only [waits]

end Sys2Proof.Machine
end

section
/-! SUPPORT. Completion of gathers, routings, scatters and flushes. -/

namespace Sys2Proof.Machine

/-! ## Completion of gathers, scatters and flushes -/

section
variable {s : State} {c : CoreId} {op : Nat} {o : Op}

theorem execScatterComplete_scatter {resp : Nat} {record : List Byte} (hon : s.storeOn c = true) (ho : s.cores[c].opAt op = some o)
    (hb : o.body = .scatter resp record) :
    execScatterComplete c op s = .next (if s.cores[c].cmbTurn o then (s.writeStoreOf c o.id resp record).endCmb c o else s) := by
  simp only [execScatterComplete, onlyIf_of_true hon, onOp_of_opAt ho, hb]

theorem finishFlush_ordered {f : FlushOp} (h : f.auto = false) :
    s.finishFlush c o f = ((s.flushReport c f).writeStoreOf c o.id f.resp f.bytes).endCmb c o := by
  simp only [State.finishFlush, h, Bool.false_eq_true, if_false]

theorem execFlushComplete_flush {f : FlushOp} (hon : s.storeOn c = true) (ho : s.cores[c].opAt op = some o) (hb : o.body = .flush f) :
    execFlushComplete c op s = .next (if f.pend = 0 ∧ f.auto = false ∧ s.cores[c].cmbTurn o = true then
      ((s.flushReport c f).writeStoreOf c o.id f.resp f.bytes).endCmb c o else s) := by
  have ends_iff : (f.pend = 0 && !f.auto && s.cores[c].cmbTurn o) = true ↔ f.pend = 0 ∧ f.auto = false ∧ s.cores[c].cmbTurn o = true := by
    simp [and_assoc]
  simp only [execFlushComplete, onlyIf_of_true hon, onOp_of_opAt ho, hb, ends_iff]
  split
  case isTrue ends => rw [finishFlush_ordered ends.2.1]
  case isFalse => rfl

theorem execGatherComplete_gather {raw : List Byte} {lead : Nat} {x : Gather} (hon : s.storeOn c = true) (ho : s.cores[c].opAt op = some o)
    (hb : o.body = .gather raw lead) (hx : s.gatherOf c.val op = some x) :
    execGatherComplete c op s = .next (if x.pend.isEmpty && x.allSent s.cores[c].store then s.finishGather c o x else s) := by
  unfold State.gatherOf at hx
  simp only [execGatherComplete, onlyIf_of_true hon, onOp_of_opAt ho, hb, hx]

end

/-! ## Completion of routings -/

section
variable {s : State} {c : CoreId} {op : Nat} {o : Op} {raw : List Byte} {d : RDesc}

theorem execDispatchComplete_dispatch (hon : s.storeOn c = true) (ho : s.cores[c].opAt op = some o) (hb : o.body = .dispatch raw) :
    execDispatchComplete c op s =
      .next (if s.waitsNet c op then s else (s.dropReqs c op).finishDispatch c o raw (s.netResult c op).1) := by
  simp only [execDispatchComplete, onlyIf_of_true hon, onOp_of_opAt ho, hb]

theorem execCollectComplete_collect (hon : s.storeOn c = true) (ho : s.cores[c].opAt op = some o) (hb : o.body = .collect raw) :
    execCollectComplete c op s =
      .next (if s.waitsNet c op then s else (s.dropReqs c op).finishCollect c o raw (s.netResult c op).1 (s.netResult c op).2) := by
  simp only [execCollectComplete, onlyIf_of_true hon, onOp_of_opAt ho, hb]

/-- A dispatch counts what it drops at the lead Cellar of its core (R218, R220). -/
def State.countDrops (t : State) (c : CoreId) (n : Nat) : State :=
  let li := Fin.ofNat 4 (leadOf c 4)
  { t with emb := t.emb.set li { t.emb[li] with dispDrop := t.emb[li].dispDrop + BitVec.ofNat 64 n } }

theorem countDrops_emb (t : State) (c : CoreId) (n : Nat) : ∃ e, t.countDrops c n = { t with emb := e } := ⟨_, rfl⟩

/-- RMAP of the assignments of a dispatch: expert and row, all ones for an entry that went nowhere (R218). -/
def rmapBytes (as : List (Option (Nat × Nat))) : List Byte :=
  (as.map fun a => match a with | some (e, row) => toLe 2 e ++ toLe 2 row | none => toLe 4 0xffffffff).flatten

/-- Bytes that a dispatch writes into the buffers of experts (R218). -/
def RDesc.sent (d : RDesc) (m : Cells 8) : Nat := (d.writes m).foldl (fun a w => a + w.2.foldl (fun a b => a + b.2.length) 0) 0

/-- A dispatch whose experts all live on other modules writes RMAP and its status word (R218). -/
theorem finishDispatch_remote (hok : d.ok = true) (hfar : ∀ w ∈ d.writes s.cores[c].store, w.1.faddr ≠ s.fab.faddr.toNat) :
    s.finishDispatch c o d.raw stOk =
      ((s.storeAll c o.id [(d.rmap, rmapBytes (d.assign s.cores[c].store).1),
        (storeAddr d.status, toLe 8 stOk ++ toLe 8 (d.sent s.cores[c].store))]).countDrops c (d.assign s.cores[c].store).2.length).endOp c o := by
  unfold State.finishDispatch
  extract_lets d' m li loc code bytes t
  have good : d'.ok = true := hok
  have none_here : loc = [] := by
    simp only [loc, good, if_true]
    exact List.filter_eq_nil_iff.mpr fun w hw => by simpa using hfar w hw
  have code_eq : code = stOk := by simp [code, good, none_here]
  have bytes_eq : bytes = d.sent m := if_pos good
  have unwritten : t = s := by simp only [t, none_here, List.foldl_nil]
  clear_value t code bytes
  rw [good, code_eq, bytes_eq, unwritten]
  rfl

/-- A dispatch with a bad descriptor writes its status word alone (R217). -/
theorem finishDispatch_bad (hok : d.ok = false) (net : Nat) :
    s.finishDispatch c o d.raw net =
      ((s.storeAll c o.id [(storeAddr d.status, toLe 8 stBadDesc ++ toLe 8 0)]).countDrops c 0).endOp c o := by
  unfold State.finishDispatch
  extract_lets d' m li loc code bytes t
  have bad : d'.ok = false := hok
  have none_here : loc = [] := if_neg (ne_true_of_eq_false bad)
  have code_eq : code = stBadDesc := by simp only [code, bad, Bool.not_false, if_true]
  have bytes_eq : bytes = 0 := if_neg (ne_true_of_eq_false bad)
  have unwritten : t = s := by simp only [t, none_here, List.foldl_nil]
  clear_value t code bytes
  rw [bad, code_eq, bytes_eq, unwritten]
  rfl

/-- What a collect writes besides its rows, and its end (R219). -/
def State.writeCollected (s : State) (c : CoreId) (o : Op) (d : RDesc) (code : Nat) (outs : List (Nat × List Byte)) : State :=
  ((s.storeAll c o.id (outs ++ [(storeAddr d.status, toLe 8 code ++ toLe 8 (outs.foldl (fun a w => a + w.2.length) 0))])).drawn
    (d.tdim * (d.ntok + 1))).endOp c o

/-- A collect with a bad descriptor writes its status word alone (R217). -/
theorem finishCollect_bad (hok : d.ok = false) (net : Nat) (got : Cells 8) :
    s.finishCollect c o d.raw net got = s.writeCollected c o d stBadDesc [] := by
  unfold State.finishCollect
  extract_lets d' m n picks rowOf code outs
  have bad : d'.ok = false := hok
  have code_eq : code = stBadDesc := by simp only [code, bad, Bool.not_false, if_true]
  have outs_eq : outs = [] := if_neg (ne_true_of_eq_false bad)
  change s.writeCollected c o d code outs = _
  rw [code_eq, outs_eq]

/-- The rows of a collect whose experts all live on other modules, from what it has read: by token, the weighted sum, converted (R219).
`ev` draws the orders of its sums and its roundings. -/
def RDesc.collected (d : RDesc) (m got : Cells 8) (round : Bool) (ev : Nat) : List (Nat × List Byte) :=
  let rowOf := fun (i : Nat) => Cells.read got (i * d.pitch d.yfmt) (d.tdim * routeSize d.yfmt)
  (List.range d.ntok).map fun n =>
    let vs := ((d.picks m).zipIdx.filter fun p => p.1.1 = n).map fun p => (decodeRow d.yfmt d.tdim (rowOf p.2)).map (fmul p.1.2.1)
    (d.trows + n * d.tstride, encodeRow d.tfmt (unitMode round (ev + d.tdim * n)) (freeSumVec fadd (ev + d.tdim * n) d.tdim vs))

/-- A collect whose experts all live on other modules writes what it has read, weighted and summed (R219). -/
theorem finishCollect_remote (hok : d.ok = true) (hfar : ∀ p ∈ d.picks s.cores[c].store, p.2.2.1.faddr ≠ s.fab.faddr.toNat) (got : Cells 8) :
    s.finishCollect c o d.raw stOk got =
      s.writeCollected c o d stOk (d.collected s.cores[c].store got s.cores[c].num.round s.free) := by
  unfold State.finishCollect
  extract_lets d' m n picks rowOf code outs
  have good : d'.ok = true := hok
  have picked : picks = (d.picks m).zipIdx := if_pos good
  have far (p) (hp : p ∈ picks) : ¬ p.1.2.2.1.faddr = s.fab.faddr.toNat :=
    hfar p.1 (List.fst_mem_of_mem_zipIdx (picked ▸ hp))
  have code_eq : code = stOk := by
    have none_here : (picks.any fun p =>
        decide (p.1.2.2.1.faddr = s.fab.faddr.toNat) && (s.storeOfVcid c p.1.2.2.1.vcid).isNone) = false :=
      List.any_eq_false.mpr fun p hp => by simp [far p hp]
    simp only [code, good, none_here, Bool.not_true, Bool.false_eq_true, if_false, ne_eq, not_true_eq_false]
  have rows_read (p) (hp : p ∈ picks) : rowOf p = Cells.read got (p.2 * d.pitch d.yfmt) n := if_neg (far p hp)
  have outs_eq : outs = d.collected m got s.cores[c].num.round s.free := by
    refine (if_pos good).trans (List.map_congr_left fun t _ => ?_)
    have sums : ((picks.filter fun p => p.1.1 = t).map fun p => (decodeRow d'.yfmt d'.tdim (rowOf p)).map (fmul p.1.2.1)) =
        (picks.filter fun p => p.1.1 = t).map fun p => (decodeRow d.yfmt d.tdim (Cells.read got (p.2 * d.pitch d.yfmt) n)).map (fmul p.1.2.1) :=
      List.map_congr_left fun p hp => by rw [rows_read p (List.mem_of_mem_filter hp)]
    simp only [sums]
    rw [picked]
  change s.writeCollected c o d code outs = _
  rw [code_eq, outs_eq]

end

/-- Settles O20: each completion by the body of its operation, and by whether it still waits.
That the record of a gather refused for a misaligned RESP goes to that address as it stands is the model's choice (log 78). -/
theorem embeddingCompletions : Obligations.EmbeddingCompletions := by
  intro s c op o hon hen ho k
  have hstore := storeOn_of hon hen
  refine ⟨fun resp record => execScatterComplete_scatter hstore ho, fun f => execFlushComplete_flush hstore ho, fun raw lead x hb hx => ?gather,
    fun raw hb waits => ?_, fun raw hb hnet => ?dispatch, fun raw hb waits => ?_, fun raw hb hnet => ?collect⟩
  case gather =>
    intro d outs t done u
    rw [exec_gatherComplete, execGatherComplete_gather hstore ho hb hx]
    refine ⟨fun waits => ?_, fun none_pend all_sent => ?_⟩
    · have goes_on : (x.pend.isEmpty && x.allSent k.store) = false := by
        rcases waits with e | e <;> simp [e]
      rw [if_neg (ne_true_of_eq_false goes_on)]
    · have ends : (x.pend.isEmpty && x.allSent k.store) = true := by rw [none_pend, all_sent]; rfl
      rw [if_pos ends]
      rfl
  · rw [exec_dispatchComplete, execDispatchComplete_dispatch hstore ho hb, if_pos waits]
  case dispatch =>
    have complete := execDispatchComplete_dispatch hstore ho hb
    rw [if_neg (ne_true_of_eq_false hnet)] at complete
    rw [exec_dispatchComplete, complete]
    intro d
    refine ⟨rfl, fun hok hcode hfar => ?_, fun bad => ?_⟩
    · rw [hcode]
      exact congrArg _ (finishDispatch_remote (d := d) hok hfar)
    · intro t
      obtain ⟨e, counted⟩ := countDrops_emb t c 0
      exact ⟨e, congrArg _ ((finishDispatch_bad (d := d) bad _).trans (by rw [← counted]))⟩
  · rw [exec_collectComplete, execCollectComplete_collect hstore ho hb, if_pos waits]
  case collect =>
    have complete := execCollectComplete_collect hstore ho hb
    rw [if_neg (ne_true_of_eq_false hnet)] at complete
    rw [exec_collectComplete, complete]
    intro d m
    refine ⟨rfl, fun hok hcode hfar => ?_, fun bad => congrArg _ (finishCollect_bad (d := d) bad _ _)⟩
    intro rowOf outs t
    have rows : outs = d.collected k.store (s.netResult c op).2 k.num.round s.free := rfl
    rw [hcode]
    clear_value outs
    subst rows
    exact congrArg _ (finishCollect_remote (s := s.dropReqs c op) (d := d) hok hfar _)

end Sys2Proof.Machine
end

section
/-! SUPPORT. Gathers, table descriptors, routings, scatters and flushes: how each command enters its operation, and what a gather that it starts keeps. -/

namespace Sys2Proof.Machine

/-! ## What requests to other modules leave of the gathers -/

/-- What every step of a fold keeps, the fold keeps. -/
theorem foldl_keeps_of {α β γ : Type} (g : β → γ) {f : β → α → β} (h : ∀ p x, g (f p x) = g p) (l : List α) (p : β) : g (l.foldl f p) = g p := by
  induction l generalizing p with
  | nil => rfl
  | cons a l ih => rw [List.foldl_cons, ih, h]

/-- A fold of which no step does anything does nothing. -/
theorem foldl_idle {α β : Type} {f : β → α → β} {s : β} (l : List α) (h : ∀ x ∈ l, f s x = s) : l.foldl f s = s := by
  induction l with
  | nil => rfl
  | cons a l ih =>
    obtain ⟨first, rest⟩ := List.forall_mem_cons.mp h
    rw [List.foldl_cons, first, ih rest]

section
variable (s : State)

@[simp] theorem State.putRecord_gathers (r : LogRec) : (s.putRecord r).gathers = s.gathers := by
  simp only [State.putRecord, apply_ite State.gathers, ite_self]

@[simp] theorem State.event_gathers (p : ProcId) (block code : Nat) (fields : List Nat) : (s.event p block code fields).gathers = s.gathers := by
  simp only [State.event, State.logRec, State.logAlways, apply_ite State.gathers, State.putRecord_gathers, State.stampNext, State.updProc_gathers,
    ite_self]

@[simp] theorem State.noRoute_gathers (p : Packet) : (s.noRoute p).gathers = s.gathers := by
  simp only [State.noRoute, State.event_gathers]

@[simp] theorem State.route_gathers (p : Packet) (arr : Option Nat) : (s.route p arr).gathers = s.gathers := by
  unfold State.route
  split
  · rfl
  · dsimp only
    split
    · exact State.noRoute_gathers s p
    · split
      · exact State.noRoute_gathers s p
      · rw [State.noRoute_gathers, State.noRoute_gathers]

@[simp] theorem State.sendMsg_gathers (p : Packet) : (s.sendMsg p).gathers = s.gathers :=
  foldl_keeps_of State.gathers (fun t q => t.route_gathers q none) _ _

@[simp] theorem State.detachBranch_gathers (p : Packet) (d off : Nat) : (s.detachBranch p d off).gathers = s.gathers := State.route_gathers ..

@[simp] theorem State.branch_gathers (p : Packet) (arr : Option Nat) (d : Nat) : (s.branch p arr d).gathers = s.gathers := by
  simp only [State.branch, apply_ite State.gathers, State.detachBranch_gathers, ite_self]

@[simp] theorem State.routeMc_gathers (p : Packet) (arr : Option Nat) : (s.routeMc p arr).gathers = s.gathers := by
  unfold State.routeMc
  split
  · exact State.noRoute_gathers s p
  · refine (foldl_keeps_of State.gathers (fun t x => ?_) _ _).trans (foldl_keeps_of State.gathers (fun t d => t.branch_gathers p arr d) _ _)
    simp only [apply_ite State.gathers, State.detachBranch_gathers, ite_self]

@[simp] theorem State.inject_gathers (p : Packet) : (s.inject p).gathers = s.gathers := by
  simp only [State.inject, apply_ite State.gathers, State.routeMc_gathers, State.sendMsg_gathers, ite_self]

@[simp] theorem State.launch_gathers (r : NetReq) (t : Nat) : (s.launch r t).gathers = s.gathers := by
  unfold State.launch
  split
  · dsimp only
    split <;> rfl
  · exact State.inject_gathers ..

@[simp] theorem State.sendSub_gathers (t : TDesc) (m : GSub) : (s.sendSub t m).gathers = s.gathers := by
  unfold State.sendSub State.request
  dsimp only
  split
  · exact State.launch_gathers ..
  · rfl

end

/-! ## A gather while it classifies its indices -/

/-- What names a gather: its core, its operation, its request. -/
def Gather.name (g : Gather) : Nat × Nat × List Byte := (g.core, g.op, g.req)

@[simp] theorem GProg.index_name (p : GProg) (c : CoreId) (d : GReq) (t : TDesc) (k b o ord : Nat) :
    (p.index c d t k b o ord).g.name = p.g.name := by
  unfold GProg.index
  dsimp only
  split
  · rfl
  split
  · split <;> rfl
  · split <;> rfl

@[simp] theorem GProg.index_gathers (p : GProg) (c : CoreId) (d : GReq) (t : TDesc) (k b o ord : Nat) :
    (p.index c d t k b o ord).st.gathers = p.st.gathers := by
  unfold GProg.index
  dsimp only
  split
  · rfl
  split
  · simp only [State.rowRead, State.touchLines, apply_ite State.gathers, ite_self]
  · split <;> rfl

section
variable {s t : State} {g : Gather} {core op : Nat}

theorem gatherOf_congr (h : t.gathers = s.gathers) : t.gatherOf core op = s.gatherOf core op := by rw [State.gatherOf, h, State.gatherOf]

/-- The gather found by core and operation is of them. -/
theorem gatherOf_eq_some (h : s.gatherOf core op = some g) : g ∈ s.gathers ∧ g.core = core ∧ g.op = op :=
  ⟨List.mem_of_find?_eq_some h, by simpa using List.find?_some h⟩

/-- A gather that replaces another of its core and operation is found in its place. -/
theorem gatherOf_setGather {x : Gather} (h : s.gatherOf core op = some x) (hcore : g.core = core) (hop : g.op = op) :
    (s.setGather g).gatherOf core op = some g := by
  subst hcore hop
  have same_place : ((fun y : Gather => y.core = g.core && y.op = g.op) ∘ fun y : Gather => if y.core = g.core && y.op = g.op then g else y) =
      fun y : Gather => y.core = g.core && y.op = g.op := by
    funext y
    simp only [Function.comp]
    split
    case isTrue here => simpa using here.symm
    case isFalse elsewhere => rfl
  obtain ⟨-, core_eq, op_eq⟩ := gatherOf_eq_some h
  unfold State.gatherOf at h
  unfold State.gatherOf State.setGather
  rw [List.find?_map, same_place, h]
  exact congrArg some (if_pos (by simp [core_eq, op_eq]))

/-- A chunk classified and sent leaves the gather in its place, with its request (R207). -/
theorem gatherChunk_keeps (h : s.gatherOf core op = some g) (is : List (Nat × Nat)) (k : Nat) :
    ∃ x, (s.gatherChunk g is k).gatherOf core op = some x ∧ x.req = g.req := by
  unfold State.gatherChunk
  extract_lets d t xs bs p u
  have named : p.g.name = g.name := foldl_keeps_of (fun q : GProg => q.g.name) (fun q x => GProg.index_name ..) _ _
  have kept : p.st.gathers = s.gathers := foldl_keeps_of (fun q : GProg => q.st.gathers) (fun q x => GProg.index_gathers ..) _ _
  obtain ⟨-, rfl, rfl⟩ := gatherOf_eq_some h
  obtain ⟨core_eq, op_eq, req_eq⟩ : p.g.core = g.core ∧ p.g.op = g.op ∧ p.g.req = g.req := by simpa [Gather.name] using named
  exact ⟨_, (gatherOf_congr (foldl_keeps_of State.gathers (fun v m => v.sendSub_gathers t m) _ _)).trans
    (gatherOf_setGather ((gatherOf_congr kept).trans h) core_eq op_eq), req_eq⟩

/-- Further chunks leave the gather in its place, with its request (R207). -/
theorem advanceGather_keeps (n : Nat) {P : List Byte → Prop} (h : ∃ x, s.gatherOf core op = some x ∧ P x.req) :
    ∃ x, (State.advanceGather core op n s).gatherOf core op = some x ∧ P x.req := by
  induction n generalizing s with
  | zero => exact h
  | succ n ih =>
    obtain ⟨x, found, hx⟩ := h
    unfold State.advanceGather
    simp only [found]
    split
    case isTrue => exact ⟨x, found, hx⟩
    case isFalse =>
      obtain ⟨y, sent, req_eq⟩ := gatherChunk_keeps found _ _
      exact ih ⟨y, sent, req_eq ▸ hx⟩

end

/-! ## What starts an operation -/

section
variable {a : State} {c : CoreId} {addr : Nat} {raw : List Byte} {post : Option SemId}

/-- Every gather that starts is entered under its core, its operation number and its request; then its first chunks go (R205, R207). -/
theorem startGather_enters : ∃ n t g, a.startGather c addr post = State.advanceGather c.val a.cores[c].seq n t ∧ t.gathers = a.gathers ++ [g] ∧
    g.name = (c.val, a.cores[c].seq, storeRead a.cores[c].store addr 64) := by
  unfold State.startGather
  extract_lets x raw d lead t own bags nidx last g0 stop outB wr
  cases stop with
  | none => exact ⟨_, _, _, rfl, rfl, rfl⟩
  | some code => exact ⟨0, _, _, rfl, rfl, rfl⟩

/-- A gather whose request fails a check reads nothing and ends with BAD_DESC (R205, R522). -/
theorem startGather_refused (read : storeRead a.cores[c].store addr 64 = raw) (bad : (GReq.mk raw).ok = false) :
    ∃ g, (a.startGather c addr post).gathers = a.gathers ++ [g] ∧ g.code = stBadDesc ∧ g.noOutput = true ∧ g.core = c.val := by
  subst read
  unfold State.startGather
  extract_lets x raw d lead t own bags nidx last g0 stop outB wr
  have bad : d.ok = false := bad
  have stops : stop = some stBadDesc := by simp only [stop, bad, Bool.not_false, if_true]
  rw [stops]
  exact ⟨g0.refused stBadDesc, rfl, rfl, rfl, rfl⟩

/-- The gather that starts is afterwards found under its core and operation, with its request unless another stood there (R205). -/
theorem startGather_found (read : storeRead a.cores[c].store addr 64 = raw) :
    ∃ g, (a.startGather c addr post).gatherOf c.val a.cores[c].seq = some g ∧
      (a.gatherOf c.val a.cores[c].seq = none → g.req = raw) := by
  subst read
  obtain ⟨n, t, g, starts, entered, named⟩ := startGather_enters (a := a) (c := c) (addr := addr) (post := post)
  obtain ⟨core_eq, op_eq, req_eq⟩ : g.core = c.val ∧ g.op = a.cores[c].seq ∧ g.req = storeRead a.cores[c].store addr 64 := by
    simpa [-Fin.getElem_fin, Gather.name] using named
  have first : t.gatherOf c.val a.cores[c].seq = (a.gatherOf c.val a.cores[c].seq).or (some g) := by
    simp [-Fin.getElem_fin, State.gatherOf, entered, List.find?_append, core_eq, op_eq]
  rw [starts]
  refine advanceGather_keeps n (P := fun r => a.gatherOf c.val a.cores[c].seq = none → r = storeRead a.cores[c].store addr 64) ?_
  rw [first]
  cases a.gatherOf c.val a.cores[c].seq with
  | none => exact ⟨g, rfl, fun _ => req_eq⟩
  | some x => exact ⟨x, rfl, fun fresh => nomatch fresh⟩

/-- A dispatch whose experts all live on this module sends nothing to others (R218). -/
theorem sendExperts_local {s : State} {d : RDesc} {m : Cells 8} (h : ∀ w ∈ d.writes m, w.1.faddr = s.fab.faddr.toNat) (own : Nat) (last : Bool) :
    s.sendExperts c own d m last = s :=
  foldl_idle _ fun w hw => if_pos (h w hw)

theorem dispatchHeaders_local {s : State} {raw : List Byte}
    (h : ∀ w ∈ (RDesc.mk raw).writes s.cores[c].store, w.1.faddr = s.fab.faddr.toNat) (own : Nat) : s.dispatchHeaders c own raw = s := by
  simp only [State.dispatchHeaders, sendExperts_local h, ite_self]

/-- A dispatch with a bad descriptor, or with no expert on another module, enters its operation alone (R217, R218). -/
theorem startDispatch_local (read : storeRead a.cores[c].store addr 64 = raw)
    (h : (RDesc.mk raw).ok = false ∨ ∀ w ∈ (RDesc.mk raw).writes a.cores[c].store, w.1.faddr = a.fab.faddr.toNat) :
    ∃ rd wr, a.startDispatch c addr post = a.updCore c fun x => x.addOp post rd wr (.dispatch raw) := by
  subst read
  unfold State.startDispatch
  extract_lets x raw d st rd wr own t
  refine ⟨rd, wr, ?_⟩
  cases hok : d.ok with
  | false => rfl
  | true =>
    have near : ∀ w ∈ d.writes x.store, w.1.faddr = t.fab.faddr.toNat := h.resolve_left (ne_false_of_eq_true hok)
    have same_store : t.cores[c].store = x.store := by rw [State.updCore_same]; rfl
    rw [if_pos rfl, sendExperts_local near, dispatchHeaders_local (by rw [same_store]; exact near)]

/-- A collect with a bad descriptor, or with no row on another module, enters its operation alone (R219). -/
theorem startCollect_local (read : storeRead a.cores[c].store addr 64 = raw)
    (h : (RDesc.mk raw).ok = false ∨ ∀ p ∈ (RDesc.mk raw).picks a.cores[c].store, p.2.2.1.faddr = a.fab.faddr.toNat) :
    ∃ rd wr, a.startCollect c addr post = a.updCore c fun x => x.addOp post rd wr (.collect raw) := by
  subst read
  unfold State.startCollect
  extract_lets x raw d own st rd wr t
  refine ⟨rd, wr, ?_⟩
  cases hok : d.ok with
  | false => rfl
  | true =>
    have near : ∀ p ∈ d.picks x.store, p.2.2.1.faddr = t.fab.faddr.toNat := h.resolve_left (ne_false_of_eq_true hok)
    exact foldl_idle _ fun p hp => if_pos (near p.1 (List.fst_mem_of_mem_zipIdx hp))

end

/-! ## How the slots issue -/

section
variable {s : State} {c : CoreId} {g : Guard} {rs : SReg} {post : Option SemId}

/-- Where an operation may start, the slot starts it (R54, R55). -/
theorem issueD_starts {k : DKind} (h : s.mayStart c g post) (hi : s.cores[c].issueFault s.cores[c].store .nop (.async k rs post) = none) :
    s.issueD c g (.async k rs post) = .next ((s.atIssue c).startAsync c k (s.descAddr c rs) post) := by
  obtain ⟨runs, closed, class_ok, room⟩ := h
  exact issueD_async runs closed class_ok room hi

/-- Each of these commands is a move/sync slot of its kind. -/
theorem exec_embedding {i : Instr} (hi : i ∈ [Instr.eGather c g rs post, .eDesc c g rs post, .eDispatch c g rs post, .eCollect c g rs post,
    .eScatter c g rs post, .eFlush c g rs post]) : ∃ k, exec i s = s.issueD c g (.async k rs post) := by
  simp only [List.mem_cons, List.not_mem_nil, or_false] at hi
  rcases hi with rfl | rfl | rfl | rfl | rfl | rfl <;> exact ⟨_, rfl⟩

/-- A descriptor that passes its checks goes into its slot, and the replicas of its table are gone (R198, R215). -/
theorem runDesc_of_read {a : State} {addr : Nat} {raw : List Byte} (read : storeRead a.cores[c].store addr 64 = raw) :
    let t := TDesc.mk raw
    let put := if t.ok then ({ a with mem := a.mem.write (a.descBase + 64 * t.id) t.raw }).dropReplicas t.id else a
    a.runDesc c addr post = ((put.writeStoreOf c 0 (storeAddr (addr + 64))
      (toLe 8 (if t.ok then stOk else stBadDesc) ++ toLe 8 (if t.ok then 64 else 0))).updCore c
        fun x => { x with seq := x.seq + 1 }).completionPost c post := by
  subst read
  rfl

end

/-- Settles O19: the six slots share their faults, their stall and their start; each then enters as its kind says.
The order of the faults of a slot is the model's choice (log 6). -/
theorem embeddingCommandsEnter : Obligations.EmbeddingCommandsEnter := by
  intro s c g rs post k a addr raw t put
  refine ⟨fun i hi runs => ?barred, fun h => ?starts⟩
  case barred =>
    obtain ⟨kind, slot⟩ := exec_embedding (s := s) hi
    rw [slot]
    exact ⟨fun inside => issueD_async_inSeg runs inside kind rs, fun closed bad => issueD_async_class runs closed bad kind rs,
      fun closed ok full => issueD_async_full runs closed ok full kind rs⟩
  case starts =>
    have read : storeRead a.cores[c].store addr 64 = raw := by rw [atIssue_store]
    have gather : exec (.eGather c g rs post) s = .next (a.startGather c addr post) := issueD_starts h rfl
    have dispatch : exec (.eDispatch c g rs post) s = .next (a.startDispatch c addr post) := issueD_starts h rfl
    have collect : exec (.eCollect c g rs post) s = .next (a.startCollect c addr post) := issueD_starts h rfl
    have desc : exec (.eDesc c g rs post) s = .next (a.runDesc c addr post) := issueD_starts h rfl
    refine ⟨gather, dispatch, collect, issueD_starts h rfl, issueD_starts h rfl, desc.trans (congrArg _ (runDesc_of_read read)),
      fun bad => ⟨_, gather, ?refused⟩, ⟨_, gather, ?found⟩, fun near => ?dispatched, fun near => ?collected⟩
    case refused => exact startGather_refused read bad
    case found =>
      obtain ⟨x, found, fresh⟩ := startGather_found (post := post) read
      rw [atIssue_seq] at found fresh
      obtain ⟨listed, core_eq, op_eq⟩ := gatherOf_eq_some found
      exact ⟨x, listed, core_eq, op_eq, fresh⟩
    case dispatched =>
      obtain ⟨rd, wr, enters⟩ := startDispatch_local (post := post) read (by rw [atIssue_store]; exact near)
      exact ⟨rd, wr, dispatch.trans (congrArg _ enters)⟩
    case collected =>
      obtain ⟨rd, wr, enters⟩ := startCollect_local (post := post) read (by rw [atIssue_store]; exact near)
      exact ⟨rd, wr, collect.trans (congrArg _ enters)⟩

end Sys2Proof.Machine
end

section
/-! SUPPORT. The verdict of Press on a gradient packet: refused as a whole, left waiting, or answered. -/

namespace Sys2Proof.Machine

/-! ## What Press does with a packet -/

/-- Whether Press takes packets of a step: the module's own step while its bank is open, or the next step (R240). -/
def State.takesStep (s : State) (n : CelId) (step : Nat) : Prop :=
  let cur := s.job.step.toNat % 2 ^ 32
  let bk := s.press[n].banks[bankOf step]
  (step = cur ∧ ¬ (bk.isSealed = true ∧ bk.step = step)) ∨ step = (cur + 1) % 2 ^ 32

/-- Whether the bank of a step cannot take its packets yet: it is being cleared, or sealed for another step (R241). -/
def State.bankHeld (s : State) (n : CelId) (step : Nat) : Bool :=
  let bk := s.press[n].banks[bankOf step]
  bk.clearing || (bk.isSealed && bk.step ≠ step)

section
variable {s : State} {n : CelId} {step : Nat} {p : GradPacket}

theorem bankHeld_iff : s.bankHeld n step = true ↔
    (s.press[n].banks[bankOf step]).clearing = true ∨
    ((s.press[n].banks[bankOf step]).isSealed = true ∧ (s.press[n].banks[bankOf step]).step ≠ step) := by
  simp only [State.bankHeld, Bool.or_eq_true, Bool.and_eq_true, decide_eq_true_eq]

theorem bankHeld_eq_false (idle : (s.press[n].banks[bankOf step]).clearing = false)
    (own : (s.press[n].banks[bankOf step]).isSealed = true → (s.press[n].banks[bankOf step]).step = step) :
    s.bankHeld n step = false := by
  refine Bool.eq_false_iff.mpr fun held => ?_
  rcases bankHeld_iff.mp held with clears | ⟨closed, other⟩
  · exact Bool.eq_false_iff.mp idle clears
  · exact other (own closed)

/-- The version of the table is judged before all else (R240; log 81). -/
theorem applyGrad_of_version_ne (other : (s.tdesc p.table).version ≠ p.version) :
    s.applyGrad n p = (some (stStale, p.entries.length),
      { s with press := s.press.set n { s.press[n] with stale := s.press[n].stale + BitVec.ofNat 64 p.entries.length } }) :=
  if_pos other

section
variable (same : (s.tdesc p.table).version = p.version)
include same

theorem applyGrad_of_not_takesStep (late : ¬ s.takesStep n p.step) :
    s.applyGrad n p = (some (0x0c, p.entries.length),
      { s with press := s.press.set n { s.press[n] with late := s.press[n].late + BitVec.ofNat 64 p.entries.length } }) :=
  (if_neg (not_not.mpr same)).trans (if_pos late)

theorem applyGrad_of_bankHeld (timely : s.takesStep n p.step) (held : s.bankHeld n p.step = true) :
    s.applyGrad n p = (none, s) :=
  (if_neg (not_not.mpr same)).trans ((if_neg (not_not.mpr timely)).trans (if_pos held))

/-- A packet that Press takes is answered with the entries it drops, OK when there is none (R233, R239). -/
theorem applyGrad_taken (timely : s.takesStep n p.step) (free : s.bankHeld n p.step = false) :
    ∃ rej, (s.applyGrad n p).1 = some (if rej = 0 then stOk else 0x0d, rej) :=
  ⟨_, congrArg Prod.fst ((if_neg (not_not.mpr same)).trans
    ((if_neg (not_not.mpr timely)).trans (if_neg (Bool.eq_false_iff.mp free))))⟩

end

end

/-- Settles O23: the version, the step and the bank are judged in this order; that STALE comes before LATE is the model's
choice (log 81). -/
theorem gradientPacketVerdict : Obligations.GradientPacketVerdict := by
  intro s n p cur bk timely
  refine ⟨fun other => ?stale, fun same late => ?late, fun same timely held => ?waits, fun same timely idle own => ?taken⟩
  case stale =>
    rw [applyGrad_of_version_ne other]
    exact ⟨rfl, by simp, rfl⟩
  case late =>
    rw [applyGrad_of_not_takesStep same late]
    exact ⟨rfl, by simp, rfl⟩
  case waits => exact applyGrad_of_bankHeld same timely (bankHeld_iff.mpr held)
  case taken =>
    obtain ⟨rej, answer⟩ := applyGrad_taken same timely (bankHeld_eq_false idle own)
    refine ⟨_, rej, answer, ?_⟩
    by_cases none_dropped : rej = 0 <;> simp [none_dropped, stOk]

end Sys2Proof.Machine
end

section
/-! SUPPORT. Route maps: how a switch is requested, drained, voted, released and timed out, what a map load and a commit change. -/

namespace Sys2Proof.Machine

section
variable {s : State}

/-! ## The request of a switch -/

theorem requestSwitch_under_way {map : Nat} (going : s.fab.switch.isSome = true) : s.requestSwitch map = s := if_pos going

section
variable {map : Nat} (idle : s.fab.switch = none)
include idle

/-- During a promenade or a JOIN the wish is kept for its end (R304). -/
theorem requestSwitch_waits (walking : s.fab.prom.running = true ∨ s.fab.prom.asking = true) :
    s.requestSwitch map = { s with job := { s.job with mapWant := some map } } := by
  have waits : (s.fab.prom.running || s.fab.prom.asking) = true := Bool.or_eq_true_iff.mpr walking
  simp only [State.requestSwitch, idle, waits, Option.isSome_none, Bool.false_eq_true, if_false, if_true]

/-- With no MAPSW packet kept back, a switch begins with the next number and changes nothing else (R303). -/
theorem requestSwitch_begins (still : s.fab.prom.running = false) (quiet : s.fab.prom.asking = false) (unheld : s.fab.heldSw = []) :
    s.requestSwitch map = { s with
      fab := { s.fab with switch := some ⟨map, s.fab.mseq.toNat + 1, false, [], false⟩, heldSw := [] }
      job := { s.job with mapWant := none } } := by
  simp only [State.requestSwitch, State.replayMapsw, idle, still, quiet, unheld, Option.isSome_none, Bool.or_false, Bool.false_eq_true,
    if_false, List.foldl_nil]

end

theorem execMapSwitchRequest_led {map : Fin 8} (hrun : s.running = true) (led : s.leader.isSome = true) :
    execMapSwitchRequest map s = .next (s.requestSwitch map.val) :=
  onlyIf_of_true (by rw [hrun, led]; rfl)

/-! ## Draining and the time-out -/

theorem execMapSwitchDrained_waiting {w : MapSwitch} (going : s.fab.switch = some w) (hrun : s.running = true) (undrained : w.drained = false) :
    execMapSwitchDrained s =
      .next (if s.drainedNow then ({ s with fab := { s.fab with switch := some { w with drained := true } } }).tryVote else s) := by
  cases hdrained : s.drainedNow <;> simp [execMapSwitchDrained, going, hrun, undrained, hdrained, onlyIf]

theorem execMapSwitchDrained_idle (idle : s.fab.switch = none) : execMapSwitchDrained s = .next s := by
  simp only [execMapSwitchDrained, idle]

theorem execMapswTimeout_idle (idle : s.fab.switch = none) : execMapswTimeout s = .next s := by
  simp only [execMapswTimeout, idle]

/-- The time-out of a switch is over with it, and asks for it again once the step's backward pass has closed (R263, R304; log 71). -/
theorem execMapswTimeout_going {w : MapSwitch} (going : s.fab.switch = some w) :
    execMapswTimeout s =
      let t := ({ s with fab := { s.fab with switch := none, mapswFail := true } }).resumeInjection
      .next (if 4 ≤ t.job.phase then t.requestSwitch w.map else t.failStep 304) := by
  simp only [execMapswTimeout, going]

/-! ## Votes and releases -/

section
variable {k : Nat} {p : Packet}

/-- A packet of another kind than the one asked for stays where it is. -/
theorem onDelivered_other {want : Msg → Bool} {f : State → Packet → Res} (held : s.fab.deliv[k]? = some p) (other : want p.msg = false) :
    s.onDelivered k want f = .next s := by
  simp only [State.onDelivered, held, other, Bool.not_false, if_true]

/-- Each of the two commands takes its own kind of MAPSW packet and leaves the other where it is (R303). -/
theorem mapsw_taken_by_kind {mseq map : Nat} {rel : Bool} (h : s.holdsPacket k p) (hmsg : p.msg = .mapsw mseq map rel) :
    (rel = false → execMapswVote k s = .next ((s.takeDeliv k).takeMapsw p) ∧ execMapswRelease k s = .next s) ∧
    (rel = true → execMapswRelease k s = .next ((s.takeDeliv k).takeMapsw p) ∧ execMapswVote k s = .next s) := by
  refine ⟨?vote, ?release⟩ <;> rintro rfl
  case vote => exact ⟨onDelivered_of_holdsPacket h (hmsg ▸ rfl), onDelivered_other h.1 (hmsg ▸ rfl)⟩
  case release => exact ⟨onDelivered_of_holdsPacket h (hmsg ▸ rfl), onDelivered_other h.1 (hmsg ▸ rfl)⟩

/-- A vote or release of a number that is not above FAB_MSEQ is ignored (R304). -/
theorem takeMapsw_old {mseq map : Nat} {rel : Bool} (hmsg : p.msg = .mapsw mseq map rel) (old : mseq ≤ s.fab.mseq.toNat) :
    s.takeMapsw p = s := by
  simp only [State.takeMapsw, hmsg, old, if_true]

theorem exec_mapsw_damaged {mseq map : Nat} {rel : Bool} (held : s.fab.deliv[k]? = some p) (bad : p.crcOk = false)
    (hmsg : p.msg = .mapsw mseq map rel) :
    exec (if rel then .mapswRelease k else .mapswVote k) s = .next (s.takeDeliv k).badPacket := by
  cases rel with
  | false => exact (exec_mapswVote s k).trans (onDelivered_damaged held bad (hmsg ▸ rfl))
  | true => exact (exec_mapswRelease s k).trans (onDelivered_damaged held bad (hmsg ▸ rfl))

end

/-! ## The load of a map image and the commit -/

/-- The map whose image firmware can read at an address, none where it is BAD (R301, R302). -/
def State.mapImage (s : State) (a : Nat) : Option RouteMap :=
  match s.place a with
  | .hbm _ _ => if a % 64 = 0 && s.readStatus .firmware a 4160 = stOk then parseMap (s.mem.read a 4160) else none
  | _ => none

/-- The fabric after a map load: a bad image changes MAPLD only (R301). -/
def FabSt.loadImage (f : FabSt) (slot : Nat) : Option RouteMap → FabSt
  | none => { f with mapld := 2 }
  | some m => f.loadMap slot m

theorem fabMapLoad_eq (s : State) (x : W64) :
    s.fabMapLoad x = { s with fab := s.fab.loadImage (bits x.toNat 50 48) (s.mapImage (bits x.toNat 47 0)) } := by
  change (match s.mapImage (bits x.toNat 47 0) with
    | none => { s with fab := { s.fab with mapld := 2 } }
    | some m => { s with fab := s.fab.loadMap (bits x.toNat 50 48) m }) = _
  cases s.mapImage (bits x.toNat 47 0) <;> rfl

section
variable {a : Nat}

theorem mapImage_unaligned (off : a % 64 ≠ 0) : s.mapImage a = none := by
  unfold State.mapImage
  split
  case h_1 => simp only [off, decide_false, Bool.false_and, Bool.false_eq_true, if_false]
  case h_2 => rfl

theorem mapImage_hbm {kind dom : Nat} (aligned : a % 64 = 0) (place : s.place a = .hbm kind dom)
    (readable : s.readStatus .firmware a 4160 = stOk) : s.mapImage a = parseMap (s.mem.read a 4160) := by
  simp only [State.mapImage, place, aligned, readable, decide_true, Bool.and_true, if_true]

end

theorem execFabMapLoad_running {x : W64} (hrun : s.running = true) :
    execFabMapLoad x s = .next { s with fab := s.fab.loadImage (bits x.toNat 50 48) (s.mapImage (bits x.toNat 47 0)) } :=
  (onlyIf_of_true hrun).trans (congrArg _ (fabMapLoad_eq s x))

theorem execFabCommit_running (hrun : s.running = true) :
    execFabCommit s = .next { s with fab := { s.fab with cfg := s.fab.cfgShadow, hoplim := s.fab.hoplimShadow } } :=
  onlyIf_of_true hrun

end

/-- Settles O29: a request by what the switch waits for, a MAPSW packet by its kind and number, a map load by whether its image can be
read; that an image off a multiple of 64 is BAD is the model's choice (log 71). -/
theorem mapSwitch : Obligations.MapSwitch := by
  intro s
  refine ⟨fun map hrun led => ?request, fun w => execMapSwitchDrained_waiting, fun k p mseq map rel h hmsg => ?packet,
    fun k p mseq map rel => exec_mapsw_damaged, fun w => execMapswTimeout_going,
    fun idle => ⟨execMapswTimeout_idle idle, execMapSwitchDrained_idle idle⟩, fun hrun x => ?load, execFabCommit_running⟩
  case request =>
    rw [exec_mapSwitchRequest, execMapSwitchRequest_led hrun led]
    refine ⟨rfl, fun going => ?_, fun idle walking => ?_, fun idle still quiet unheld => ?_⟩
    · rw [requestSwitch_under_way going]
    · rw [requestSwitch_waits idle walking]
    · exact ⟨_, congrArg _ (requestSwitch_begins idle still quiet unheld), rfl, rfl, rfl, rfl⟩
  case packet =>
    obtain ⟨votes, releases⟩ := mapsw_taken_by_kind h hmsg
    exact ⟨votes, releases, fun old => takeMapsw_old hmsg old⟩
  case load =>
    rw [exec_fabMapLoad, execFabMapLoad_running hrun]
    refine ⟨fun off => ?_, fun kind dom aligned place readable => ?_, _, rfl⟩
    · rw [mapImage_unaligned off]; rfl
    · rw [mapImage_hbm aligned place readable]
      cases parseMap (s.mem.read (bits x.toNat 47 0) 4160) <;> rfl

end Sys2Proof.Machine
end

section
/-! SUPPORT. The update unit: its worklist, the tensors it takes up, its sweeps, its stop, recovery and the drift scrub. -/

namespace Sys2Proof.Machine

section
variable {s : State} {n : CelId}

/-! ## Worklist, stop and recovery -/

theorem execWorklistReady_sealed (hon : s.vcoreOn = true) (hphase : s.job.phase = 4)
    (closed : (s.press[n].banks[bankOf s.job.step.toNat]).isSealed = true) (unread : s.upd[n].workReady = false) :
    execWorklistReady n s =
      let ks := s.sortedKeys n s.job.step.toNat
      .next { s with mem := s.mem.write s.upd[n].workBase ((ks.map workBytes).flatten),
                     upd := s.upd.set n { s.upd[n] with workReady := true, work := ks.length } } := by
  simp only [execWorklistReady, hon, hphase, closed, unread, onlyIf, decide_true, Bool.not_false, Bool.and_true, if_true]

theorem execUpdateStop_asked (asked : s.upd[n].stopReq = true) (going : s.upd[n].stopped = false) :
    execUpdateStop n s = .next { s with upd := s.upd.set n { s.upd[n] with stopped := true, stopReq := false } } :=
  onlyIf_of_true (by simp only [asked, going, Bool.not_false, Bool.and_true])

theorem execJournalRecovery_idle (hon : s.vcoreOn = true) (hjob : s.jobLoaded = true) (unasked : s.upd[n].stopReq = false)
    (idle : s.upd[n].run = none) :
    execJournalRecovery n s = .next (((s.job.upds.map (·.table)).foldl (fun s t => s.recoverTensor n t) s).releaseRecovered).payState :=
  onlyIf_of_true (by simp only [hon, hjob, unasked, idle, Option.isNone_none, Bool.not_false, Bool.and_true])

/-- A unit takes up work where its clock runs and no stop is asked for or reported (R257). -/
theorem unitRuns_of (hon : s.vcoreOn = true) (unasked : s.upd[n].stopReq = false) (going : s.upd[n].stopped = false) : s.unitRuns n = true := by
  simp only [State.unitRuns, hon, unasked, going, Bool.not_false, Bool.and_true]

/-! ## Taking up a tensor -/

/-- Whether the journal record of a tensor names this step (R260). -/
def State.recordNamesStep (s : State) (table : Nat) : Bool :=
  s.updating table && decide (s.journalStep table = s.job.step.toNat % 2 ^ 32)

/-- The record is opened where the one that stands names another step (R260). -/
def State.withRecord (s : State) (e : UpdEntry) : State :=
  if s.recordNamesStep e.table then s else s.openJournal e s.job.step.toNat s.job.scale.exp

theorem withRecord_eq (s : State) (e : UpdEntry) :
    (if !s.recordNamesStep e.table then s.openJournal e s.job.step.toNat s.job.scale.exp else s) = s.withRecord e := by
  unfold State.withRecord
  cases s.recordNamesStep e.table <;> rfl

/-- The sweeps of a tensor of this step, none done yet, at the scale that its record holds (R255, R260). -/
def State.newRun (s : State) (n : CelId) (e : UpdEntry) : UpdRun :=
  let a := s.withRecord e
  ⟨e, s.job.step.toNat, a.header (a.journalAt e.table) 8 1, a.runGroups n e s.job.step.toNat, 0, 0, 0, 0, false⟩

/-- A unit with the sweeps it is on. -/
def State.setRun (s : State) (n : CelId) (r : UpdRun) : State := { s with upd := s.upd.set n { s.upd[n] with run := some r } }

/-- A tensor taken up by its unit. -/
def State.takeTensor (s : State) (n : CelId) (e : UpdEntry) : State := (s.withRecord e).setRun n (s.newRun n e)

/-- A tensor without groups goes on at once: a wide scope forms its sums, another tensor is finished (R253, R262). -/
def State.beginSweeps (b : State) (n : CelId) (table : Nat) (groups : List UpdGroup) : State :=
  if groups ≠ [] then b else if b.wideTrust table then b.formNorms table else (b.finishTensor n table).payState

theorem beginSweeps_eq (b : State) (n : CelId) (table : Nat) (groups : List UpdGroup) :
    (if !groups.isEmpty then (.next b : Res)
      else if b.wideTrust table then .next (b.formNorms table) else .next (b.finishTensor n table).payState) =
    .next (b.beginSweeps n table groups) := by
  unfold State.beginSweeps
  cases groups with
  | nil => cases b.wideTrust table <;> rfl
  | cons g gs => rfl

/-- Whether a unit may take up a tensor now (R260). -/
def State.mayTake (s : State) (n : CelId) : Bool :=
  s.unitRuns n && s.job.state = 2 && 1 ≤ s.job.phase && s.upd[n].run.isNone && s.procUp (qpProc (s.servingQp n.val))

theorem mayTake_of (works : s.unitRuns n = true) (hjob : s.job.state = 2) (hphase : 1 ≤ s.job.phase) (idle : s.upd[n].run = none)
    (served : s.procUp (qpProc (s.servingQp n.val)) = true) : s.mayTake n = true := by
  simp only [State.mayTake, works, hjob, hphase, idle, served, decide_true, Option.isNone_none, Bool.and_true]

theorem execUpdateTensorStart_none (may : s.mayTake n = true) (unready : s.nextTensor n = none) : execUpdateTensorStart n s = .next s := by
  refine (onlyIf_of_true may).trans ?_
  simp only [unready]

theorem execUpdateTensorStart_some {e : UpdEntry} (may : s.mayTake n = true) (ready : s.nextTensor n = some e) :
    execUpdateTensorStart n s = .next ((s.takeTensor n e).beginSweeps n e.table (s.newRun n e).groups) := by
  refine Eq.trans ?_ (beginSweeps_eq _ _ _ _)
  refine (onlyIf_of_true may).trans ?_
  simp only [ready, State.takeTensor, State.newRun, ← withRecord_eq]
  rfl

/-! ## The sweeps -/

section
variable {r : UpdRun} {g : UpdGroup} (works : s.unitRuns n = true) (going : s.upd[n].run = some r)
include works going

/-- Sweep 1 of the next group; a wide scope adds its squares, and waits with its sums for the last group (R253, R255). -/
theorem execUpdSweep1_group (turn : s.wideTrust r.entry.table = true ∨ r.done1 = r.done2) (hg : r.groups[r.done1]? = some g) :
    execUpdSweep1 n s =
      let wide := s.wideTrust r.entry.table
      let x := s.sweep1 (s.updCtx n r) g
      let r' := { r with done1 := r.done1 + 1, w2 := if wide then fadd r.w2 (sumSq x.2.1) else r.w2,
                         r2 := if wide then fadd r.r2 (sumSq x.2.2) else r.r2 }
      let t := ({ x.1 with upd := x.1.upd.set n { x.1.upd[n] with run := some r', busy := Config.fresh x.1.free } } : State).drawn 2
      .next (if wide then t.formNorms r.entry.table else t) := by
  simp only [execUpdSweep1, going]
  refine (onlyIf_of_true (by simpa [works] using turn)).trans ?_
  simp only [hg]

section
variable (allowed : s.wideTrust r.entry.table = false ∨ s.journalState r.entry.table = 2)
include allowed

/-- Sweep 2 of the next group that sweep 1 has passed; the last one finishes the tensor (R255, R262). -/
theorem execUpdSweep2_group (behind : r.done2 < r.done1) (hg : r.groups[r.done2]? = some g) :
    execUpdSweep2 n s =
      let tab := r.entry.table
      let x := s.sweep2 (s.updCtx n r) g (s.widePhi tab)
      let t := ({ x with upd := x.upd.set n { x.upd[n] with run := some { r with done2 := r.done2 + 1 }, busy := Config.fresh x.free } } : State).drawn 1
      .next (if r.done2 + 1 = r.groups.length then (t.finishTensor n tab).payState else t) := by
  simp only [execUpdSweep2, going]
  refine (onlyIf_of_true (by simpa [works] using allowed)).trans ?_
  simp only [hg, if_neg (Nat.not_le.mpr behind)]

end

/-- A wide scope without groups on this unit is finished once its sums are formed (R253). -/
theorem execUpdSweep2_empty (wide : s.wideTrust r.entry.table = true) (formed : s.journalState r.entry.table = 2) (empty : r.groups = []) :
    execUpdSweep2 n s = .next (s.finishTensor n r.entry.table).payState := by
  simp only [execUpdSweep2, going]
  refine (onlyIf_of_true (by simp [works, formed])).trans ?_
  simp only [wide, empty, List.getElem?_nil, List.isEmpty_nil, Bool.and_self, if_true]

end

/-! ## The drift scrub -/

/-- Whether the scrub of a unit may look at a group now (R269). -/
def State.mayScrub (s : State) (n : CelId) : Bool :=
  s.unitRuns n && s.jobLoaded && bits s.upd[n].cfg.toNat 15 0 ≠ 0 && !s.scrubTables.isEmpty

theorem mayScrub_of (works : s.unitRuns n = true) (hjob : s.jobLoaded = true) (rate : bits s.upd[n].cfg.toNat 15 0 ≠ 0)
    (tables : s.scrubTables ≠ []) : s.mayScrub n = true := by
  simp only [State.mayScrub, works, hjob, rate, ne_eq, not_false_eq_true, decide_true, Bool.and_true, Bool.true_and, Bool.not_eq_true',
    List.isEmpty_eq_false_iff.mpr tables]

/-- The place that the scrub of a unit has in the list of tables. -/
def State.scrubPlace (s : State) (n : CelId) : Nat := s.upd[n].scrubTab % max 1 s.scrubTables.length

/-- The table that the scrub of a unit is on. -/
def State.scrubTable (s : State) (n : CelId) : Nat := (s.scrubTables[s.scrubPlace n]?).getD 0

/-- The place after it, the first one after the last. -/
def State.scrubAfter (s : State) (n : CelId) : Nat := (s.scrubPlace n + 1) % max 1 s.scrubTables.length

/-- The scrub of a unit put at the first group of a table. -/
def State.scrubFrom (s : State) (n : CelId) (place : Nat) : State :=
  { s with upd := s.upd.set n { s.upd[n] with scrubTab := place, scrubGrp := 0, scrubHits := 0 } }

section
variable (may : s.mayScrub n = true)
include may

/-- A table with an open journal, or with no group left, is passed over (R269). -/
theorem execScrubGroup_passes
    (skip : s.openTensor (s.scrubTable n) = true ∨ (s.scrubGroups n (s.scrubTable n))[s.upd[n].scrubGrp]? = none) :
    execScrubGroup n s = .next (s.scrubFrom n (s.scrubAfter n)) := by
  simp only [execScrubGroup]
  refine (onlyIf_of_true may).trans ?_
  unfold State.scrubTable State.scrubPlace at skip
  rcases skip with busy | done
  · simp only [busy, if_true]
    rfl
  · simp only [done, ite_self]
    rfl

/-- A group is scrubbed; the table's drift is logged with its last group (R269). -/
theorem execScrubGroup_group {g : UpdGroup} (closed : s.openTensor (s.scrubTable n) = false)
    (hg : (s.scrubGroups n (s.scrubTable n))[s.upd[n].scrubGrp]? = some g) :
    execScrubGroup n s =
      let x := s.scrubGroup n (s.scrubTable n) g
      let hits := s.upd[n].scrubHits + x.1
      let t := x.2.scrubFrom n (s.scrubAfter n)
      .next (if s.upd[n].scrubGrp + 1 < (s.scrubGroups n (s.scrubTable n)).length then
          { x.2 with upd := x.2.upd.set n { x.2.upd[n] with scrubGrp := s.upd[n].scrubGrp + 1, scrubHits := hits } }
        else if hits = 0 then t else t.event (qpProc (t.servingQp n.val)) 6 4 [s.scrubTable n, hits]) := by
  simp only [execScrubGroup]
  refine (onlyIf_of_true may).trans ?_
  unfold State.scrubTable State.scrubPlace at closed hg
  simp only [closed, hg, Bool.false_eq_true, if_false]
  exact (apply_ite Host.Outcome.next _ _ _).symm

end

end

/-- Settles O24: each command by what its unit waits for; a sweep by whether a group is left to it, the scrub by whether the tensor's
journal is open. -/
theorem updateUnitCommands : Obligations.UpdateUnitCommands := by
  intro s n u
  refine ⟨execWorklistReady_sealed, execUpdateStop_asked, execJournalRecovery_idle, fun hon unasked unstopped => ?_⟩
  have works : s.unitRuns n = true := unitRuns_of hon unasked unstopped
  refine ⟨fun hjob hphase idle served => ?take, fun r going => ?sweeps, fun hjob rate tables => ?scrub⟩
  case take =>
    have may : s.mayTake n = true := mayTake_of works hjob hphase idle served
    exact ⟨execUpdateTensorStart_none may, fun e => execUpdateTensorStart_some may⟩
  case sweeps =>
    exact ⟨fun g => execUpdSweep1_group works going, fun g => execUpdSweep2_group works going, execUpdSweep2_empty works going⟩
  case scrub =>
    have may : s.mayScrub n = true := mayScrub_of works hjob rate tables
    exact ⟨execScrubGroup_passes may, fun g => execScrubGroup_group may⟩

end Sys2Proof.Machine
end

section
/-! SUPPORT. The state in which training leaves a fabric port; PROM records of the input queue and the time-outs of a promenade. -/

namespace Sys2Proof.Machine

/-! ## The end of a port's training -/

/-- Training found failed lanes in the low half, lanes 0 to 3 (R284). -/
abbrev LowFailed (r : PortTrain) : Prop := r.badLanes.toNat % 16 ≠ 0

/-- Training found failed lanes in the high half, lanes 4 to 7 (R284). -/
abbrev HighFailed (r : PortTrain) : Prop := 16 ≤ r.badLanes.toNat

/-- The other port of a port's pair (R278). -/
abbrev FabSt.sister (f : FabSt) (i : PortId) : Port := f.ports[(Fin.ofNat 12 (i.val ^^^ 1) : PortId)]

/-- The far port is the mate of this one, and belongs to the module that the trained sister port reaches (R278). -/
abbrev FabSt.CabledTo (f : FabSt) (i : PortId) (r : PortTrain) : Prop :=
  r.peerPort = (i.val ^^^ 2) ∧ (((f.sister i).state = 2 ∨ (f.sister i).state = 3) → (f.sister i).peer = r.peer)

/-- A port whose link came up, with what the far end sent (R278, R284). -/
def FabSt.linked (f : FabSt) (i : PortId) (r : PortTrain) : Port :=
  { f.ports[i] with laneBad := r.badLanes.toNat, peerPort := r.peerPort, peer := r.peer, trainFails := 0, naks := 0 }

/-- The outcomes of a training in the order in which they are decided: lanes, link, cabling, width (R278, R284). -/
theorem trained_eq (f : FabSt) (i : PortId) (r : PortTrain) :
    f.trained i r =
      if LowFailed r ∧ HighFailed r then { f.ports[i] with laneBad := r.badLanes.toNat, state := 5 }
      else if r.linkOk = false then
        { f.ports[i] with laneBad := r.badLanes.toNat, state := if 2 ≤ f.ports[i].trainFails then 5 else 1,
                          trainFails := f.ports[i].trainFails + 1 }
      else if ¬ f.CabledTo i r then { f.linked i r with state := 4 }
      else if LowFailed r ∨ HighFailed r ∨ f.ports[i].half = true then { f.linked i r with state := 3, higrp := decide (LowFailed r) }
      else { f.linked i r with state := 2, higrp := false } := by
  have miscabled : ¬ f.CabledTo i r ↔
      r.peerPort ≠ (i.val ^^^ 2) ∨ ((f.sister i).state = 2 ∨ (f.sister i).state = 3) ∧ (f.sister i).peer ≠ r.peer := by
    rw [not_and_or, Classical.not_imp]
  simp only [FabSt.trained, Bool.and_eq_true, Bool.or_eq_true, Bool.not_eq_true', decide_eq_true_eq, miscabled, or_assoc]
  rfl

/-- Settles O33: failed lanes in both halves come first, then the link, the cabling, and the lanes with the HALF setting. That a sister port
not trained does not count, so that of a pair whose ports reach different modules the one that trains second is MISCABLED, is the model's
choice (log 70). -/
theorem portTrainingOutcome : Obligations.PortTrainingOutcome := by
  intro f i r x o lo hi cabled
  rw [trained_eq]
  refine ⟨fun noHalf => ?_, fun someHalf down => ?_, fun someHalf up apart => ?_, fun someHalf up mates narrow => ?_,
    fun low high full up mates => ?_⟩
  · rw [if_pos noHalf]
  · rw [if_neg someHalf, if_pos down]
    exact ⟨rfl, rfl⟩
  · rw [if_neg someHalf, if_neg (by simp [up]), if_pos apart]
  · rw [if_neg someHalf, if_neg (by simp [up]), if_neg (not_not_intro mates), if_pos narrow]
    exact ⟨rfl, decide_eq_true_iff⟩
  · rw [if_neg (fun both => low both.1), if_neg (by simp [up]), if_neg (not_not_intro mates),
      if_neg (by rintro (h | h | h); exacts [low h, high h, Bool.false_ne_true (full.symm.trans h)])]

/-! ## PROM records of the input queue -/

/-- In a module whose fabric is on, place `k` of the input queue holds a PROM record of a root that came in on port `i`, and its CRC holds or
fails. -/
def State.PromAt (s : State) (k i : Nat) (root : W64) (m : PromMsg) (sound : Bool) : Prop :=
  s.fabricOn = true ∧ ∃ p : Packet, s.fab.inq[k]? = some (i, p) ∧ p.msg = .prom root m ∧ p.crcOk = sound

section
variable {s : State} {k i : Nat} {root : W64} {m : PromMsg} {sound : Bool} {want : PromMsg → Bool} {f : State → Nat → W64 → PromMsg → State}

theorem onProm_sound (h : s.PromAt k i root m true) (hw : want m = true) : s.onProm k want f = .next (f (s.takeInq k) i root m) := by
  obtain ⟨hon, p, queued, hmsg, crc⟩ := h
  simp only [State.onProm, onlyIf_of_true hon, queued, hmsg, hw, crc, Bool.not_true, Bool.false_eq_true, if_false]

/-- A damaged record is counted and not handled (R287). -/
theorem onProm_damaged (h : s.PromAt k i root m false) (hw : want m = true) : s.onProm k want f = .next (s.takeInq k).badPacket := by
  obtain ⟨hon, p, queued, hmsg, crc⟩ := h
  simp only [State.onProm, onlyIf_of_true hon, queued, hmsg, hw, crc, Bool.not_true, Bool.not_false, Bool.false_eq_true, if_false, if_true]

theorem onProm_otherKind (h : s.PromAt k i root m sound) (hw : want m = false) : s.onProm k want f = .next s := by
  obtain ⟨hon, p, queued, hmsg, -⟩ := h
  simp only [State.onProm, onlyIf_of_true hon, queued, hmsg, hw, Bool.not_false, if_true]

theorem execPromAsk_otherKind (h : s.PromAt k i root m sound) (hm : m ≠ .ask) : execPromAsk k s = .next s := by
  refine onProm_otherKind h ?_
  cases m with
  | ask => exact absurd rfl hm
  | _ => rfl

theorem execPromWalk_walk {a d c : Nat} (h : s.PromAt k i root (.walk a d c) true) :
    execPromWalk k s = .next ((s.takeInq k).takeWalk i root (a % 3) (d % 2) c) :=
  onProm_sound h rfl

theorem execPromWalk_walkAck {a d : Nat} (h : s.PromAt k i root (.walkAck a d) true) :
    execPromWalk k s =
      .next ((s.takeInq k).updProm fun x => { x with waiting := x.waiting.set (Fin.ofNat 6 (2 * (a % 3) + d % 2)) false }) :=
  onProm_sound h rfl

theorem execPromWalk_conflict (h : s.PromAt k i root .conflict true) : execPromWalk k s = .next ((s.takeInq k).takeConflict root) :=
  onProm_sound h rfl

/-- The end of a line's direction reaches a module in a promenade (R294). -/
theorem execPromEnd_finish {a d c : Nat} {r : Bool} (h : s.PromAt k i root (.finish a d c r) true) :
    let t := s.takeInq k
    execPromEnd k s = .next (if t.fab.prom.running then t.lineEnd (Fin.ofNat 3 a) (d % 2) c r else t) :=
  onProm_sound h rfl

theorem execPromSet_set {a n b rings : Nat} {r : Bool} {pos roots : Vector Nat 3}
    (h : s.PromAt k i root (.set a n b r pos roots rings) true) :
    execPromSet k s = .next ((s.takeInq k).takeSet i (a % 3) n b r pos roots rings) :=
  onProm_sound h rfl

theorem execPromReport_report {a n : Nat} (h : s.PromAt k i root (.report a n) true) :
    let t := s.takeInq k
    execPromReport k s = .next (if t.fab.prom.running then t.passReport a n else t) :=
  onProm_sound h rfl

theorem execPromDone_done {nx ny nz wx wy wz : Nat} (h : s.PromAt k i root (.done nx ny nz wx wy wz) true) :
    execPromDone k s = .next ((s.takeInq k).takeDone (some (portDir (Fin.ofNat 12 i))) nx ny nz wx wy wz) :=
  onProm_sound h rfl

theorem execPromAsk_ask (h : s.PromAt k i root .ask true) : execPromAsk k s = .next ((s.takeInq k).answerAsk i root) :=
  onProm_sound h rfl

/-- An answer on a port not asked is dropped; one on a port asked is kept, and the JOIN concludes with the last (R297). -/
theorem execPromAskAnswer_answer {a d r : Nat} {pos dims widths roots : Vector Nat 3}
    (h : s.PromAt k i root (.answer pos dims widths roots a d r) true) :
    let t := s.takeInq k
    let u := t.updProm fun q => { q with answers := q.answers ++ [joinCoords pos dims widths roots (a % 3) (d % 2) r],
                                         asked := q.asked.filter (· ≠ i) }
    execPromAskAnswer k s = .next (if t.fab.prom.asking = false ∨ t.fab.prom.asked.contains i = false then t
      else if u.fab.prom.asked.any u.fab.portUp then u else u.concludeJoin) := by
  intro t u
  have handled : execPromAskAnswer k s = .next (if !t.fab.prom.asking || !t.fab.prom.asked.contains i then t
      else if u.fab.prom.asked.any u.fab.portUp then u else u.concludeJoin) :=
    onProm_sound h rfl
  simpa only [Bool.or_eq_true, Bool.not_eq_true'] using handled

end

/-! ## The time-outs of a promenade -/

section
variable {s : State}

/-- A WALK without its acknowledgement ends its direction here (R293). -/
theorem execPromWalkTimeout_waiting {axis : Axis} {dir : Fin 2} (hon : s.fabricOn = true) (hrun : s.fab.prom.running = true)
    (hwait : s.fab.prom.waiting[(Fin.ofNat 6 (2 * axis.val + dir.val) : Fin 6)] = true) :
    execPromWalkTimeout axis dir s =
      .next ((s.updProm fun p => { p with waiting := p.waiting.set (Fin.ofNat 6 (2 * axis.val + dir.val) : Fin 6) false }).lineEnd
        axis dir.val (s.fab.prom.offset[axis]).natAbs false) := by
  simp only [execPromWalkTimeout]
  exact onlyIf_of_true (by rw [hon, hrun, hwait]; rfl)

/-- A promenade without DONE, or a module that none has reached, ends with TIMEOUT (R296). -/
theorem execPromenadeTimeout_unset (hon : s.fabricOn = true) (hset : s.start.settled = true) (hvalid : s.fab.valid = false)
    (hopen : s.fab.prom.running = true ∨ s.fab.promOut = 0) : execPromenadeTimeout s = .next (s.endProm 6) :=
  onlyIf_of_true (by simp [hon, hset, hvalid, hopen])

theorem execPromenadeTimeout_valid (hvalid : s.fab.valid = true) : execPromenadeTimeout s = .next s :=
  onlyIf_of_false (by simp [hvalid])

end

/-- Settles O35: a record by its CRC and its kind, the time-outs by what the module waits for. That a record is named by its place, that
PROM_WALK takes acknowledgements too, and that the JOIN concludes once every asked port that still carries traffic has answered, are the
model's choices (log 72); so is the way of a ROOT_CONFLICT record (log 115). -/
theorem promenade : Obligations.Promenade := by
  intro s
  refine ⟨fun k i p root m hon queued hmsg => ?records, fun axis dir => execPromWalkTimeout_waiting, execPromenadeTimeout_unset,
    execPromenadeTimeout_valid⟩
  case records =>
    have held (sound : Bool) (crc : p.crcOk = sound) : s.PromAt k i root m sound := ⟨hon, p, queued, hmsg, crc⟩
    refine ⟨fun crc => ?sound, execPromAsk_otherKind (held p.crcOk rfl), fun crc => ?damaged⟩
    case sound =>
      have record := held true crc
      refine ⟨?_, ?_, ?_, ?_, ?_, ?_, ?_, ?_, ?_⟩
      · rintro a d c rfl; exact execPromWalk_walk record
      · rintro a d rfl; exact execPromWalk_walkAck record
      · rintro rfl; exact execPromWalk_conflict record
      · rintro a d c r rfl; exact execPromEnd_finish record
      · rintro a n b r pos roots rings rfl; exact execPromSet_set record
      · rintro a n rfl; exact execPromReport_report record
      · rintro nx ny nz wx wy wz rfl; exact execPromDone_done record
      · rintro rfl; exact execPromAsk_ask record
      · rintro pos dims widths roots a d r rfl; exact execPromAskAnswer_answer record
    case damaged =>
      have record := held false crc
      refine ⟨?_, ?_, ?_, ?_, ?_⟩
      · rintro a d c rfl; exact (onProm_damaged record rfl : execPromWalk k s = _)
      · rintro a d c r rfl; exact (onProm_damaged record rfl : execPromEnd k s = _)
      · rintro a n b r pos roots rings rfl; exact (onProm_damaged record rfl : execPromSet k s = _)
      · rintro a n rfl; exact (onProm_damaged record rfl : execPromReport k s = _)
      · rintro rfl; exact (onProm_damaged record rfl : execPromAsk k s = _)

end Sys2Proof.Machine
end

section
/-! SUPPORT. The issue of collectives: the nine commands, the two issuers, a descriptor that fails its checks. -/

namespace Sys2Proof.Machine

/-! ## The commands and their operations -/

/-- The commands that issue a collective, each with the OP its descriptor holds (R319). -/
def collCommands : List (Nat × (CollSrc → Instr)) :=
  [(0, .allreduce), (1, .reduceScatter), (2, .allgather), (3, .alltoall), (4, .alltoallv), (5, .permute), (6, .multicast), (7, .barrier),
    (8, .sgather)]

theorem exec_collCommand {i : Nat} {cmd : CollSrc → Instr} (row : (i, cmd) ∈ collCommands) (src : CollSrc) (s : State) :
    exec (cmd src) s = s.issueCollOp src i := by
  simp only [collCommands, List.mem_cons, List.not_mem_nil, or_false, Prod.mk.injEq] at row
  rcases row with ⟨rfl, rfl⟩ | ⟨rfl, rfl⟩ | ⟨rfl, rfl⟩ | ⟨rfl, rfl⟩ | ⟨rfl, rfl⟩ | ⟨rfl, rfl⟩ | ⟨rfl, rfl⟩ | ⟨rfl, rfl⟩ | ⟨rfl, rfl⟩ <;> rfl

/-! ## A refused descriptor -/

/-- The state with a collective listed last in the table, no sequence number taken. -/
def State.listsColl (s : State) (c : Coll) : State :=
  { s with coll := { s.coll with colls := s.coll.colls ++ [c], nextId := s.coll.nextId + 1 } }

/-- A descriptor that fails its own checks is listed with BAD_DESC and does nothing else (R318, R320; logs 79 and 80). -/
theorem issueColl_badDesc {s : State} {raw : List Byte} (who : CollIssuer) (bad : (CDesc.mk raw).ok = false) :
    ∃ c, c.code = stBadDesc ∧ c.id = s.coll.nextId ∧ s.issueColl who raw = s.listsColl c := by
  unfold State.issueColl
  extract_lets d prog ms good l own cs c table t
  have refused : good = false := by simp only [good, show d.ok = false from bad, Bool.false_and]
  refine ⟨c, ?code, rfl, ?state⟩
  case code => simp only [c, refused, Bool.false_eq_true, if_false]
  case state => simp only [t, table, refused, Bool.false_eq_true, if_false, State.listsColl]

/-! ## Issue by a queue processor -/

section
variable {s : State} {n i : Nat} {d : List Byte}

theorem issueCollOp_qp (on : s.running = true) (up : s.procUp (qpProc n) = true) (len : d.length = 64) (hop : (CDesc.mk d).op = i) :
    s.issueCollOp (.qp n d) i = .next (s.issueColl (.qp (n % 4)) d) := by
  rw [State.issueCollOp]
  exact onlyIf_of_true (by simp [on, up, len, hop])

theorem issueCollOp_qp_otherOp (other : (CDesc.mk d).op ≠ i) : s.issueCollOp (.qp n d) i = .next s := by
  rw [State.issueCollOp]
  exact onlyIf_of_false (by simp [other])

end

/-! ## Issue by a core slot -/

/-- A slot whose descriptor holds the operation of the command issues as a `d.coll` (R54, R317). -/
theorem issueCollOp_core {s : State} {c : CoreId} {rs : SReg} {i : Nat}
    (hop : (CDesc.mk (storeRead s.cores[c].store (s.descAddr c rs) 64)).op = i) (g : Guard) (post : Option SemId) :
    s.issueCollOp (.core c g rs post) i = s.issueD c g (.async .coll rs post) := by
  have named : (g.holds s.cores[c].regs &&
      decide ((CDesc.mk (storeRead s.cores[c].store (s.descAddr c rs) 64)).op ≠ i)) = false := by simp [-Fin.getElem_fin, hop]
  exact if_neg (ne_true_of_eq_false named)

/-- Settles O27: the nine commands share how a queue processor and how a core slot issues them. That a descriptor of
another operation is not the command (log 32), that one refused with BAD_DESC takes no sequence number (log 79), and that SEG_CLASS comes before
SEM_CLASS and both before the stall (log 6), are the model's choices. -/
theorem collectivesIssue : Obligations.CollectivesIssue := by
  intro s i cmd row
  have command (src : CollSrc) : exec (cmd src) s = s.issueCollOp src i := exec_collCommand row src s
  refine ⟨fun n d on up len => ?queue, ?slot⟩
  case queue =>
    have issued (hop : (CDesc.mk d).op = i) : exec (cmd (.qp n d)) s = .next (s.issueColl (.qp (n % 4)) d) :=
      (command _).trans (issueCollOp_qp on up len hop)
    refine ⟨issued, fun other => (command _).trans (issueCollOp_qp_otherOp other), fun hop bad => ?refused⟩
    case refused =>
      obtain ⟨c, code, id, entered⟩ := issueColl_badDesc (s := s) (.qp (n % 4)) bad
      exact ⟨c, s.listsColl c, (issued hop).trans (congrArg _ entered), rfl, code, id, rfl, rfl, rfl⟩
  case slot =>
    intro c g rs post runs k j hop
    have slot : exec j s = s.issueD c g (.async .coll rs post) := (command _).trans (issueCollOp_core hop g post)
    rw [slot]
    exact ⟨fun h => issueD_starts h rfl, fun inside => issueD_async_inSeg runs inside .coll rs,
      fun closed bad => issueD_async_class runs closed bad .coll rs, fun closed ok full => issueD_async_full runs closed ok full .coll rs⟩

end Sys2Proof.Machine
end

section
/-! SUPPORT. The width and mode of a die-link module, by the group of lanes that has too many bad ones. -/

namespace Sys2Proof.Machine

section
variable {bad : BitVec 64}

/-! ## The rows of R355's table -/

theorem widthFor_full (low : laneCount bad 0 ≤ 2) (high : laneCount bad 32 ≤ 2) :
    widthFor bad = ⟨2, false, decide (laneCount bad 0 + laneCount bad 32 = 0), laneCount bad 0 + laneCount bad 32⟩ :=
  if_pos ⟨low, high⟩

theorem widthFor_highHalf (low : 2 < laneCount bad 0) (high : laneCount bad 32 ≤ 2) :
    widthFor bad = ⟨3, true, decide (laneCount bad 32 = 0), laneCount bad 32⟩ := by
  simp only [widthFor, Nat.not_le.mpr low, high, false_and, if_false, if_true]

theorem widthFor_lowHalf (low : laneCount bad 0 ≤ 2) (high : 2 < laneCount bad 32) :
    widthFor bad = ⟨3, false, decide (laneCount bad 0 = 0), laneCount bad 0⟩ := by
  simp only [widthFor, low, Nat.not_le.mpr high, and_false, if_false, if_true]

theorem widthFor_failed (low : 2 < laneCount bad 0) (high : 2 < laneCount bad 32) : widthFor bad = ⟨4, false, false, 0⟩ := by
  simp only [widthFor, Nat.not_le.mpr low, Nat.not_le.mpr high, false_and, if_false]

end

/-- A module that is up has side-lane mode where its width leaves side lanes free and both ends offer them. -/
theorem DlMod.setWidth_sideLane_iff (m : DlMod) (bad : BitVec 64) {w : LinkWidth} (up : w.state ≠ 4) (side : Bool) :
    (m.setWidth bad w side).inband = false ↔ w.sideFree = true ∧ side = true := by
  simp [DlMod.setWidth, up]

/-- Settles O36: each row of R355's table fixes the width, and whether side lanes are free. -/
theorem dieLinkWidth : Obligations.DieLinkWidth := by
  intro m bad side a b t
  have sideLane (up : (widthFor bad).state ≠ 4) : t.inband = false ↔ (widthFor bad).sideFree = true ∧ side = true :=
    m.setWidth_sideLane_iff bad up side
  refine ⟨fun low high => ?full, fun low high => ?highHalf, fun low high => ?lowHalf, fun low high => ?failed, rfl⟩
  case full =>
    have row := widthFor_full low high
    refine ⟨congrArg LinkWidth.state row, ?_⟩
    rw [sideLane (by simp [row]), row, decide_eq_true_iff, Nat.add_eq_zero_iff, and_assoc]
  case highHalf =>
    have row := widthFor_highHalf low high
    refine ⟨congrArg LinkWidth.state row, by simp [t, DlMod.setWidth, row], ?_⟩
    rw [sideLane (by simp [row]), row, decide_eq_true_iff]
  case lowHalf =>
    have row := widthFor_lowHalf low high
    refine ⟨congrArg LinkWidth.state row, by simp [t, DlMod.setWidth, row], ?_⟩
    rw [sideLane (by simp [row]), row, decide_eq_true_iff]
  case failed => exact congrArg LinkWidth.state (widthFor_failed low high)

end Sys2Proof.Machine
end

section
/-! SUPPORT. The admission of mailbox operations: when one is BUSY, how the row of an opcode is answered, and how an accepted operation
begins. -/

namespace Sys2Proof.Machine

/-! ## When an operation is BUSY (R408) -/

section
variable {s : State} {op : Nat}

theorem mbBusyNow_full (other : op ≠ 0x0013) (full : 16 ≤ s.mbx.ops.length) : s.mbBusyNow op = true := by
  simp only [State.mbBusyNow, if_neg other, if_pos full]

/-- An exclusive operation runs alone. -/
theorem mbBusyNow_exclusive (exclusive : exclusiveOp op = true) (some_live : s.mbx.ops ≠ []) : s.mbBusyNow op = true := by
  have other : op ≠ 0x0013 := by rintro rfl; exact absurd exclusive (by decide)
  by_cases full : 16 ≤ s.mbx.ops.length
  · exact mbBusyNow_full other full
  · simp [State.mbBusyNow, other, full, exclusive, some_live]

/-- An operation conflicts with one of its own opcode and with an exclusive one. -/
theorem mbBusyNow_conflict (other : op ≠ 0x0013) (conflict : ∃ x ∈ s.mbx.ops, x.op = op ∨ exclusiveOp x.op = true) :
    s.mbBusyNow op = true := by
  cases exclusive : exclusiveOp op with
  | true =>
    obtain ⟨x, live, -⟩ := conflict
    exact mbBusyNow_exclusive exclusive (List.ne_nil_of_mem live)
  | false =>
    by_cases full : 16 ≤ s.mbx.ops.length
    · exact mbBusyNow_full other full
    · simpa [State.mbBusyNow, other, full, exclusive] using conflict

theorem mbBusyNow_abort : s.mbBusyNow 0x0013 = s.mbx.ops.any fun x => x.op = 0x0013 := by
  rw [State.mbBusyNow, if_pos rfl]

theorem mbBusyNow_none_live (none_live : s.mbx.ops = []) : s.mbBusyNow op = false := by
  simp [State.mbBusyNow, none_live]

/-- A boundary operation is admitted beside operations of other opcodes, none of them exclusive. -/
theorem mbBusyNow_boundary (boundary : op ∈ boundaryOps) (free : s.mbx.ops.length < 16)
    (own : (s.mbx.ops.any fun x => x.op = op) = false) (exclusive : (s.mbx.ops.any fun x => exclusiveOp x.op) = false) :
    s.mbBusyNow op = false := by
  have not_exclusive : ∀ k ∈ boundaryOps, k ≠ 0x0013 ∧ exclusiveOp k = false := by decide
  obtain ⟨other, shared⟩ := not_exclusive op boundary
  simp only [List.any_eq_false, decide_eq_true_eq] at own exclusive
  simpa [State.mbBusyNow, other, Nat.not_le.mpr free, shared] using fun x live => ⟨own x live, by simpa using exclusive x live⟩

end

/-! ## The answer to an operation that may be accepted -/

/-- The operation that a request becomes when it is accepted, not started and with no outcome (R408). -/
abbrev MbxReq.operation (m : MbxReq) (ch : Chan) (cfg : Option JobConfig) : AccOp := ⟨ch, m.seq, m.op, m.payload, cfg, false, none⟩

section
variable {s : State} {ch : Chan} {m : MbxReq} {cfg : Option JobConfig} {op : Nat}

/-- A request that passes the checks, of an opcode that can be accepted: BUSY, then the opcode's own refusals, then ACCEPTED (R366, R400,
R408). -/
theorem mbServe_acceptable (h : s.passesMail ch m cfg) (acceptable : acceptingOp m.op = true) :
    s.mbServe ch m cfg =
      if s.mbBusyNow m.op = true then s.reply' ch m mbBusy []
      else if m.op = 0x0017 ∧ s.procHeld procSP = true then s.reply' ch m mbFailed []
      else if m.op = 0x0021 ∧ s.linkArgsOk m = false then s.reply' ch m mbArg []
      else (s.accepted ch m cfg).beginOp (m.operation ch cfg) := by
  obtain ⟨-, version, length, granted, attached, permitted⟩ := h
  have not_denied : (ch = .mgmt && (m.op = 0x0002 || m.op = 0x0015 || m.op = 0x0016)) = false := by
    simpa [mailDenied, and_assoc] using granted
  have in_session : (ch = .host && !s.hif.attached && !noSession m.op) = false := by
    simpa [State.mailUnattached] using attached
  simp only [State.mbServe, version, length, not_denied, in_session, permitted, acceptable, ne_eq, not_true_eq_false, Bool.not_true,
    Bool.false_eq_true, if_false, Bool.and_eq_true, decide_eq_true_eq, Bool.not_eq_true']
  rfl

theorem mbRow_eq_mbServe (h : s.servesMail ch m) (hop : m.op = op) : s.mbRow op ch m cfg = .next (s.mbServe ch m cfg) := by
  have up : s.chanUp ch = true := h.1
  rw [State.mbRow, onlyIf_of_true (by simp [hop, up]), serve_of_servesMail h]

theorem mbRow_busy (h : s.passesMail ch m cfg) (hop : m.op = op) (acceptable : acceptingOp op = true) (busy : s.mbBusyNow op = true) :
    s.mbRow op ch m cfg = .next (s.reply' ch m mbBusy []) := by
  subst hop
  rw [mbRow_eq_mbServe h.1 rfl, mbServe_acceptable h acceptable, if_pos busy]

theorem mbRow_accepted (h : s.passesMail ch m cfg) (hop : m.op = op) (acceptable : acceptingOp op = true) (free : s.mbBusyNow op = false)
    (sp_there : op ≠ 0x0017 ∨ s.procHeld procSP = false) (in_range : op ≠ 0x0021 ∨ s.linkArgsOk m = true) :
    s.mbRow op ch m cfg = .next ((s.accepted ch m cfg).beginOp (m.operation ch cfg)) := by
  subst hop
  rw [mbRow_eq_mbServe h.1 rfl, mbServe_acceptable h acceptable, if_neg (ne_true_of_eq_false free),
    if_neg fun ⟨reshard, held⟩ => sp_there.elim (· reshard) (ne_true_of_eq_false · held),
    if_neg fun ⟨test, bad⟩ => in_range.elim (· test) (ne_true_of_eq_false bad)]

/-- A re-shard cannot be carried out while the SP is held (R400). -/
theorem mbRow_reshard_held (h : s.passesMail ch m cfg) (hop : m.op = 0x0017) (free : s.mbBusyNow 0x0017 = false)
    (held : s.procHeld procSP = true) : s.mbRow 0x0017 ch m cfg = .next (s.reply' ch m mbFailed []) := by
  rw [mbRow_eq_mbServe h.1 hop, mbServe_acceptable h (by rw [hop]; decide), hop, if_neg (ne_true_of_eq_false free), if_pos ⟨rfl, held⟩]

theorem mbRow_linkTest_outOfRange (h : s.passesMail ch m cfg) (hop : m.op = 0x0021) (free : s.mbBusyNow 0x0021 = false)
    (bad : s.linkArgsOk m = false) : s.mbRow 0x0021 ch m cfg = .next (s.reply' ch m mbArg []) := by
  rw [mbRow_eq_mbServe h.1 hop, mbServe_acceptable h (by rw [hop]; decide), hop, if_neg (ne_true_of_eq_false free),
    if_neg fun ⟨reshard, _⟩ => absurd reshard (by decide), if_pos ⟨rfl, bad⟩]

/-- Only the permission of JOB_LOAD looks at a configuration. -/
theorem passesMail_none (h : s.passesMail ch m cfg) (other : m.op ≠ 0x0010) : s.passesMail ch m none := by
  obtain ⟨served, version, length, granted, attached, permitted⟩ := h
  have same : s.mbPermits m.op none = s.mbPermits m.op cfg := by
    unfold State.mbPermits
    split
    case h_1 load => exact absurd load other
    all_goals rfl
  exact ⟨served, version, length, granted, attached, same.trans permitted⟩

theorem mem_of_acceptingOp (h : acceptingOp op = true) :
    op ∈ [0x0010, 0x0011, 0x0012, 0x0013, 0x0015, 0x0016, 0x0017, 0x0019, 0x0020, 0x0021] := by
  simp only [acceptingOp, exclusiveOp, boundaryOps, Bool.or_eq_true, List.contains_iff_mem, decide_eq_true_eq] at h
  grind

/-- The command of an opcode that can be accepted is its row; JOB_LOAD and RESHARD alone carry a configuration (R409). -/
theorem exec_mailRow_acceptable {i : Instr} (row : mailRow op ch m cfg = some i) (acceptable : acceptingOp op = true) :
    exec i s = s.mbRow op ch m (if op = 0x0010 ∨ op = 0x0017 then cfg else none) := by
  have listed := mem_of_acceptingOp acceptable
  simp only [List.mem_cons, List.not_mem_nil, or_false] at listed
  rcases listed with rfl | rfl | rfl | rfl | rfl | rfl | rfl | rfl | rfl | rfl <;> (cases row; rfl)

theorem exec_mailRow_busy {i : Instr} (h : s.passesMail ch m cfg) (row : mailRow m.op ch m cfg = some i) (acceptable : acceptingOp m.op = true)
    (busy : s.mbBusyNow m.op = true) : exec i s = .next (s.reply' ch m mbBusy []) := by
  rw [exec_mailRow_acceptable row acceptable]
  split
  case isTrue => exact mbRow_busy h rfl acceptable busy
  case isFalse bare => exact mbRow_busy (passesMail_none h fun load => bare (.inl load)) rfl acceptable busy

end

/-! ## How an accepted operation begins -/

/-- The state with a message of the MP at the leader's queue processor (R408, R417). -/
abbrev State.tellsQp (s : State) : State := s.message procMP (qpProc (s.leader.getD 0))

section
variable {s : State} {o : AccOp}

theorem beginOp_jobLoad (h : o.op = 0x0010) : s.beginOp o = s.tellsQp.startLoad o := by
  simp [State.beginOp, h, qpServed]

theorem beginOp_jobResume (h : o.op = 0x0012) : s.beginOp o = s.tellsQp.startResume o := by
  simp [State.beginOp, h, qpServed]

theorem beginOp_jobAbort (h : o.op = 0x0013) : s.beginOp o = s.tellsQp.abortNow := by
  simp [State.beginOp, h, qpServed]

theorem beginOp_promenade (h : o.op = 0x0020) : s.beginOp o = (s.startOp o).runPromenade := by
  simp [State.beginOp, h, qpServed]

theorem beginOp_linkTest (h : o.op = 0x0021) : s.beginOp o = s.startLinkTest o := by
  simp [State.beginOp, h, qpServed]

/-- An operation of the boundary class waits for its step boundary, which is now while no step runs (R408). -/
theorem beginOp_boundary (h : o.op ∈ boundaryOps) : s.beginOp o = s.tellsQp.serveBoundary := by
  simp only [boundaryOps, List.mem_cons, List.not_mem_nil, or_false] at h
  rcases h with h | h | h | h | h <;> simp [State.beginOp, h, qpServed]

theorem startLoad_none (h : o.cfg = none) : s.startLoad o = s.finishOp o mbArg := by simp only [State.startLoad, h]

theorem startLoad_some {c : JobConfig} (h : o.cfg = some c) :
    let r := (s.setJob 1).loadJob c
    s.startLoad o = if r.2 = true then r.1.startOp o else (r.1.setJob 0).finishOp o mbArg := by
  rcases loaded : (s.setJob 1).loadJob c with ⟨t, _ | _⟩ <;> simp [State.startLoad, h, loaded]

end

/-- The row of a boundary operation that is free to be admitted (R408). -/
theorem mbRow_boundary {s : State} {ch : Chan} {m : MbxReq} {cfg : Option JobConfig} {op : Nat} (h : s.passesMail ch m cfg) (hop : m.op = op)
    (boundary : op ∈ boundaryOps) (free : s.mbBusyNow op = false) (sp_there : op ≠ 0x0017 ∨ s.procHeld procSP = false) :
    s.mbRow op ch m cfg = .next (s.accepted ch m cfg).tellsQp.serveBoundary := by
  have listed : ∀ k ∈ boundaryOps, acceptingOp k = true ∧ k ≠ 0x0021 := by decide
  obtain ⟨acceptable, other⟩ := listed op boundary
  rw [mbRow_accepted h hop acceptable free sp_there (.inl other), beginOp_boundary (hop.symm ▸ boundary : m.op ∈ boundaryOps)]

/-- Settles O48: an opcode that can be accepted is BUSY as its class says, and else begins as the opcode says. That ARG comes after the
other checks is the model's choice (log 55), and that a JOB_LOAD without a configuration ends with ARG (log 56). -/
theorem mailboxAdmission : Obligations.MailboxAdmission := by
  intro s ch m cfg pass live o t b exclusive
  refine ⟨fun i row acceptable => ?busy, fun none_live => ?alone, ?abort, fun room own no_exclusive => ?boundary⟩
  case busy =>
    have answer := exec_mailRow_busy pass row acceptable
    refine ⟨fun other full => answer (mbBusyNow_full other full), fun alone some_live => answer (mbBusyNow_exclusive alone some_live),
      fun other conflict => answer (mbBusyNow_conflict other conflict), fun abort ⟨x, outstanding, same⟩ => answer ?_⟩
    rw [abort, mbBusyNow_abort]
    exact List.any_eq_true.mpr ⟨x, outstanding, decide_eq_true same⟩
  case alone =>
    have begins {op : Nat} (hop : m.op = op) (acceptable : acceptingOp op = true) (other : op ≠ 0x0017)
        (in_range : op ≠ 0x0021 ∨ s.linkArgsOk m = true) : s.mbRow op ch m cfg = .next (t.beginOp o) :=
      mbRow_accepted pass hop acceptable (mbBusyNow_none_live none_live) (.inl other) in_range
    refine ⟨fun hop bare => ?loadBare, fun c hop given => ?load, ?resume, ?promenade, ?linkTest, ?linkRange⟩
    case loadBare =>
      rw [exec_jobLoad, execJobLoad, begins hop (by decide) (by decide) (.inl (by decide)), beginOp_jobLoad hop, startLoad_none bare]
    case load =>
      intro r
      rw [exec_jobLoad, execJobLoad, begins hop (by decide) (by decide) (.inl (by decide)), beginOp_jobLoad hop, startLoad_some given]
    case resume =>
      rintro hop rfl
      rw [exec_jobResume, execJobResume, begins hop (by decide) (by decide) (.inl (by decide)), beginOp_jobResume hop]
    case promenade =>
      rintro hop rfl
      rw [exec_promenade, execPromenade, begins hop (by decide) (by decide) (.inl (by decide)), beginOp_promenade hop]
    case linkTest =>
      rintro hop rfl in_range
      rw [exec_linkTest, execLinkTest, begins hop (by decide) (by decide) (.inr in_range), beginOp_linkTest hop]
    case linkRange =>
      rintro hop rfl bad
      exact mbRow_linkTest_outOfRange pass hop (mbBusyNow_none_live none_live) bad
  case abort =>
    rintro hop rfl no_abort
    rw [exec_jobAbort, execJobAbort, mbRow_accepted pass hop (by decide) (mbBusyNow_abort.trans no_abort) (.inl (by decide)) (.inl (by decide)),
      beginOp_jobAbort hop]
  case boundary =>
    have free {op : Nat} (hop : m.op = op) (boundary : op ∈ boundaryOps) : s.mbBusyNow op = false :=
      mbBusyNow_boundary boundary room (hop ▸ own) no_exclusive
    have waits {op : Nat} (hop : m.op = op) (boundary : op ∈ boundaryOps) (sp_there : op ≠ 0x0017 ∨ s.procHeld procSP = false) :
        s.mbRow op ch m cfg = .next b.serveBoundary :=
      mbRow_boundary pass hop boundary (free hop boundary) sp_there
    refine ⟨?park, ?exports, ?imports, fun hop sp_there => ?reshard, fun hop held => ?reshardHeld, ?checkpoint⟩
    case park => rintro hop rfl; exact waits hop (by decide) (.inl (by decide))
    case exports => rintro hop rfl; exact waits hop (by decide) (.inl (by decide))
    case imports => rintro hop rfl; exact waits hop (by decide) (.inl (by decide))
    case reshard => exact waits hop (by decide) (.inr sp_there)
    case reshardHeld => exact mbRow_reshard_held pass hop (free hop (by decide)) held
    case checkpoint => rintro hop rfl; exact waits hop (by decide) (.inl (by decide))

end Sys2Proof.Machine
end

section
/-! SUPPORT. Every command answers a next state that has the waiting commands of the old one and is secure when it is: what the shared operations answer,
then each command with branches of its own, then all commands together. -/

namespace Sys2Proof.Machine

/-! ## Ending with a next state that keeps the queue and the security of lifecycle FIELD -/

/-- A result is a next state that keeps the waiting commands, and security where there is any. -/
def Answers (s : State) (r : Res) : Prop := ∃ t, r = .next t ∧ Keeps s t

section
variable {s u t : State} {r : Res} {b : Bool}

theorem Answers.next (k : Keeps s t) : Answers s (.next t) := ⟨t, rfl, k⟩

theorem Answers.frame (h : t.quiet = s.quiet) : Answers s (.next t) := .next (.of_quiet h)

theorem Answers.stay : Answers s (.next s) := .frame rfl

theorem Answers.before (h : u.quiet = s.quiet) (a : Answers u r) : Answers s r := by
  obtain ⟨t, e, k⟩ := a
  exact ⟨t, e, k.before h⟩

theorem Answers.of_total (e : ∃ t, r = .next t) (k : ∀ {t}, r = .next t → t.quiet = s.quiet) : Answers s r := by
  obtain ⟨t, e⟩ := e
  exact ⟨t, e, .of_quiet (k e)⟩

theorem Answers.of_keeps (e : ∃ t, r = .next t) (k : ∀ {t}, r = .next t → Keeps s t) : Answers s r := by
  obtain ⟨t, e⟩ := e
  exact ⟨t, e, k e⟩

/-! ## The shared operations -/

theorem onlyIf_total {f : State → Res} (h : ∃ t, f s = .next t) : ∃ t, onlyIf b s f = .next t := by
  cases b
  · exact ⟨s, rfl⟩
  · exact h

/-- An event that has one effect, when its conditions hold. -/
theorem onlyIf_next_total (g : State → State) : ∃ t, onlyIf b s (fun s => .next (g s)) = .next t := onlyIf_total ⟨_, rfl⟩

theorem onlyIf_answers {f : State → Res} (a : Answers s (f s)) : Answers s (onlyIf b s f) := by
  cases b
  · exact .stay
  · exact a

theorem onlyIf_next_frame {g : State → State} (h : (g s).quiet = s.quiet) : Answers s (onlyIf b s fun s => .next (g s)) :=
  onlyIf_answers (.frame h)

theorem State.issue_total {c : CoreId} {w : Bundle} : ∃ t, s.issue c w = .next t := by
  unfold State.issue
  split
  · exact ⟨s, rfl⟩
  · dsimp only
    split <;> exact ⟨_, rfl⟩

theorem State.issueS_answers {c : CoreId} {g : Guard} {op : SOp} : Answers s (s.issueS c g op) := .of_total issue_total issueS_quiet

theorem State.issueM_answers {c : CoreId} {g : Guard} {op : MOp} : Answers s (s.issueM c g op) := .of_total issue_total issueM_quiet

theorem State.issueV_answers {c : CoreId} {g : Guard} {op : VOp} : Answers s (s.issueV c g op) := .of_total issue_total issueV_quiet

theorem State.issueD_answers {c : CoreId} {g : Guard} {op : DOp} : Answers s (s.issueD c g op) := .of_total issue_total issueD_quiet

theorem State.fetch_total {c : CoreId} : ∃ t, s.fetch c = .next t := by
  unfold State.fetch
  split
  · exact ⟨s, rfl⟩
  · dsimp only
    split
    · exact issue_total
    · split
      · exact ⟨_, rfl⟩
      · split
        · exact ⟨_, rfl⟩
        · exact issue_total

theorem State.onDelivered_answers {k : Nat} {want : Msg → Bool} {f : State → Packet → Res}
    (a : ∀ p, Answers (s.takeDeliv k) (f (s.takeDeliv k) p)) : Answers s (s.onDelivered k want f) := by
  unfold State.onDelivered
  split
  · exact .stay
  · split
    · exact .stay
    · split
      · exact .frame (by simp)
      · exact .before (takeDeliv_quiet ..) (a _)

theorem State.onResponse_answers {k : Nat} {want : Msg → Bool} : Answers s (s.onResponse k want) := by
  refine onDelivered_answers fun p => ?_
  split <;> exact .frame (by simp)

theorem State.onResponse_total {k : Nat} {want : Msg → Bool} : ∃ t, s.onResponse k want = .next t := by
  obtain ⟨t, answer, -⟩ := onResponse_answers (s := s) (k := k) (want := want)
  exact ⟨t, answer⟩

theorem State.onOp_answers {c : CoreId} {op : Nat} {f : Op → Res} (a : ∀ o, Answers s (f o)) : Answers s (s.onOp c op f) := by
  unfold State.onOp
  split
  · exact .stay
  · exact a _

theorem State.onProm_answers {k : Nat} {want : PromMsg → Bool} {f : State → Nat → W64 → PromMsg → State}
    (h : ∀ t i root m, (f t i root m).quiet = t.quiet) : Answers s (s.onProm k want f) := by
  refine onlyIf_answers ?_
  split
  · split
    · split
      · exact .stay
      · split <;> exact .frame (by simp [h])
    · exact .stay
  · exact .stay

theorem State.startOf_answers {q : QId} {seq : W32} {opc : Nat} {f : State → Sqe → Res} (a : ∀ e, Answers s (f s e)) :
    Answers s (s.startOf q seq opc f) := by
  unfold State.startOf
  split
  · exact .stay
  · split
    · exact .stay
    · split
      · exact .frame (by simp)
      · exact a _

theorem State.queueWrite_answers {q : QId} {seq : W32} {a : Nat} {bs : List Byte} : Answers s (s.queueWrite q seq a bs) :=
  .of_total ⟨_, rfl⟩ queueWrite_quiet

theorem State.tapTake_answers {ir : Nat} {f : State → Res} (a : Answers (s.tapSelect ir) (f (s.tapSelect ir))) :
    Answers s (s.tapTake ir b f) := by
  unfold State.tapTake
  split
  · exact .stay
  · split
    · exact .before (tapSelect_quiet ..) a
    · exact .frame (tapSelect_quiet s 0)

theorem State.tapTake_next_frame {ir : Nat} {g : State → State} (h : ∀ t, (g t).quiet = t.quiet) :
    Answers s (s.tapTake ir b fun s => .next (g s)) := tapTake_answers (.frame (h _))

theorem State.mbRow_answers {op : Nat} {ch : Chan} {m : MbxReq} {cfg : Option JobConfig} : Answers s (s.mbRow op ch m cfg) :=
  onlyIf_next_frame (serve_quiet ..)

theorem State.issueXfer_answers {c : CoreId} {g : Guard} {rs : SReg} {post : Option SemId} {k : Nat} :
    Answers s (s.issueXfer c g rs post k) := by
  unfold State.issueXfer
  dsimp only
  split
  · exact .stay
  · exact issueD_answers

theorem State.issueCollOp_answers {src : CollSrc} {k : Nat} : Answers s (s.issueCollOp src k) := by
  cases src with
  | core c g rs post =>
    dsimp only [State.issueCollOp]
    split
    · exact .stay
    · exact issueD_answers
  | qp n desc =>
    unfold State.issueCollOp
    refine onlyIf_answers ?_
    exact .frame (issueColl_quiet ..)

end
/-! ## Operations of the cores that complete -/

section
variable {s : State} {c : CoreId} {op : Nat}

theorem execXferComplete_answers : Answers s (execXferComplete c op s) := by
  refine onlyIf_answers (State.onOp_answers fun o => ?_)
  split
  · exact .frame (by simp [apply_ite State.quiet])
  · exact .stay

theorem execDCopyComplete_answers : Answers s (execDCopyComplete c op s) := by
  refine onlyIf_answers (State.onOp_answers fun o => ?_)
  split
  · exact .frame (by simp)
  · exact .stay

theorem execImemLoadComplete_answers : Answers s (execImemLoadComplete c op s) := by
  refine onlyIf_answers (State.onOp_answers fun o => ?_)
  split
  · exact .frame (by simp)
  · exact .stay

theorem execGatherComplete_answers : Answers s (execGatherComplete c op s) := by
  refine onlyIf_answers (State.onOp_answers fun o => ?_)
  split
  · exact .frame (by simp [apply_ite State.quiet])
  · exact .stay

theorem execScatterComplete_answers : Answers s (execScatterComplete c op s) := by
  refine onlyIf_answers (State.onOp_answers fun o => ?_)
  split
  · exact .frame (by simp [apply_ite State.quiet])
  · exact .stay

theorem execFlushComplete_answers : Answers s (execFlushComplete c op s) := by
  refine onlyIf_answers (State.onOp_answers fun o => ?_)
  split
  · exact .frame (by simp [apply_ite State.quiet])
  · exact .stay

theorem execDispatchComplete_answers : Answers s (execDispatchComplete c op s) := by
  refine onlyIf_answers (State.onOp_answers fun o => ?_)
  split
  · exact .frame (by simp [apply_ite State.quiet])
  · exact .stay

theorem execCollectComplete_answers : Answers s (execCollectComplete c op s) := by
  refine onlyIf_answers (State.onOp_answers fun o => ?_)
  split
  · exact .frame (by simp [apply_ite State.quiet])
  · exact .stay

theorem execRemotePostDeliver_answers : Answers s (execRemotePostDeliver c op s) := by
  refine onlyIf_answers (State.onOp_answers fun o => ?_)
  split
  · split
    · exact .frame (by simp)
    · exact .stay
  · exact .stay

theorem execPartnerCmdTimeout_answers : Answers s (execPartnerCmdTimeout c op s) := by
  unfold execPartnerCmdTimeout
  split
  · refine onlyIf_answers ?_
    split
    · exact .frame (State.setXfer_quiet ..)
    · exact .stay
  · exact .stay

end

/-! ## Packets of the fabric and of partner dies -/

section
variable {s : State} {k : Nat}

theorem execCollJoin_answers : Answers s (execCollJoin k s) := by
  refine onlyIf_answers (State.onDelivered_answers fun p => ?_)
  split
  · dsimp only
    split <;> exact .frame (by simp)
  · exact .stay

theorem execCollData_answers : Answers s (execCollData k s) := by
  refine onlyIf_answers (State.onDelivered_answers fun p => ?_)
  split
  · split
    · exact .frame (by simp)
    · split <;> exact .frame (by simp)
  · exact .stay

theorem execCollAck_answers : Answers s (execCollAck k s) := by
  refine onlyIf_answers (State.onDelivered_answers fun p => ?_)
  split
  · dsimp only
    split <;> exact .frame (by simp)
  · exact .stay

theorem execDetach_answers : Answers s (execDetach k s) := by
  refine onlyIf_answers (State.onDelivered_answers fun p => ?_)
  split
  · split
    · exact .stay
    · exact .frame (by simp [foldl_quiet])
  · exact .stay

theorem execRdReq_answers {site : Option AccId} : Answers s (execRdReq site k s) := by
  refine onlyIf_answers ?_
  split
  · refine State.onDelivered_answers fun p => ?_
    split
    · next a n _ =>
      have served := State.serveRead_quiet (s.takeDeliv k) p.src a n
      generalize (s.takeDeliv k).serveRead p.src a n = x at served ⊢
      exact .frame (by simp only [foldl_quiet, State.route_quiet, served, implies_true])
    · exact .stay
  · next i =>
    have taken := State.takeAcc_quiet s i k
    split
    · next s' heq =>
      rw [heq] at taken
      split
      · exact .frame (by simp [apply_ite State.quiet, taken])
      · exact .stay
    · exact .stay

theorem execWr_answers {site : Option AccId} : Answers s (execWr site k s) := by
  refine onlyIf_answers ?_
  split
  · refine State.onDelivered_answers fun p => ?_
    split
    · next a wb bs _ =>
      have served := State.serveWrite_quiet (s.takeDeliv k) p.src a wb bs
      generalize (s.takeDeliv k).serveWrite p.src a wb bs = x at served ⊢
      exact .frame (by simp only [State.wrAnswer_quiet, served])
    · exact .stay
  · next i =>
    have taken := State.takeAcc_quiet s i k
    split
    · next s' heq =>
      rw [heq] at taken
      split
      · next a wb bs _ =>
        split
        · exact .frame (by simp only [State.wrAnswer_quiet, State.accessRecord_quiet, taken])
        · have served := State.serveWrite_quiet s' (whoPartner i.val) a wb bs
          generalize s'.serveWrite (whoPartner i.val) a wb bs = x at served ⊢
          exact .frame (by simp only [State.wrAnswer_quiet, served, taken])
      · exact .stay
    · exact .stay

theorem execPost_answers : Answers s (execPost k s) := by
  refine onlyIf_answers (State.onDelivered_answers fun p => ?_)
  split
  · exact .frame (by simp)
  · exact .stay

theorem execCkptData_answers : Answers s (execCkptData k s) := by
  refine State.onDelivered_answers fun p => ?_
  split
  · dsimp only
    split <;> exact .frame (by simp)
  · exact .stay

theorem execCkptAck_answers : Answers s (execCkptAck k s) := by
  refine State.onDelivered_answers fun p => ?_
  split
  · split
    · exact .stay
    · split
      · exact .stay
      · split <;> exact .frame (by simp)
  · exact .stay

theorem execCkptHold_answers : Answers s (execCkptHold k s) := by
  refine State.onDelivered_answers fun p => ?_
  split
  · split
    · exact .frame (by simp)
    · split
      · exact .frame (by simp)
      · exact .frame (by simp only [State.payState_quiet, apply_ite State.quiet, State.failNow_quiet, State.putHeader_quiet, State.ackCkpt_quiet,
          quiet_upd, ite_self])
  · exact .stay

theorem execCkptState_answers : Answers s (execCkptState k s) := by
  refine State.onDelivered_answers fun p => ?_
  split
  · split <;> exact .frame (by simp)
  · exact .stay

theorem execCkptGo_answers : Answers s (execCkptGo k s) := by
  refine State.onDelivered_answers fun p => ?_
  split
  · split <;> exact .frame (by simp)
  · exact .stay

theorem execPromWalk_answers : Answers s (execPromWalk k s) :=
  State.onProm_answers fun _ _ _ _ => by split <;> simp

theorem execPromEnd_answers : Answers s (execPromEnd k s) :=
  State.onProm_answers fun _ _ _ _ => by split <;> simp [apply_ite State.quiet]

theorem execPromSet_answers : Answers s (execPromSet k s) :=
  State.onProm_answers fun _ _ _ _ => by split <;> simp

theorem execPromReport_answers : Answers s (execPromReport k s) :=
  State.onProm_answers fun _ _ _ _ => by split <;> simp [apply_ite State.quiet]

theorem execPromDone_answers : Answers s (execPromDone k s) :=
  State.onProm_answers fun _ _ _ _ => by split <;> simp

theorem execPromAsk_answers : Answers s (execPromAsk k s) := State.onProm_answers fun _ _ _ _ => State.answerAsk_quiet ..

theorem execPromAskAnswer_answers : Answers s (execPromAskAnswer k s) :=
  State.onProm_answers fun _ _ _ _ => by split <;> simp [apply_ite State.quiet]

end

/-! ## Memory, update units, the host and the firmware -/

section
variable {s : State}

theorem execHbmUncorr_answers {addr : Nat} : Answers s (execHbmUncorr addr s) := by
  unfold execHbmUncorr
  split
  · exact onlyIf_next_frame (by simp [apply_ite State.quiet])
  · exact onlyIf_next_frame (by simp)
  · exact .stay

theorem execUpdSweep1_answers {n : CelId} : Answers s (execUpdSweep1 n s) := by
  unfold execUpdSweep1
  split
  · exact .stay
  · refine onlyIf_answers ?_
    split
    · exact .stay
    · next r _ _ g _ =>
      have swept := State.sweep1_quiet s (s.updCtx n r) g
      dsimp only
      generalize s.sweep1 (s.updCtx n r) g = x at swept ⊢
      exact .frame (by simp only [apply_ite State.quiet, State.formNorms_quiet, State.drawn_quiet, quiet_upd, swept, ite_self])

theorem execUpdSweep2_answers {n : CelId} : Answers s (execUpdSweep2 n s) := by
  unfold execUpdSweep2
  split
  · exact .stay
  · refine onlyIf_answers ?_
    split
    · exact .frame (by simp [apply_ite State.quiet])
    · split
      · exact .stay
      · exact .frame (by simp [apply_ite State.quiet])

theorem execMapSwitchDrained_answers : Answers s (execMapSwitchDrained s) := by
  unfold execMapSwitchDrained
  split
  · exact .stay
  · exact onlyIf_next_frame (by simp)

theorem execHostCompletionTimeout_answers {w : ReqOwner} : Answers s (execHostCompletionTimeout w s) := by
  unfold execHostCompletionTimeout
  split
  · dsimp only
    split
    · split
      · exact onlyIf_next_frame (State.setXfer_quiet ..)
      · exact .stay
    · exact .stay
  · dsimp only
    split
    · exact .frame (by simp)
    · exact .stay
  · split
    · split
      · exact .frame (State.finishOp_quiet ..)
      · exact .stay
    · exact .stay

theorem execExportComplete_answers : Answers s (execExportComplete s) := by
  unfold execExportComplete
  split
  · exact .stay
  · next o _ =>
    refine onlyIf_answers ?_
    have run := State.runExport_quiet s o
    generalize s.runExport o = x at run ⊢
    exact .frame (by simp only [State.serveBoundary_quiet, State.finishOp_quiet, run])

theorem execImportComplete_answers : Answers s (execImportComplete s) := by
  unfold execImportComplete
  split
  · exact .stay
  · next o _ =>
    refine onlyIf_answers ?_
    have run := State.runImport_quiet s o
    generalize s.runImport o = x at run ⊢
    exact .frame (by simp only [State.serveBoundary_quiet, State.finishOp_quiet, run])

theorem execRestoreComplete_answers : Answers s (execRestoreComplete s) := by
  unfold execRestoreComplete
  split
  · exact .stay
  · exact onlyIf_next_frame (by simp)

theorem execVatResetDone_answers {ok : Bool} : Answers s (execVatResetDone ok s) := by
  unfold execVatResetDone
  split
  · exact .stay
  · exact onlyIf_next_frame (by simp)

theorem execPortsSettled_answers : Answers s (execPortsSettled s) := by
  refine onlyIf_answers ?_
  dsimp only
  split
  · exact .frame (by simp)
  · split <;> exact .frame (by simp)

theorem execQCopyIn_answers {q : QId} {seq : W32} : Answers s (execQCopyIn q seq s) := by
  refine State.startOf_answers fun e => ?_
  split
  · exact .frame (State.startEntry_quiet ..)
  · exact State.queueWrite_answers

theorem execQCopyOut_answers {q : QId} {seq : W32} : Answers s (execQCopyOut q seq s) := by
  refine State.startOf_answers fun e => ?_
  split
  · exact .frame (State.startEntry_quiet ..)
  · exact .frame (by simp [apply_ite State.quiet])

theorem execQBatch_answers {q : QId} {seq : W32} : Answers s (execQBatch q seq s) := by
  refine State.startOf_answers fun e => ?_
  dsimp only
  split
  · exact .frame (State.startEntry_quiet ..)
  · split
    · exact .frame (State.startEntry_quiet ..)
    · split
      · exact .stay
      · exact .frame (by simp)

theorem execQPost_answers {q : QId} {seq : W32} : Answers s (execQPost q seq s) := by
  refine State.startOf_answers fun e => ?_
  dsimp only
  split
  · exact .frame (State.startEntry_quiet ..)
  · split
    · exact .frame (State.startEntry_quiet ..)
    · exact .frame (by simp)

theorem execStepEndBarrier_answers {govf : Bool} {ftz total : Nat} : Answers s (execStepEndBarrier govf ftz total s) := by
  refine onlyIf_answers ?_
  dsimp only
  exact .frame (State.endStep_quiet ..)

theorem execTapRegRead_answers {sp : RegSpace} {off size : Nat} : Answers s (execTapRegRead sp off size s) := by
  refine State.tapTake_answers ?_
  have read := State.regRead_quiet (s.tapSelect irRegRead) .tap sp off size
  generalize (s.tapSelect irRegRead).regRead .tap sp off size = x at read ⊢
  exact .frame (by simp only [State.tapOut_quiet, read])

theorem execTapMemRead_answers {addr len : Nat} : Answers s (execTapMemRead addr len s) := by
  refine State.tapTake_answers ?_
  have read := State.tapRead_quiet (s.tapSelect irMemRead) addr len
  generalize (s.tapSelect irMemRead).tapRead addr len = x at read ⊢
  exact .frame (by simp only [State.tapOut_quiet, read])

theorem execTapResume_answers {x : TapTarget} : Answers s (execTapResume x s) := by
  refine State.tapTake_answers (.of_keeps ?_ State.resumeTarget_keeps)
  unfold State.resumeTarget
  split
  · split <;> exact ⟨_, rfl⟩
  · exact ⟨_, rfl⟩

theorem execTapStep_answers {x : TapTarget} : Answers s (execTapStep x s) := by
  refine State.tapTake_answers (.of_total ?_ State.stepTarget_quiet)
  unfold State.stepTarget
  split
  · exact ⟨_, rfl⟩
  · next c =>
    split
    · exact ⟨_, rfl⟩
    · obtain ⟨t, fetched⟩ := State.fetch_total (s := (s.tapSelect irStep).updCore c fun x => { x with ctl := { x.ctl with tapHalt := false } }) (c := c)
      rw [fetched]
      exact ⟨_, rfl⟩

theorem execTapIeee1500_answers {die : Nat} : Answers s (execTapIeee1500 die s) := by
  refine State.tapTake_answers ?_
  exact .frame (by simp)

theorem execTapStandAlone_answers {die : Nat} : Answers s (execTapStandAlone die s) := by
  refine State.tapTake_answers ?_
  exact .frame (by simp [apply_ite State.quiet])

theorem execTapFlash_answers {off len : Nat} {data : Option (List Byte)} : Answers s (execTapFlash off len data s) := by
  refine State.tapTake_answers ?_
  split <;> exact .frame (by simp)

end

/-! ## Power, start and the lifecycle -/

section
variable {s : State}

theorem execCoolant_answers {inlet flow : Nat} : Answers s (execCoolant inlet flow s) := by
  refine onlyIf_answers ?_
  dsimp only
  split
  · refine .next ?_
    exact .before (by simp) (State.abandonStart_keeps _ _)
  · split
    · exact .frame (by simp)
    · exact .frame (by simp [apply_ite State.quiet])

theorem execCoolantLow_answers {inlet : Nat} : Answers s (execCoolantLow inlet s) := by
  refine onlyIf_answers ?_
  dsimp only
  split
  · refine .next ?_
    exact .before (by simp) (State.abandonStart_keeps _ _)
  · exact .frame (by simp)

theorem execClockLoss_answers {die cause : Nat} : Answers s (execClockLoss die cause s) := by
  refine onlyIf_answers (.next ?_)
  exact .before (by simp) (State.enterP4_keeps _ _)

theorem execTrip_answers {sensor reading : Nat} : Answers s (execTrip sensor reading s) := by
  unfold execTrip
  dsimp only
  refine onlyIf_answers (.next ?_)
  exact .before (State.setSensor_quiet ..) (State.trip_keeps ..)

theorem execPartnerTempLoss_answers {site : AccId} : Answers s (execPartnerTempLoss site s) := by
  refine onlyIf_answers (.next ?_)
  have tripped := State.trip_keeps (s.drawn 1) (0x1a + site.val) (Config.order s.free 0 65536)
  exact .before (State.drawn_quiet s 1) (tripped.after (by simp only [quiet_upd]))

theorem execDieTemp_answers {sensor reading : Nat} : Answers s (execDieTemp sensor reading s) := by
  unfold execDieTemp
  dsimp only
  refine onlyIf_answers ?_
  split <;> exact .frame (by simp [State.withPower_quiet])

theorem execDieTempRecover_answers {sensor reading : Nat} : Answers s (execDieTempRecover sensor reading s) := by
  unfold execDieTempRecover
  dsimp only
  refine onlyIf_answers ?_
  exact .frame (by simp [State.withPower_quiet])

theorem execCoolantRecover_answers {inlet : Nat} {flow : FlowFacts} : Answers s (execCoolantRecover inlet flow s) := by
  refine onlyIf_answers ?_
  exact .frame (by simp [State.withPower_quiet])

theorem execP2DelayExpiry_answers {v : VatId} : Answers s (execP2DelayExpiry v s) := by
  unfold execP2DelayExpiry
  dsimp only
  refine onlyIf_answers ?_
  exact .frame (by simp [State.withPower_quiet])

theorem execRideThroughExpiry_answers {mv : Nat} : Answers s (execRideThroughExpiry mv s) := by
  refine onlyIf_answers ?_
  exact .frame (by simp [State.withPower_quiet])

theorem execModResetNFall_answers : Answers s (execModResetNFall s) := by
  refine onlyIf_answers (.next ?_)
  dsimp only
  generalize counted : (if s.pwr.protect.isSome then _ else s : State) = u
  have same : u.quiet = s.quiet := by
    rw [← counted]
    split <;> rfl
  exact .before same ((State.enterP4_keeps u 0).after (by simp only [quiet_upd]))

theorem execOvervoltage_answers {mv : Nat} : Answers s (execOvervoltage mv s) := by
  refine onlyIf_answers ?_
  dsimp only
  split
  · exact .frame (by simp)
  · refine .next ?_
    exact .before (by simp) (State.enterP4_keeps _ 2)

theorem execSag_answers {mv : Nat} : Answers s (execSag mv s) := by
  refine onlyIf_answers ?_
  dsimp only
  split
  · refine .next ?_
    exact .before (by simp) (State.abandonStart_keeps _ _)
  · split
    · split
      · exact .frame (by simp)
      · exact .frame (by simp [apply_ite State.quiet])
    · split <;> exact .frame (by simp)

theorem execSagEnd_answers {mv dur : Nat} : Answers s (execSagEnd mv dur s) :=
  onlyIf_next_frame (by simp [State.withPower_quiet, apply_ite State.quiet])

theorem execPwrEnFall_answers : Answers s (execPwrEnFall s) := by
  unfold execPwrEnFall
  dsimp only
  split
  · refine .next ?_
    exact .before (by simp only [quiet_upd]) (State.abandonStart_keeps _ _)
  · split
    · exact .frame (by simp)
    · split
      · refine .next ?_
        exact .before (by simp only [quiet_upd]) (State.enterP4_keeps _ 2)
      · exact .frame rfl

theorem execHoldupExhausted_answers : Answers s (execHoldupExhausted s) := by
  obtain ⟨queue, secure⟩ := s.enterP5_keeps
  exact onlyIf_answers (.next ⟨queue, fun _ => secure⟩)

theorem execGovernorTick_answers {watts : Nat} : Answers s (execGovernorTick watts s) :=
  onlyIf_next_frame (by simp [State.withPower_quiet])

theorem execColdResetRelease_answers {f : ColdFacts} : Answers s (execColdResetRelease f s) := by
  obtain ⟨queue, secure⟩ := s.coldPhase_keeps f.fuses f.root f.refOk
  exact onlyIf_answers (.next ⟨queue, fun _ => secure⟩)

theorem execStartFromP4_answers {f : StartFacts} : Answers s (execStartFromP4 f s) := by
  refine onlyIf_answers ?_
  dsimp only
  split
  · refine .next ?_
    exact .before (by simp only [quiet_upd]) (State.startUp_keeps _ f)
  · exact .frame rfl

theorem execReadinessEvaluate_answers {ms : Nat} : Answers s (execReadinessEvaluate ms s) := by
  refine onlyIf_answers ?_
  dsimp only
  split
  · exact .next ((State.failStart_keeps s s.readyCode).after (by simp only [quiet_upd]))
  · exact .next (State.becomeReady_keeps ..)

theorem execLifecycleComplete_answers : Answers s (execLifecycleComplete s) := by
  unfold execLifecycleComplete
  split
  · exact .stay
  · exact onlyIf_answers (.next (State.endLifecycle_keeps ..))

theorem execProcReloadDone_answers {p : ProcId} : Answers s (execProcReloadDone p s) :=
  onlyIf_answers (.next (.before (State.updProc_quiet ..) (State.servedAgain_keeps ..)))

end

/-! ## Commands with more than one way to end, all of them next states -/

section
variable {s : State}

theorem execWorkItemEnd_total {c : CoreId} : ∃ t, execWorkItemEnd c s = .next t := by
  refine onlyIf_total ?_
  dsimp only
  repeat' split
  all_goals exact ⟨_, rfl⟩

theorem execWorkItemDispatch_total {c : CoreId} {w : WorkItem} : ∃ t, execWorkItemDispatch c w s = .next t := by
  unfold execWorkItemDispatch
  exact onlyIf_next_total _

theorem execChainStart_total {c : CoreId} : ∃ t, execChainStart c s = .next t := by
  refine onlyIf_total ?_
  split <;> exact ⟨_, rfl⟩

theorem execChainComplete_total {c : CoreId} : ∃ t, execChainComplete c s = .next t := by
  refine onlyIf_total ?_
  repeat' split
  all_goals exact ⟨_, rfl⟩

theorem execCollComplete_total {id : Nat} : ∃ t, execCollComplete id s = .next t := by
  refine onlyIf_total ?_
  repeat' split
  all_goals exact ⟨_, rfl⟩

theorem execStoreEcc_total {c : CoreId} {word : Nat} {passes : Bool} : ∃ t, execStoreEcc c word passes s = .next t := by
  refine onlyIf_total ?_
  dsimp only
  repeat' split
  all_goals exact ⟨_, rfl⟩

theorem execGsub_total {remote : Bool} {k : Nat} : ∃ t, execGsub remote k s = .next t := by
  refine onlyIf_total ?_
  repeat' split
  all_goals exact ⟨_, rfl⟩

theorem execGpart_total {remote : Bool} {k : Nat} : ∃ t, execGpart remote k s = .next t := by
  refine onlyIf_total ?_
  split
  · exact State.onResponse_total
  · split <;> exact ⟨_, rfl⟩

theorem execFlush_total {remote : Bool} {k : Nat} : ∃ t, execFlush remote k s = .next t := by
  refine onlyIf_total ?_
  repeat' split
  all_goals exact ⟨_, rfl⟩

theorem execFlushAck_total {remote : Bool} {k : Nat} : ∃ t, execFlushAck remote k s = .next t := by
  refine onlyIf_total ?_
  split
  · exact State.onResponse_total
  · split <;> exact ⟨_, rfl⟩

theorem execWorklistReady_total {n : CelId} : ∃ t, execWorklistReady n s = .next t := by
  unfold execWorklistReady
  exact onlyIf_next_total _

theorem execUpdateTensorStart_total {n : CelId} : ∃ t, execUpdateTensorStart n s = .next t := by
  refine onlyIf_total ?_
  dsimp only
  repeat' split
  all_goals exact ⟨_, rfl⟩

theorem execScrubGroup_total {n : CelId} : ∃ t, execScrubGroup n s = .next t := by
  unfold execScrubGroup
  dsimp only
  refine onlyIf_total ?_
  repeat' split
  all_goals exact ⟨_, rfl⟩

theorem execCollShardRequest_total {remote : Bool} {k : Nat} : ∃ t, execCollShardRequest remote k s = .next t := by
  refine onlyIf_total ?_
  repeat' split
  all_goals exact ⟨_, rfl⟩

theorem execCollShardReply_total {remote : Bool} {k : Nat} : ∃ t, execCollShardReply remote k s = .next t := by
  refine onlyIf_total ?_
  split
  · exact State.onResponse_total
  · split
    · exact ⟨_, rfl⟩
    · dsimp only
      split <;> exact ⟨_, rfl⟩

theorem execLeaseDeadline_total {n : CelId} {table : Nat} {step : Nat} : ∃ t, execLeaseDeadline n table step s = .next t := by
  refine onlyIf_total ?_
  dsimp only
  split <;> exact ⟨_, rfl⟩

theorem execCollJoinTimeout_total {id : Nat} : ∃ t, execCollJoinTimeout id s = .next t := by
  refine onlyIf_total ?_
  repeat' split
  all_goals exact ⟨_, rfl⟩

theorem execStreamStall_total {n : CelId} {room : Bool} : ∃ t, execStreamStall n room s = .next t := by
  refine onlyIf_total ?_
  repeat' split
  all_goals exact ⟨_, rfl⟩

theorem execBackwardCloseBarrier_total {govf : Bool} {fail : Bool} : ∃ t, execBackwardCloseBarrier govf fail s = .next t := by
  refine onlyIf_total ?_
  split <;> exact ⟨_, rfl⟩

theorem execLaneSignalFail_total {p : PortId} {lane : Fin 8} : ∃ t, execLaneSignalFail p lane s = .next t := by
  unfold execLaneSignalFail
  exact onlyIf_next_total _

theorem execPortTrainingDone_total {p : PortId} {res : PortTrain} : ∃ t, execPortTrainingDone p res s = .next t := by
  refine onlyIf_total ?_
  dsimp only
  repeat' split
  all_goals exact ⟨_, rfl⟩

theorem execPacketForward_total {k : Nat} : ∃ t, execPacketForward k s = .next t := by
  refine onlyIf_total ?_
  repeat' split
  all_goals exact ⟨_, rfl⟩

theorem execRequestTimeout_total {k : Nat} : ∃ t, execRequestTimeout k s = .next t := by
  refine onlyIf_total ?_
  split <;> exact ⟨_, rfl⟩

theorem execPromWalkTimeout_total {axis : Axis} {dir : Fin 2} : ∃ t, execPromWalkTimeout axis dir s = .next t := by
  unfold execPromWalkTimeout
  exact onlyIf_next_total _

theorem execFlitRx_total {i : Fin 288} {f : Flit} : ∃ t, execFlitRx i f s = .next t := by
  unfold execFlitRx
  exact onlyIf_next_total _

theorem execPhyretrainDone_total {i : Fin 288} {bad : BitVec 64} {r : RetrainEnd} : ∃ t, execPhyretrainDone i bad r s = .next t := by
  unfold execPhyretrainDone
  dsimp only
  refine onlyIf_total ?_
  repeat' split
  all_goals exact ⟨_, rfl⟩

theorem execUcieL1Entry_total {i : Fin 288} : ∃ t, execUcieL1Entry i s = .next t := by
  unfold execUcieL1Entry
  exact onlyIf_next_total _

theorem execBar4Read_total {off : Nat} {len : Nat} : ∃ t, execBar4Read off len s = .next t := by
  refine onlyIf_total ?_
  repeat' split
  all_goals exact ⟨_, rfl⟩

theorem execBar4Write_total {off : Nat} {data : List Byte} : ∃ t, execBar4Write off data s = .next t := by
  refine onlyIf_total ?_
  repeat' split
  all_goals exact ⟨_, rfl⟩

theorem execSqSlotWrite_total {q : QId} {off : Nat} {data : List Byte} : ∃ t, execSqSlotWrite q off data s = .next t := by
  refine onlyIf_total ?_
  dsimp only
  repeat' split
  all_goals exact ⟨_, rfl⟩

theorem execSqStalled_total {q : QId} : ∃ t, execSqStalled q s = .next t := by
  unfold execSqStalled
  exact onlyIf_next_total _

theorem execCommandComplete_total {q : QId} {seq : W32} : ∃ t, execCommandComplete q seq s = .next t := by
  refine onlyIf_total ?_
  dsimp only
  repeat' split
  all_goals exact ⟨_, rfl⟩

theorem execCompletionWrite_total {q : QId} : ∃ t, execCompletionWrite q s = .next t := by
  refine onlyIf_total ?_
  dsimp only
  split <;> exact ⟨_, rfl⟩

theorem execCavePwrOkFall_total {k : CaveId} : ∃ t, execCavePwrOkFall k s = .next t := by
  unfold execCavePwrOkFall
  exact onlyIf_next_total _

theorem execAccAdmission_total {site : AccId} {f : AccFacts} : ∃ t, execAccAdmission site f s = .next t := by
  refine onlyIf_total ?_
  split <;> exact ⟨_, rfl⟩

theorem execLoopTestEnd_total {errs : List Nat} {margin : Nat} {res : UcieTrain} : ∃ t, execLoopTestEnd errs margin res s = .next t := by
  unfold execLoopTestEnd
  split <;> exact ⟨_, rfl⟩

theorem execStepStart_total : ∃ t, execStepStart s = .next t := by
  refine onlyIf_total ?_
  dsimp only
  split <;> exact ⟨_, rfl⟩

theorem execMapswTimeout_total : ∃ t, execMapswTimeout s = .next t := by
  unfold execMapswTimeout
  split <;> exact ⟨_, rfl⟩

theorem execAskTimeout_total : ∃ t, execAskTimeout s = .next t := by
  refine onlyIf_total ?_
  dsimp only
  repeat' split
  all_goals exact ⟨_, rfl⟩

theorem execDeltaComplete_total : ∃ t, execDeltaComplete s = .next t := by
  refine onlyIf_total ?_
  dsimp only
  repeat' split
  all_goals exact ⟨_, rfl⟩

theorem execDeltaMergeDone_total : ∃ t, execDeltaMergeDone s = .next t := by
  refine onlyIf_total ?_
  repeat' split
  all_goals exact ⟨_, rfl⟩

end

/-! ## Every command -/

/-- Every command ends with a next state that keeps the waiting commands, and security where there is any. -/
theorem exec_answers (i : Instr) (s : State) : Answers s (exec i s) := by
  cases i
  case slotNop | sAdd | sSub | sAnd | sOr | sXor | sShl | sShr | sSra | sMul | sMin | sMax | sAddi | sLi | sSli | sCmp | sCmpi | sPop | sLd
      | sSt | sFadd | sFmul | sFma | sFcvt | sCsrr | sCsrw | sJmp | sCall | sRet | sLoop | sHalt | cmbCfgWrite => exact State.issueS_answers
  case mCfg | mBload | mPass => exact State.issueM_answers
  case vChain | vLd | vSt | vAcc | vRed | vMvs | vSpl | vOp => exact State.issueV_answers
  case xferCopy | xferFill | xferWback | xferWarm => exact State.issueXfer_answers
  case dCopy | dAgld | dImem | eGather | eDesc | eScatter | eFlush | eDispatch | eCollect | yWait | yPost | yPostr | ySeg | yCommit =>
    exact State.issueD_answers
  case allreduce | reduceScatter | allgather | alltoall | alltoallv | permute | multicast | barrier | sgather =>
    exact State.issueCollOp_answers
  case getInfo | attach | opStatus | jobLoad | jobPark | jobResume | jobAbort | jobStatus | mbxExport | mbxImport | reshard | promoReset |
      ckptFull | promenade | linkTest | traceSet | logInfo | logMark => exact State.mbRow_answers
  case bundleFetch => exact .of_total State.fetch_total execBundleFetch_quiet
  case workItemEnd => exact .of_total execWorkItemEnd_total execWorkItemEnd_quiet
  case workItemDispatch => exact .of_total execWorkItemDispatch_total execWorkItemDispatch_quiet
  case passFrontEndStart => rw [exec_passFrontEndStart]; exact .of_total (onlyIf_next_total _) execPassFrontEndStart_quiet
  case arrayIssueSlot => rw [exec_arrayIssueSlot]; exact .of_total (onlyIf_next_total _) execArrayIssueSlot_quiet
  case passComplete => rw [exec_passComplete]; exact .of_total (onlyIf_next_total _) execPassComplete_quiet
  case bloadStart => rw [exec_bloadStart]; exact .of_total (onlyIf_next_total _) execBloadStart_quiet
  case bloadSlotWrite => rw [exec_bloadSlotWrite]; exact .of_total (onlyIf_next_total _) execBloadSlotWrite_quiet
  case levelStep => rw [exec_levelStep]; exact .of_total (onlyIf_next_total _) execLevelStep_quiet
  case topupDecrement => rw [exec_topupDecrement]; exact .of_total (onlyIf_next_total _) execTopupDecrement_quiet
  case chainStart => exact .of_total execChainStart_total execChainStart_quiet
  case chainComplete => exact .of_total execChainComplete_total execChainComplete_quiet
  case xferComplete => exact execXferComplete_answers
  case dCopyComplete => exact execDCopyComplete_answers
  case imemLoadComplete => exact execImemLoadComplete_answers
  case collComplete => exact .of_total execCollComplete_total execCollComplete_quiet
  case gatherComplete => exact execGatherComplete_answers
  case scatterComplete => exact execScatterComplete_answers
  case flushComplete => exact execFlushComplete_answers
  case dispatchComplete => exact execDispatchComplete_answers
  case collectComplete => exact execCollectComplete_answers
  case remotePostDeliver => exact execRemotePostDeliver_answers
  case rewindAccClear => rw [exec_rewindAccClear]; exact .of_total (onlyIf_next_total _) execRewindAccClear_quiet
  case coreStall => rw [exec_coreStall]; exact .of_total (onlyIf_next_total _) execCoreStall_quiet
  case registerWrite => rw [exec_registerWrite]; exact .of_total (onlyIf_next_total _) execRegisterWrite_quiet
  case hbmWindowEnd => rw [exec_hbmWindowEnd]; exact .of_total (onlyIf_next_total _) execHbmWindowEnd_quiet
  case hbmUncorr => exact execHbmUncorr_answers
  case hbmCorrectedError => rw [exec_hbmCorrectedError]; exact .of_total (onlyIf_next_total _) execHbmCorrectedError_quiet
  case storeEcc => exact .of_total execStoreEcc_total execStoreEcc_quiet
  case csCorrectedError => rw [exec_csCorrectedError]; exact .of_total (onlyIf_next_total _) execCsCorrectedError_quiet
  case coreHang => rw [exec_coreHang]; exact .of_total (onlyIf_next_total _) execCoreHang_quiet
  case gsub => exact .of_total execGsub_total execGsub_quiet
  case gpart => exact .of_total execGpart_total execGpart_quiet
  case flush => exact .of_total execFlush_total execFlush_quiet
  case flushAck => exact .of_total execFlushAck_total execFlushAck_quiet
  case bankClearDone => rw [exec_bankClearDone]; exact .of_total (onlyIf_next_total _) execBankClearDone_quiet
  case worklistReady => exact .of_total execWorklistReady_total execWorklistReady_quiet
  case updateTensorStart => exact .of_total execUpdateTensorStart_total execUpdateTensorStart_quiet
  case updSweep1 => exact execUpdSweep1_answers
  case updSweep2 => exact execUpdSweep2_answers
  case updateStop => rw [exec_updateStop]; exact .of_total (onlyIf_next_total _) execUpdateStop_quiet
  case journalRecovery => rw [exec_journalRecovery]; exact .of_total (onlyIf_next_total _) execJournalRecovery_quiet
  case scrubGroup => exact .of_total execScrubGroup_total execScrubGroup_quiet
  case collJoin => exact execCollJoin_answers
  case collData => exact execCollData_answers
  case collAck => exact execCollAck_answers
  case collShardRequest => exact .of_total execCollShardRequest_total execCollShardRequest_quiet
  case collShardReply => exact .of_total execCollShardReply_total execCollShardReply_quiet
  case leaseDeadline => exact .of_total execLeaseDeadline_total execLeaseDeadline_quiet
  case collJoinTimeout => exact .of_total execCollJoinTimeout_total execCollJoinTimeout_quiet
  case streamStall => exact .of_total execStreamStall_total execStreamStall_quiet
  case backwardCloseBarrier => exact .of_total execBackwardCloseBarrier_total execBackwardCloseBarrier_quiet
  case stepEndBarrier => exact execStepEndBarrier_answers
  case mapSwitchRequest => rw [exec_mapSwitchRequest]; exact .of_total (onlyIf_next_total _) execMapSwitchRequest_quiet
  case mapswVote => rw [exec_mapswVote]; exact State.onDelivered_answers fun p => .frame (State.takeMapsw_quiet ..)
  case mapswRelease => rw [exec_mapswRelease]; exact State.onDelivered_answers fun p => .frame (State.takeMapsw_quiet ..)
  case fabMapLoad => rw [exec_fabMapLoad]; exact .of_total (onlyIf_next_total _) execFabMapLoad_quiet
  case frameRx => rw [exec_frameRx]; exact .of_total (onlyIf_next_total _) execFrameRx_quiet
  case laneSignalFail => exact .of_total execLaneSignalFail_total execLaneSignalFail_quiet
  case optReadyRise => rw [exec_optReadyRise]; exact .of_total ⟨_, rfl⟩ execOptReadyRise_quiet
  case optReadyFall => rw [exec_optReadyFall]; exact .of_total ⟨_, rfl⟩ execOptReadyFall_quiet
  case portTrainingDone => exact .of_total execPortTrainingDone_total execPortTrainingDone_quiet
  case retrain => rw [exec_retrain]; exact .of_total (onlyIf_next_total _) execRetrain_quiet
  case packetForward => exact .of_total execPacketForward_total execPacketForward_quiet
  case rdReq => exact execRdReq_answers
  case rdResp => rw [exec_rdResp]; exact onlyIf_answers State.onResponse_answers
  case wr => exact execWr_answers
  case wrAck => rw [exec_wrAck]; exact onlyIf_answers State.onResponse_answers
  case post => exact execPost_answers
  case requestTimeout => exact .of_total execRequestTimeout_total execRequestTimeout_quiet
  case promWalkTimeout => exact .of_total execPromWalkTimeout_total execPromWalkTimeout_quiet
  case ucieTrainDone => rw [exec_ucieTrainDone]; exact .of_total (onlyIf_next_total _) execUcieTrainDone_quiet
  case flitRx => exact .of_total execFlitRx_total execFlitRx_quiet
  case phyretrainDone => exact .of_total execPhyretrainDone_total execPhyretrainDone_quiet
  case ucieL1Entry => exact .of_total execUcieL1Entry_total execUcieL1Entry_quiet
  case dlTest => rw [exec_dlTest]; exact .of_total (onlyIf_next_total _) execDlTest_quiet
  case pcieLinkTrain => rw [exec_pcieLinkTrain]; exact .of_total (onlyIf_next_total _) execPcieLinkTrain_quiet
  case bar4Read => exact .of_total execBar4Read_total execBar4Read_quiet
  case bar4Write => exact .of_total execBar4Write_total execBar4Write_quiet
  case sqSlotWrite => exact .of_total execSqSlotWrite_total execSqSlotWrite_quiet
  case tailEcho => rw [exec_tailEcho]; exact .of_total (onlyIf_next_total _) execTailEcho_quiet
  case doorbell => rw [exec_doorbell]; exact .of_total (onlyIf_next_total _) execDoorbell_quiet
  case sqReread => rw [exec_sqReread]; exact .of_total (onlyIf_next_total _) execSqReread_quiet
  case sqStalled => exact .of_total execSqStalled_total execSqStalled_quiet
  case resumeQueue => rw [exec_resumeQueue]; exact .of_total (onlyIf_next_total _) execResumeQueue_quiet
  case resetQueue => rw [exec_resetQueue]; exact .of_total (onlyIf_next_total _) execResetQueue_quiet
  case queueEnable => rw [exec_queueEnable]; exact .of_total (onlyIf_next_total _) execQueueEnable_quiet
  case queueDisable => rw [exec_queueDisable]; exact .of_total (onlyIf_next_total _) execQueueDisable_quiet
  case cqHead => rw [exec_cqHead]; exact .of_total (onlyIf_next_total _) execCqHead_quiet
  case qNop => rw [exec_qNop]; exact State.startOf_answers fun _ => .frame (State.startEntry_quiet ..)
  case qFence => rw [exec_qFence]; exact State.startOf_answers fun _ => .frame (State.startEntry_quiet ..)
  case qCopyIn => exact execQCopyIn_answers
  case qCopyOut => exact execQCopyOut_answers
  case qFill => rw [exec_qFill]; exact State.startOf_answers fun _ => State.queueWrite_answers
  case qBatch => exact execQBatch_answers
  case qWaitStep => rw [exec_qWaitStep]; exact State.startOf_answers fun _ => .frame (State.startEntry_quiet ..)
  case qPost => exact execQPost_answers
  case commandComplete => exact .of_total execCommandComplete_total execCommandComplete_quiet
  case completionWrite => exact .of_total execCompletionWrite_total execCompletionWrite_quiet
  case hostCompletionTimeout => exact execHostCompletionTimeout_answers
  case cavePortTimeout => rw [exec_cavePortTimeout]; exact .of_total (onlyIf_next_total _) execCavePortTimeout_quiet
  case cxlLinkDown => rw [exec_cxlLinkDown]; exact .of_total (onlyIf_next_total _) execCxlLinkDown_quiet
  case wdExpiry => rw [exec_wdExpiry]; exact onlyIf_answers (.next (State.expire_keeps ..))
  case procReloadDone => exact execProcReloadDone_answers
  case mbxDoorbell => rw [exec_mbxDoorbell]; exact .of_total (onlyIf_next_total _) execMbxDoorbell_quiet
  case coldResetRelease => exact execColdResetRelease_answers
  case overvoltage => exact execOvervoltage_answers
  case sag => exact execSag_answers
  case sagEnd => exact execSagEnd_answers
  case rideThroughExpiry => exact execRideThroughExpiry_answers
  case protectCoreDeadline => rw [exec_protectCoreDeadline]; exact .of_total (onlyIf_next_total _) execProtectCoreDeadline_quiet
  case protectFlushEnd => rw [exec_protectFlushEnd]; exact onlyIf_answers (.next (State.protectEnd_keeps ..))
  case clockLoss => exact execClockLoss_answers
  case coolant => exact execCoolant_answers
  case coolantRecover => exact execCoolantRecover_answers
  case coolantLow => exact execCoolantLow_answers
  case dieTemp => exact execDieTemp_answers
  case dieTempRecover => exact execDieTempRecover_answers
  case trip => exact execTrip_answers
  case governorTick => exact execGovernorTick_answers
  case p2DelayExpiry => exact execP2DelayExpiry_answers
  case startFromP4 => exact execStartFromP4_answers
  case readinessEvaluate => exact execReadinessEvaluate_answers
  case vatDieReset => rw [exec_vatDieReset]; exact .of_total (onlyIf_next_total _) execVatDieReset_quiet
  case vatResetDone => exact execVatResetDone_answers
  case ckptData => exact execCkptData_answers
  case ckptAck => exact execCkptAck_answers
  case ckptHold => exact execCkptHold_answers
  case ckptState => exact execCkptState_answers
  case ckptGo => exact execCkptGo_answers
  case i3cEntdaa => rw [exec_i3cEntdaa]; exact .of_total (onlyIf_next_total _) execI3cEntdaa_quiet
  case smbusArp => rw [exec_smbusArp]; exact .of_total (onlyIf_next_total _) execSmbusArp_quiet
  case setEndpointId => rw [exec_setEndpointId]; exact .of_total ⟨_, rfl⟩ execSetEndpointId_quiet
  case getSensorReading => rw [exec_getSensorReading]; exact .of_total ⟨_, rfl⟩ execGetSensorReading_quiet
  case setNumericEffecter => rw [exec_setNumericEffecter]; exact .of_total ⟨_, rfl⟩ execSetNumericEffecter_quiet
  case setStateEffecter => rw [exec_setStateEffecter]; exact .of_total ⟨_, rfl⟩ execSetStateEffecter_quiet
  case requestUpdate => rw [exec_requestUpdate]; exact .of_total ⟨_, rfl⟩ execRequestUpdate_quiet
  case requestFirmwareData => rw [exec_requestFirmwareData]; exact .of_total ⟨_, rfl⟩ execRequestFirmwareData_quiet
  case quote => rw [exec_quote]; exact .next (State.secMsg_keeps ..)
  case debugSet => rw [exec_debugSet]; exact .next (State.secMsg_keeps ..)
  case lifecycle => rw [exec_lifecycle]; exact .next (State.secMsg_keeps ..)
  case floorRaise => rw [exec_floorRaise]; exact .next (State.secMsg_keeps ..)
  case logRead => rw [exec_logRead]; exact .next (State.secMsg_keeps ..)
  case tapSamplePreload => rw [exec_tapSamplePreload]; exact State.tapTake_next_frame fun t => by simp
  case tapRegRead => exact execTapRegRead_answers
  case tapMemRead => exact execTapMemRead_answers
  case tapTraceRead => rw [exec_tapTraceRead]; exact State.tapTake_next_frame fun t => by simp
  case tapHalt => rw [exec_tapHalt]; exact State.tapTake_next_frame fun t => by simp
  case tapResume => exact execTapResume_answers
  case tapStep => exact execTapStep_answers
  case tapRegWrite => rw [exec_tapRegWrite]; exact State.tapTake_next_frame fun t => by simp
  case tapMemWrite => rw [exec_tapMemWrite]; exact State.tapTake_next_frame fun t => by simp
  case tapFlash => exact execTapFlash_answers
  case cavePwrOkFall => exact .of_total execCavePwrOkFall_total execCavePwrOkFall_quiet
  case cavePortTrainingDone => rw [exec_cavePortTrainingDone]; exact .of_total (onlyIf_next_total _) execCavePortTrainingDone_quiet
  case holdupOk => rw [exec_holdupOk]; exact .of_total (onlyIf_next_total _) execHoldupOk_quiet
  case detach => exact execDetach_answers
  case promWalk => exact execPromWalk_answers
  case promEnd => exact execPromEnd_answers
  case promSet => exact execPromSet_answers
  case promReport => exact execPromReport_answers
  case promDone => exact execPromDone_answers
  case promAsk => exact execPromAsk_answers
  case promAskAnswer => exact execPromAskAnswer_answers
  case accAdmission => exact .of_total execAccAdmission_total execAccAdmission_quiet
  case partnerCmdTimeout => exact execPartnerCmdTimeout_answers
  case partnerTempLoss => exact execPartnerTempLoss_answers
  case partnerOverpower => rw [exec_partnerOverpower]; exact .of_total (onlyIf_next_total _) execPartnerOverpower_quiet
  case loopTestEnd => exact .of_total execLoopTestEnd_total execLoopTestEnd_quiet
  case cxlEvent => rw [exec_cxlEvent]; exact .of_total (onlyIf_next_total _) execCxlEvent_quiet
  case overvoltageRecovery => rw [exec_overvoltageRecovery]; exact .of_total (onlyIf_next_total _) execOvervoltageRecovery_quiet
  case tapIeee1500 => exact execTapIeee1500_answers
  case tapStandAlone => exact execTapStandAlone_answers
  case restoreComplete => exact execRestoreComplete_answers
  case memCommit => rw [exec_memCommit]; exact .of_total (onlyIf_next_total _) execMemCommit_quiet
  case startBarrierDone => rw [exec_startBarrierDone]; exact .of_total (onlyIf_next_total _) execStartBarrierDone_quiet
  case stepStart => exact .of_total execStepStart_total execStepStart_quiet
  case mapSwitchDrained => exact execMapSwitchDrained_answers
  case mapswTimeout => exact .of_total execMapswTimeout_total execMapswTimeout_quiet
  case fabCommit => rw [exec_fabCommit]; exact .of_total (onlyIf_next_total _) execFabCommit_quiet
  case promenadeTimeout => rw [exec_promenadeTimeout]; exact .of_total (onlyIf_next_total _) execPromenadeTimeout_quiet
  case perstAssert => rw [exec_perstAssert]; exact .of_total (onlyIf_next_total _) execPerstAssert_quiet
  case dllDown => rw [exec_dllDown]; exact .of_total (onlyIf_next_total _) execDllDown_quiet
  case functionLevelReset => rw [exec_functionLevelReset]; exact .of_total (onlyIf_next_total _) execFunctionLevelReset_quiet
  case busMasterEnableCleared => rw [exec_busMasterEnableCleared]; exact .of_total (onlyIf_next_total _) execBusMasterEnableCleared_quiet
  case d3hotEntry => rw [exec_d3hotEntry]; exact .of_total (onlyIf_next_total _) execD3hotEntry_quiet
  case heartbeatExpiry => rw [exec_heartbeatExpiry]; exact .of_total (onlyIf_next_total _) execHeartbeatExpiry_quiet
  case hifHeartbeat => rw [exec_hifHeartbeat]; exact .of_total (onlyIf_next_total _) execHifHeartbeat_quiet
  case bar4Sync => rw [exec_bar4Sync]; exact .of_total (onlyIf_next_total _) execBar4Sync_quiet
  case hifHfence => rw [exec_hifHfence]; exact .of_total (onlyIf_next_total _) execHifHfence_quiet
  case suppress => rw [exec_suppress]; exact .of_total (onlyIf_next_total _) execSuppress_quiet
  case inputApplied => rw [exec_inputApplied]; exact .of_total (onlyIf_next_total _) execInputApplied_quiet
  case modResetNFall => exact execModResetNFall_answers
  case pwrEnFall => exact execPwrEnFall_answers
  case pwrEnRise => rw [exec_pwrEnRise]; exact .of_total ⟨_, rfl⟩ execPwrEnRise_quiet
  case holdupExhausted => exact execHoldupExhausted_answers
  case pwrReqStandby => rw [exec_pwrReqStandby]; exact .of_total ⟨_, rfl⟩ execPwrReqStandby_quiet
  case pwrReqResume => rw [exec_pwrReqResume]; exact .of_total ⟨_, rfl⟩ execPwrReqResume_quiet
  case p3Return => rw [exec_p3Return]; exact onlyIf_answers (.frame (State.leaveP3_quiet ..))
  case startStepTimeout => rw [exec_startStepTimeout]; exact onlyIf_answers (.next (State.failStart_keeps ..))
  case portsSettled => exact execPortsSettled_answers
  case askTimeout => exact .of_total execAskTimeout_total execAskTimeout_quiet
  case deltaComplete => exact .of_total execDeltaComplete_total execDeltaComplete_quiet
  case deltaMergeDone => exact .of_total execDeltaMergeDone_total execDeltaMergeDone_quiet
  case i3cRstdaa => rw [exec_i3cRstdaa]; exact .of_total (onlyIf_next_total _) execI3cRstdaa_quiet
  case pollEvent => rw [exec_pollEvent]; exact .of_total ⟨_, rfl⟩ execPollEvent_quiet
  case activateFirmware => rw [exec_activateFirmware]; exact .of_total ⟨_, rfl⟩ execActivateFirmware_quiet
  case cancelUpdate => rw [exec_cancelUpdate]; exact .of_total ⟨_, rfl⟩ execCancelUpdate_quiet
  case getId => rw [exec_getId]; exact .next (State.secMsg_keeps ..)
  case challenge => rw [exec_challenge]; exact .next (State.secMsg_keeps ..)
  case lifecycleComplete => exact execLifecycleComplete_answers
  case tapBypass => rw [exec_tapBypass]; exact State.tapTake_next_frame fun t => by simp
  case tapIdcode => rw [exec_tapIdcode]; exact State.tapTake_next_frame fun t => by simp
  case tapExtest => rw [exec_tapExtest]; exact State.tapTake_next_frame fun t => by simp
  case exportComplete => exact execExportComplete_answers
  case importComplete => exact execImportComplete_answers

theorem step_empty {s : State} (h : s.pending = []) : step s = .next s := by rw [step, h]

theorem step_cons (i : Instr) (rest : List Instr) (s : State) :
    step { s with pending := i :: rest } = exec i { s with pending := rest } := rfl

/-- Settles O1: `step` matches on the queue. -/
theorem stepTakesFront : Obligations.StepTakesFront := ⟨step_cons, fun _ => step_empty⟩

/-- Settles O60: each command by the shared operation it goes through, or by its own branches. -/
theorem commandsLeaveTheQueue : Obligations.CommandsLeaveTheQueue := by
  intro i s
  obtain ⟨t, answer, queue, -⟩ := exec_answers i s
  exact ⟨t, answer, queue⟩

theorem step_keeps_secOk {s t : State} (secure : s.secOk) (h : step s = .next t) : t.secOk := by
  unfold step at h
  split at h
  · injection h with h
    exact h ▸ secure
  · next i rest _ =>
    obtain ⟨u, answer, -, keeps⟩ := exec_answers i { s with pending := rest }
    obtain rfl : u = t := by simpa using answer.symm.trans h
    exact keeps secure

/-- Settles O59: a step runs one command or none, and every command keeps the security of lifecycle FIELD. -/
theorem fieldNeverReachesFull : Obligations.FieldNeverReachesFull := fun _ _ => step_keeps_secOk


end Sys2Proof.Machine
end

section
/-! SUPPORT. Submission queues: slot writes, doorbells, re-reads and the control of a queue. -/

namespace Sys2Proof.Machine

section
variable {s : State} {q : QId}

/-! ## Slot writes and TAIL_ECHO (R376, R381) -/

theorem execSqSlotWrite_lands {d off : Nat} {data : List Byte} (link : s.hostLink = true) (depth : s.hif.queues[q].depth = some d)
    (some_byte : 0 < min data.length (64 * d - off)) :
    let n := min data.length (64 * d - off)
    let y : Queue := { s.hif.queues[q] with late := s.hif.queues[q].late ++ [(off, data.take n)] }
    execSqSlotWrite q off data s =
      .next (s.updQueue q fun _ => { y with echo := BitVec.ofNat 32 (Cells.le y.landed (64 * ((off + n - 1) / 64)) 4) }) := by
  rw [execSqSlotWrite, onlyIf_of_true link]
  dsimp only
  rw [depth]
  exact if_neg (Nat.ne_of_gt some_byte)

theorem execSqSlotWrite_nothing {off : Nat} {data : List Byte} (link : s.hostLink = true)
    (h : s.hif.queues[q].depth = none ∨ data = []) : execSqSlotWrite q off data s = .next s := by
  rw [execSqSlotWrite, onlyIf_of_true link]
  dsimp only
  rcases h with depth | rfl
  · rw [depth]
  · split
    · rfl
    · exact if_pos (Nat.zero_min _)

/-! ## Doorbells (R382, R383) -/

theorem doorbell_not_reading {t : W32} (h : ¬ (s.hif.queues[q].state = qRunning ∨ s.hif.queues[q].state = qStalled)) :
    s.doorbell q t = s := by
  rw [State.doorbell]
  exact if_pos (by simpa using h)

theorem doorbell_behind {t : W32} (h : 2 ^ 31 ≤ (t - s.hif.queues[q].nextSeq).toNat) : s.doorbell q t = s := by
  rw [State.doorbell]
  dsimp only
  rw [if_pos h, ite_self]

/-- A doorbell that is neither ignored for the state of the queue nor for its SEQ: the queue's oldest entry decides. -/
theorem doorbell_ahead {t : W32} (reading : s.hif.queues[q].state = qRunning ∨ s.hif.queues[q].state = qStalled)
    (ahead : (t - s.hif.queues[q].nextSeq).toNat < 2 ^ 31) :
    let x := s.hif.queues[q]
    let oldest := (x.entries.map (·.seq)).foldl (fun (m : W32) e => if 2 ^ 31 ≤ (e - m).toNat then e else m) x.nextSeq
    let far := match x.tail with
      | some u => if 2 ^ 31 ≤ (t - u).toNat then u else t
      | none => t
    s.doorbell q t =
      if x.depth.getD 0 < (t - oldest).toNat + 1 then
        (s.updQueue q fun x => { x with state := qError, waitVis := false }).event (qpProc (s.queueQp q)) 3 3 [q.val, t.toNat, oldest.toNat]
      else (s.updQueue q fun x => { x with tail := some far }).pumpQueue q := by
  have listens : (s.hif.queues[q].state ≠ qRunning && s.hif.queues[q].state ≠ qStalled) = false := by
    rcases reading with h | h <;> rw [h] <;> decide
  rw [State.doorbell]
  dsimp only
  rw [listens, if_neg Bool.false_ne_true, if_neg (Nat.not_le.mpr ahead)] <;> rfl

/-! ## Control of a queue (R380, R395) -/

theorem resumeQueue_stalled (h : s.hif.queues[q].state = qStalled) :
    s.resumeQueue q = (s.updQueue q fun x => { x with state := qRunning, waitVis := false }).pumpQueue q := if_neg (not_not.mpr h)

theorem resumeQueue_other (h : s.hif.queues[q].state ≠ qStalled) : s.resumeQueue q = s := if_pos h

theorem resetQueue_error {n : W32} (h : s.hif.queues[q].state = qError) :
    s.resetQueue q n = (s.abortUnstarted q).updQueue q fun x => { x with state := qRunning, nextSeq := n, tail := none, waitVis := false } :=
  if_neg (not_not.mpr h)

theorem resetQueue_other {n : W32} (h : s.hif.queues[q].state ≠ qError) : s.resetQueue q n = s := if_pos h

theorem disableQueue_enabled (h : s.hif.queues[q].state ≠ qDisabled) :
    s.disableQueue q = (s.abortUnstarted q).updQueue q fun x => { x with cfg := x.cfg &&& ~~~1#64, state := qDisabled, tail := none, waitVis := false } :=
  if_neg h

theorem disableQueue_disabled (h : s.hif.queues[q].state = qDisabled) : s.disableQueue q = s := if_pos h

/-- A write of SQ_CFG with ENABLE set does nothing to a queue that is enabled (R380). -/
theorem sqCfgWrite_enabled {w : W64} (enable : w.getLsbD 0 = true) (h : s.hif.queues[q].state ≠ qDisabled) : s.sqCfgWrite q w = s := by
  rw [State.sqCfgWrite, if_neg h, if_pos enable]

theorem updQueue_same (f : Queue → Queue) : (s.updQueue q f).hif.queues[q] = f s.hif.queues[q] := by simp [State.updQueue]

theorem updQueue_updQueue (f g : Queue → Queue) : (s.updQueue q f).updQueue q g = s.updQueue q (g ∘ f) := by
  simp [State.updQueue]

/-- A queue as enabling leaves it (R380): fresh indices, nothing to read yet. -/
def Queue.enabled (x : Queue) : Queue :=
  { x with cfg := x.cfg ||| 1, state := qRunning, nextSeq := 1, cidxNext := 0, cqHead := 0, tail := none, waitVis := false, dests := [] }

theorem enableQueue_disabled (attached : s.hif.attached = true) (disabled : s.hif.queues[q].state = qDisabled)
    (depth : s.hif.queues[q].depth.isSome = true) (ring : s.hif.queues[q].cqLog.isSome = true) :
    s.enableQueue q = s.updQueue q Queue.enabled := by
  have may : (!s.hif.attached || s.hif.queues[q].state ≠ qDisabled || s.hif.queues[q].depth.isNone || s.hif.queues[q].cqLog.isNone) = false := by
    simp only [attached, disabled, ne_eq, not_true_eq_false, decide_false, Bool.not_true, Bool.or_false, Option.isNone_eq_false_iff,
      Bool.or_eq_false_iff, depth, ring, and_self]
  exact if_neg (ne_true_of_eq_false may)

/-- SQ_CFG gives the queue a ring when its LOG2 is not reserved (R395). -/
theorem depth_isSome_of_log {x : Queue} {w : W64} (low : 6 ≤ bits w.toNat 4 1) (high : bits w.toNat 4 1 ≤ 16) :
    ({ x with cfg := w &&& 0x1e#64 } : Queue).depth.isSome = true := by
  have log : bits (w &&& 0x1e#64).toNat 4 1 = bits w.toNat 4 1 := by
    have masked : (w &&& 0x1e#64).toNat >>> 1 = (w.toNat >>> 1) &&& 2 ^ 4 - 1 := by
      rw [BitVec.toNat_and, Nat.shiftRight_and_distrib]
      rfl
    rw [bits, bits, masked, Nat.and_two_pow_sub_one_eq_mod, Nat.mod_mod]
  rw [Queue.depth, log, if_pos ⟨low, high⟩]
  rfl

theorem sqCfgWrite_disabled {w : W64} (enable : w.getLsbD 0 = true) (attached : s.hif.attached = true)
    (disabled : s.hif.queues[q].state = qDisabled) (low : 6 ≤ bits w.toNat 4 1) (high : bits w.toNat 4 1 ≤ 16)
    (ring : s.hif.queues[q].cqLog.isSome = true) :
    s.sqCfgWrite q w = s.updQueue q fun x => { x with cfg := w &&& 0x1e#64 }.enabled := by
  have written := updQueue_same (s := s) (q := q) fun x => { x with cfg := w &&& 0x1e#64 }
  rw [State.sqCfgWrite, if_pos disabled]
  dsimp only
  rw [if_pos enable, enableQueue_disabled (s := s.updQueue q _) attached (by rw [written]; exact disabled) (by rw [written]; exact depth_isSome_of_log low high)
    (by rw [written]; exact ring), updQueue_updQueue]
  rfl

/-! ## The commands of a host whose link is up -/

section
variable (link : s.hostLink = true)
include link

theorem execTailEcho_linked :
    execTailEcho q s = .next ((s.updQueue q fun y => { y with slots := y.landed, late := [] }).answer (toLe 8 s.hif.queues[q].echo.toNat)) :=
  onlyIf_of_true link

theorem execDoorbell_linked {w : W64} : execDoorbell q w s = .next (s.doorbell q (w.setWidth 32)) := onlyIf_of_true link

theorem execResumeQueue_linked : execResumeQueue q s = .next (s.resumeQueue q) := onlyIf_of_true link

theorem execResetQueue_linked {n : W32} : execResetQueue q n s = .next (s.resetQueue q n) := onlyIf_of_true link

theorem execQueueEnable_linked {w : W64} (enable : w.getLsbD 0 = true) : execQueueEnable q w s = .next (s.sqCfgWrite q w) :=
  onlyIf_of_true (by rw [link, enable]; rfl)

theorem execQueueDisable_linked : execQueueDisable q s = .next (s.disableQueue q) := onlyIf_of_true link

theorem execCqHead_linked {w : W64} : execCqHead q w s = .next (s.updQueue q fun y => { y with cqHead := w.setWidth 32 }) := onlyIf_of_true link

end

/-! ## A host whose link is down reaches no queue (R376) -/

theorem queueCommands_unlinked (down : s.hostLink = false) (w : W64) (n : W32) :
    execTailEcho q s = .next s ∧ execDoorbell q w s = .next s ∧ execResumeQueue q s = .next s ∧ execResetQueue q n s = .next s ∧
      execQueueEnable q w s = .next s ∧ execQueueDisable q s = .next s ∧ execCqHead q w s = .next s :=
  ⟨onlyIf_of_false down, onlyIf_of_false down, onlyIf_of_false down, onlyIf_of_false down, onlyIf_of_false (by rw [down]; rfl),
    onlyIf_of_false down, onlyIf_of_false down⟩

/-! ## Re-reads and stalls (R382) -/

theorem execSqReread_waiting (waits : s.hif.queues[q].waitVis = true) : execSqReread q s = .next (s.pumpQueue q) := onlyIf_of_true waits

theorem execSqReread_visible (visible : s.hif.queues[q].waitVis = false) : execSqReread q s = .next s := onlyIf_of_false visible

theorem execSqStalled_waiting (running : s.hif.queues[q].state = qRunning) (waits : s.hif.queues[q].waitVis = true) :
    let x := s.hif.queues[q]
    let found := Cells.le x.landed (64 * (x.nextSeq.toNat % max 1 (x.depth.getD 1))) 4
    execSqStalled q s =
      .next ((s.updQueue q fun y => { y with state := qStalled }).event (qpProc (s.queueQp q)) 3 2 [q.val, x.nextSeq.toNat, found]) := by
  have due : (s.hif.queues[q].state = qRunning && s.hif.queues[q].waitVis) = true := by rw [running, waits]; rfl
  rw [execSqStalled]
  exact onlyIf_of_true due

theorem execSqStalled_visible (visible : s.hif.queues[q].waitVis = false) : execSqStalled q s = .next s := by
  have not_due : (s.hif.queues[q].state = qRunning && s.hif.queues[q].waitVis) = false := by rw [visible, Bool.and_false]
  rw [execSqStalled]
  exact onlyIf_of_false not_due

end

/-- Settles O43: each command of the window by what it does to its queue, a doorbell by its SEQ and the oldest entry, SQ_CFG by the queue's state. -/
theorem queueWindow : Obligations.QueueWindow := by
  intro s q x oldest
  refine ⟨fun link => ⟨?slot, ?nothing, ?echo, ?doorbell, ?resume, ?resumeOther, ?reset, ?resetOther, ?enable, ?disable, ?disabled, ?cfg, ?head⟩,
    ?noLink, ?visible, ?reread, ?stalled⟩
  case slot => exact fun d off data depth some_byte => execSqSlotWrite_lands link depth some_byte
  case nothing => exact fun off data h => execSqSlotWrite_nothing link h
  case echo => exact execTailEcho_linked link
  case doorbell =>
    intro w
    refine ⟨execDoorbell_linked link, fun ignored => ignored.elim doorbell_behind doorbell_not_reading,
      fun reading ahead => ⟨fun beyond => ?_, fun within => ?_⟩⟩
    · exact (doorbell_ahead reading ahead).trans (if_pos beyond)
    · exact (doorbell_ahead reading ahead).trans (if_neg (Nat.not_lt.mpr within))
  case resume => exact fun h => resumeQueue_stalled h ▸ execResumeQueue_linked link
  case resumeOther => exact fun h => (execResumeQueue_linked link).trans (congrArg _ (resumeQueue_other h))
  case reset => exact fun n h => resetQueue_error h ▸ execResetQueue_linked link
  case resetOther => exact fun n h => (execResetQueue_linked link).trans (congrArg _ (resetQueue_other h))
  case enable =>
    intro w enable disabled low high ring attached
    have done := sqCfgWrite_disabled enable attached disabled low high ring
    exact ⟨_, _, execQueueEnable_linked link enable, done, rfl, rfl, rfl, rfl, rfl⟩
  case disable => exact fun h => disableQueue_enabled h ▸ execQueueDisable_linked link
  case disabled => exact fun h => (execQueueDisable_linked link).trans (congrArg _ (disableQueue_disabled h))
  case cfg => exact fun w enable => ⟨execQueueEnable_linked link enable, sqCfgWrite_enabled enable⟩
  case head => exact fun w => execCqHead_linked link
  case noLink => exact queueCommands_unlinked
  case visible => exact fun visible => ⟨execSqReread_visible visible, execSqStalled_visible visible⟩
  case reread => exact execSqReread_waiting
  case stalled => exact execSqStalled_waiting

end Sys2Proof.Machine
end

section
/-! SUPPORT. Commands of a submission queue: how an entry starts, completes and is written to the host's ring, and what a host time-out ends. -/

namespace Sys2Proof.Machine

/-! ## The start of an entry (R377, R378) -/

section
variable {s : State} {q : QId} {n : W32} {e : Sqe} {opc : Nat} {f : State → Sqe → Res}

/-- An entry that may start, of the command's opcode and well formed. -/
theorem startOf_ok (next : s.nextEntry q n = some e) (op : e.opc = opc) (ok : e.ok = true) : s.startOf q n opc f = f s e := by
  rw [State.startOf, next]
  dsimp only
  rw [if_neg (not_not.mpr op), ok]
  rfl

theorem startOf_bad (next : s.nextEntry q n = some e) (op : e.opc = opc) (bad : e.ok = false) :
    s.startOf q n opc f = .next (s.startEntry q n (some stBadDesc) 0 []) := by
  rw [State.startOf, next]
  dsimp only
  rw [if_neg (not_not.mpr op), bad]
  rfl

theorem startOf_otherOpcode (next : s.nextEntry q n = some e) (op : e.opc ≠ opc) : s.startOf q n opc f = .next s := by
  rw [State.startOf, next]
  exact if_pos op

theorem execQNop_starts (next : s.nextEntry q n = some e) (ok : e.ok = true) (op : e.opc = 0) :
    execQNop q n s = .next (s.startEntry q n (some stOk) 0 []) := startOf_ok next op ok

theorem execQFence_starts (next : s.nextEntry q n = some e) (ok : e.ok = true) (op : e.opc = 1) :
    execQFence q n s = .next (s.startEntry q n (some stOk) 0 []) := startOf_ok next op ok

theorem execQWaitStep_starts (next : s.nextEntry q n = some e) (ok : e.ok = true) (op : e.opc = 6) :
    execQWaitStep q n s = .next (s.startEntry q n none 0 []) := startOf_ok next op ok

theorem queueWrite_of_goodPrefix {a k st : Nat} {bs : List Byte} (h : s.goodPrefix false a bs.length = (k, st)) :
    s.queueWrite q n a bs = .next (((if k = 0 then s else s.writeAs .host a (bs.take k)).accessRecord whoHost st (a + k)).startEntry q n (some st) k
      (if k = 0 then [] else [(a, k)])) := by
  rw [State.queueWrite, h]

/-! ### Entries that move bytes -/

section
variable (next : s.nextEntry q n = some e) (ok : e.ok = true)
include next ok

theorem execQCopyIn_hostUp (op : e.opc = 2) (up : s.hostUp = true) :
    execQCopyIn q n s = s.queueWrite q n e.daddr (Cells.dense s.mem.host e.haddr e.len) := by
  rw [execQCopyIn, startOf_ok next op ok, up]
  rfl

theorem execQCopyIn_hostDown (op : e.opc = 2) (down : s.hostUp = false) :
    execQCopyIn q n s = .next (s.startEntry q n (some stHost) 0 []) := by
  rw [execQCopyIn, startOf_ok next op ok, down]
  rfl

theorem execQCopyOut_hostDown (op : e.opc = 3) (down : s.hostUp = false) :
    execQCopyOut q n s = .next (s.startEntry q n (some stHost) 0 []) := by
  rw [execQCopyOut, startOf_ok next op ok, down]
  rfl

theorem execQCopyOut_hostUp {k st : Nat} (op : e.opc = 3) (up : s.hostUp = true) (h : s.goodPrefix true e.daddr e.len = (k, st)) :
    let v := (if k = 0 then s else s.touchLines e.daddr k).accessRecord whoHost st (e.daddr + k)
    let t : State := { v with mem := { v.mem with host := Cells.putDense v.mem.host e.haddr (s.readBytes e.daddr k) },
                              hif := { v.hif with hostWrites := v.hif.hostWrites + BitVec.ofNat 64 (k / 16) } }
    execQCopyOut q n s = .next (t.startEntry q n (some st) k []) := by
  rw [execQCopyOut, startOf_ok next op ok]
  dsimp only
  rw [up, if_neg (by decide), h]

theorem execQFill_starts (op : e.opc = 4) :
    execQFill q n s = s.queueWrite q n e.daddr ((List.replicate (e.len / 4) (toLe 4 e.arg)).flatten) := startOf_ok next op ok

/-! ### BATCH (R419) -/

theorem execQBatch_noJob (op : e.opc = 5) (none_loaded : s.jobLoaded = false) :
    execQBatch q n s = .next (s.startEntry q n (some 0x12) 0 []) := by
  rw [execQBatch, startOf_ok next op ok, none_loaded]
  rfl

theorem execQBatch_noRing (op : e.opc = 5) (loaded : s.jobLoaded = true) (beyond : 16 ≤ bits e.arg 15 0) :
    execQBatch q n s = .next (s.startEntry q n (some stBadDesc) 0 []) := by
  rw [execQBatch, startOf_ok next op ok, loaded]
  exact if_pos beyond

theorem execQBatch_full (op : e.opc = 5) (loaded : s.jobLoaded = true) (within : bits e.arg 15 0 < 16)
    (full : 256 ≤ (s.job.rings.filter fun x => x.1 = bits e.arg 15 0).length) : execQBatch q n s = .next s := by
  rw [execQBatch, startOf_ok next op ok, loaded]
  exact (if_neg (Nat.not_le.mpr within)).trans (if_pos full)

theorem execQBatch_room (op : e.opc = 5) (loaded : s.jobLoaded = true) (within : bits e.arg 15 0 < 16)
    (room : (s.job.rings.filter fun x => x.1 = bits e.arg 15 0).length < 256) :
    let t := s.startEntry q n none 0 []
    let ring := bits e.arg 15 0
    execQBatch q n s = .next { t with job := { t.job with rings := t.job.rings ++ [(ring, ⟨ring, q.val, n, e.daddr, e.len⟩)] } } := by
  rw [execQBatch, startOf_ok next op ok, loaded]
  exact (if_neg (Nat.not_le.mpr within)).trans (if_neg (Nat.not_le.mpr room))

/-! ### POST (R378) -/

theorem execQPost_noJob (op : e.opc = 7) (none_loaded : s.jobLoaded = false) :
    execQPost q n s = .next (s.startEntry q n (some 0x12) 0 []) := by
  rw [execQPost, startOf_ok next op ok, none_loaded]
  rfl

theorem execQPost_noVcid (op : e.opc = 7) (loaded : s.jobLoaded = true) (outside : s.job.vcids.length ≤ bits e.arg 15 0) :
    execQPost q n s = .next (s.startEntry q n (some stBadDesc) 0 []) := by
  rw [execQPost, startOf_ok next op ok, loaded]
  exact if_pos outside

theorem execQPost_posts (op : e.opc = 7) (loaded : s.jobLoaded = true) (inside : bits e.arg 15 0 < s.job.vcids.length) :
    execQPost q n s =
      .next ((s.postVcid (bits e.arg 15 0) (bits e.arg 19 16) (bits e.arg 31 24)).2.startEntry q n (some stOk) 0 []) := by
  rw [execQPost, startOf_ok next op ok, loaded]
  exact if_neg (Nat.not_le.mpr inside)

end

/-- The commands of a queue, by opcode. -/
theorem queueCommand_startOf {i : Nat × Instr} (h : i ∈ [(0, Instr.qNop q n), (1, .qFence q n), (2, .qCopyIn q n), (3, .qCopyOut q n),
    (4, .qFill q n), (5, .qBatch q n), (6, .qWaitStep q n), (7, .qPost q n)]) : ∃ f, exec i.2 s = s.startOf q n i.1 f := by
  simp only [List.mem_cons, List.not_mem_nil, or_false] at h
  rcases h with rfl | rfl | rfl | rfl | rfl | rfl | rfl | rfl
  · exact ⟨_, exec_qNop ..⟩
  · exact ⟨_, exec_qFence ..⟩
  · exact ⟨_, exec_qCopyIn ..⟩
  · exact ⟨_, exec_qCopyOut ..⟩
  · exact ⟨_, exec_qFill ..⟩
  · exact ⟨_, exec_qBatch ..⟩
  · exact ⟨_, exec_qWaitStep ..⟩
  · exact ⟨_, exec_qPost ..⟩

end

/-- Settles O44: a well-formed entry by its opcode and what that depends on, an ill-formed one by `startOf_bad`. That a ring of 16 or more is BAD_DESC,
that a full ring waits and that a write stops at the first failing line are the model's choices (log 75). -/
theorem queueCommands : Obligations.QueueCommands := by
  intro s q n e next
  refine ⟨fun ok => ⟨?nop, ?fence, ?waitStep, ?copyIn, ?fill, ?copyInDown, ?copyOutDown, ?copyOut, ?batch, ?noRing, ?full, ?batchNoJob, ?post, ?noVcid,
    ?postNoJob⟩, ?bad, fun a bs k st => queueWrite_of_goodPrefix⟩
  case nop => exact execQNop_starts next ok
  case fence => exact execQFence_starts next ok
  case waitStep => exact execQWaitStep_starts next ok
  case copyIn => exact execQCopyIn_hostUp next ok
  case fill => exact execQFill_starts next ok
  case copyInDown => exact execQCopyIn_hostDown next ok
  case copyOutDown => exact execQCopyOut_hostDown next ok
  case copyOut => exact fun k st => execQCopyOut_hostUp next ok
  case batch => exact execQBatch_room next ok
  case noRing => exact execQBatch_noRing next ok
  case full => exact execQBatch_full next ok
  case batchNoJob => exact execQBatch_noJob next ok
  case post => exact execQPost_posts next ok
  case noVcid => exact execQPost_noVcid next ok
  case postNoJob => exact execQPost_noJob next ok
  case bad =>
    intro bad i listed
    obtain ⟨f, row⟩ := queueCommand_startOf (s := s) listed
    rw [row]
    exact ⟨fun op => startOf_bad next op bad, startOf_otherOpcode next⟩

/-! ## Completion (R385, R386, R388) -/

section
variable {s : State} {q : QId} {n : W32} {e : Sqe}

/-- The ranges to which the VIS actions of a completing entry apply (R388). -/
def State.visRanges (s : State) (q : QId) (e : Sqe) : List (Nat × Nat) :=
  if e.opc = 1 then s.hif.queues[q].dests else if (e.opc = 2 ∨ e.opc = 4) ∧ 0 < e.done then [(e.daddr, e.done)] else []

section
variable (power : s.pwr.pstate ≤ 3) (up : s.procUp (qpProc (s.queueQp q)) = true)
include power up

theorem execCommandComplete_started {code : Nat} (found : s.hif.queues[q].entries.find? (fun e => e.seq = n) = some e) (started : e.started = true)
    (outcome : s.outcomeOf e = some code) :
    execCommandComplete q n s = .next ((s.visActions e.vis (s.visRanges q e)).complete q e code e.done) := by
  rw [execCommandComplete, onlyIf_of_true (by rw [up]; simpa using power)]
  dsimp only
  rw [found]
  dsimp only
  rw [started, if_neg (by decide), outcome]
  simp only [State.visRanges, Bool.and_eq_true, Bool.or_eq_true, decide_eq_true_eq]

theorem execCommandComplete_reserved (found : s.hif.queues[q].entries.find? (fun e => e.seq = n) = some e) (waits : e.started = false)
    (next : s.nextEntry q n = some e) (reserved : 8 ≤ e.opc) : execCommandComplete q n s = .next (s.complete q e stBadDesc 0) := by
  rw [execCommandComplete, onlyIf_of_true (by rw [up]; simpa using power)]
  dsimp only
  rw [found]
  dsimp only
  rw [waits, next]
  simp [reserved]

end

theorem execCommandComplete_unknown (none_found : s.hif.queues[q].entries.find? (fun e => e.seq = n) = none) :
    execCommandComplete q n s = .next s := by
  unfold execCommandComplete onlyIf
  dsimp only
  rw [none_found, ite_self]

/-- An entry that may start now has not started, and its processor serves the queue. -/
theorem nextEntry_some (h : s.nextEntry q n = some e) : e.started = false ∧ s.procUp (qpProc (s.queueQp q)) = true := by
  unfold State.nextEntry at h
  dsimp only at h
  split at h
  · next x found =>
    split at h
    · next may =>
      obtain rfl : x = e := by simpa using h
      simp only [Bool.and_eq_true] at may
      exact ⟨by simpa using List.find?_some found, may.2⟩
    · contradiction
  · contradiction

/-- The host ring's record marked as written (R386). -/
def HifSt.wrote (h : HifSt) (c : Cmpl) : List Cmpl :=
  h.ring.map fun (y : Cmpl) => if y.q = c.q && y.cidx = c.cidx && !y.written then { y with written := true } else y

theorem execCompletionWrite_writes {c : Cmpl} {l : Nat} (attached : s.hif.attached = true) (linked : s.hif.linkUp = true)
    (served : s.hif.queues[q].state ≠ qDetached) (next : s.nextCmpl q = some c) (log : s.hif.queues[q].cqLog = some l) :
    let a := s.hif.queues[q].cqBase.toNat / 4096 * 4096 + 64 * (c.cidx.toNat % 2 ^ l)
    execCompletionWrite q s = .next
      { s with mem := { s.mem with host := Cells.putDense s.mem.host a (c.bytes l) },
               hif := { s.hif with ring := s.hif.wrote c, hostWrites := s.hif.hostWrites + 1 } } := by
  rw [execCompletionWrite, onlyIf_of_true (by rw [attached, linked]; simpa using served)]
  dsimp only
  rw [next, log]
  rfl

theorem execCompletionWrite_nothing (h : s.nextCmpl q = none) : execCompletionWrite q s = .next s := by
  unfold execCompletionWrite onlyIf
  dsimp only
  rw [h, ite_self]

/-! ## A host-memory request unanswered for 10 ms (R370) -/

theorem execHostCompletionTimeout_core {c : CoreId} {op x y z w : Nat} {o : Op} {raw : List Byte} (known : s.cores[c].opAt op = some o)
    (body : o.body = .xfer raw x y z w) (moves : (XDesc.mk raw).op ≤ 1)
    (host : (XDesc.mk raw).dspace = 4 ∨ ((XDesc.mk raw).usesSrc = true ∧ (XDesc.mk raw).sspace = 4)) :
    let d := XDesc.mk raw
    execHostCompletionTimeout (.core c.val op) s = .next (s.setXfer c op 0 stHost (if d.dspace = 4 then d.dst else d.src)) := by
  have touches : ((XDesc.mk raw).op ≤ 1 && (((XDesc.mk raw).usesSrc && (XDesc.mk raw).sspace = 4) || (XDesc.mk raw).dspace = 4)) = true := by
    rcases host with h | ⟨src, h⟩ <;> simp [*]
  simp only [execHostCompletionTimeout, Fin.ofNat_val_eq_self, known, body]
  exact onlyIf_of_true touches

/-- The entries of a queue that wait for host memory. -/
def Sqe.awaitsHost (e : Sqe) (seq : W32) : Bool := e.seq = seq && e.started && (e.opc = 2 || e.opc = 3) && (e.code = some stOk || e.code = none)

theorem execHostCompletionTimeout_queue {k : Nat} (found : s.hif.queues[q].entries.find? (fun e => e.awaitsHost (BitVec.ofNat 32 k)) = some e) :
    let n := 16 * (Config.order s.free 0 (e.len / 16 + 1) % (e.len / 16 + 1))
    execHostCompletionTimeout (.queue q.val k) s =
      .next (((s.drawn 1).startEntry q e.seq (some stHost) n []).event (qpProc (s.queueQp q)) 3 5 [q.val, k, Config.order s.free 1 65536]) := by
  unfold Sqe.awaitsHost at found
  simp only [execHostCompletionTimeout, Fin.ofNat_val_eq_self, found]

theorem execHostCompletionTimeout_queue_none {k : Nat}
    (none_found : s.hif.queues[q].entries.find? (fun e => e.awaitsHost (BitVec.ofNat 32 k)) = none) :
    execHostCompletionTimeout (.queue q.val k) s = .next s := by
  unfold Sqe.awaitsHost at none_found
  simp only [execHostCompletionTimeout, Fin.ofNat_val_eq_self, none_found]

theorem execHostCompletionTimeout_firmware {k : Nat} {o : AccOp} (known : s.opOf 0x0015 = some o) :
    execHostCompletionTimeout (.firmware k) s = .next (if o.started then s.finishOp o mbFailed else s) := by
  rw [execHostCompletionTimeout]
  split
  · next x found =>
    obtain rfl : x = o := by simpa [known] using found.symm
    split <;> rfl
  · next none_found => simp [known] at none_found

/-- The bytes a timed-out entry is told to have moved: whole units of 16, no more than its length. -/
theorem timedOut_done_le (len x : Nat) : 16 * (x % (len / 16 + 1)) ≤ len := by
  have units : x % (len / 16 + 1) < len / 16 + 1 := Nat.mod_lt x (Nat.succ_pos _)
  omega

end

/-- Settles O45: a started entry, an entry of a reserved opcode, a record that has room, and a time-out by what waited for the host. The free DONE of a
timed-out entry and FAILED as the end of a transfer out are the model's choices (log 75, log 57). -/
theorem commandCompletion : Obligations.CommandCompletion := by
  intro s q
  refine ⟨?started, ?written, fun h => execCompletionWrite_nothing h, ?core, ?queue, fun k o known => execHostCompletionTimeout_firmware (k := k) known, ?reserved,
    fun n => execCommandComplete_unknown, fun n => execHostCompletionTimeout_queue_none⟩
  case started => exact fun n e code power up found started outcome => execCommandComplete_started power up found started outcome
  case written =>
    intro c l attached linked served next log
    exact ⟨_, execCompletionWrite_writes attached linked served next log, rfl, rfl, rfl⟩
  case core => exact fun c op o raw x y z w known body moves host => execHostCompletionTimeout_core known body moves host
  case queue =>
    intro n e found
    refine ⟨_, timedOut_done_le e.len (Config.order s.free 0 (e.len / 16 + 1)), Nat.mul_mod_right 16 _, ?_⟩
    exact execHostCompletionTimeout_queue (k := n.toNat) (by rw [BitVec.ofNat_toNat, BitVec.setWidth_eq]; exact found)
  case reserved =>
    intro n e next reserved power found
    obtain ⟨waits, up⟩ := nextEntry_some next
    exact execCommandComplete_reserved power up found waits next reserved

end Sys2Proof.Machine
end

section
/-! SUPPORT. The checks of a mailbox request: the command of each opcode serves its request, and the first failed check gives the response. -/

namespace Sys2Proof.Machine

/-! ## The rows of the opcodes (R409) -/

/-- The configuration that the row of an opcode hands on. -/
def rowConfig (op : Nat) (cfg : Option JobConfig) : Option JobConfig := if op = 0x0010 ∨ op = 0x0017 then cfg else none

section
variable {op : Nat} {ch : Chan} {m : MbxReq} {cfg : Option JobConfig} {i : Instr}

theorem exec_of_mailRow (s : State) (h : mailRow op ch m cfg = some i) : exec i s = s.mbRow op ch m (rowConfig op cfg) := by
  unfold mailRow at h
  split at h <;> cases h <;> rfl

/-- An opcode that has a row is listed with its payload length (R409). -/
theorem mbLength_of_mailRow (h : mailRow op ch m cfg = some i) : ∃ n, mbLength op = some n := by
  unfold mailRow at h
  split at h <;> cases h <;> exact ⟨_, rfl⟩

end

/-! ## The service of a request (R400, R407) -/

section
variable {s : State} {ch : Chan} {m : MbxReq} {cfg : Option JobConfig}

/-- Of the configuration a request carries, only a JOB_LOAD's matters to whether the request is permitted. -/
theorem mbPermits_rowConfig (op : Nat) : s.mbPermits op (rowConfig op cfg) = s.mbPermits op cfg := by
  by_cases load : op = 0x0010
  · rw [rowConfig, if_pos (.inl load)]
  · unfold State.mbPermits
    split
    · exact absurd rfl load
    all_goals rfl

theorem serve_repeated {r : MbxResp} (last : s.lastMail ch = some r) (same : r.seq = m.seq) : s.serve ch m cfg = s.respond ch r := by
  cases ch <;> simp only [State.lastMail] at last <;> simp only [State.serve, last, same, if_true]

/-! ## The checks in their order (R406 to R409, R507) -/

theorem mbServe_version (h : m.major ≠ 1) : s.mbServe ch m cfg = s.reply' ch m mbVersion [] := if_pos h

section
variable {n : Nat} (version : m.major = 1) (listed : mbLength m.op = some n)
include version listed

theorem mbServe_length (h : m.len ≠ n) : s.mbServe ch m cfg = s.reply' ch m mbLen [] := by
  rw [State.mbServe, if_neg (not_not.mpr version), listed]
  exact if_pos h

variable (length : m.len = n)
include length

theorem mbServe_denied (h : mailDenied ch m.op) : s.mbServe ch m cfg = s.reply' ch m mbDenied [] := by
  have denied : (ch = .mgmt && (m.op = 0x0002 || m.op = 0x0015 || m.op = 0x0016)) = true := by simpa [mailDenied, or_assoc] using h
  rw [State.mbServe, if_neg (not_not.mpr version), listed]
  dsimp only
  rw [if_neg (not_not.mpr length), if_pos denied]

theorem mbServe_session (h : s.mailUnattached ch m.op) : s.mbServe ch m cfg = s.reply' ch m mbSession [] := by
  obtain ⟨host, detached, needed⟩ := h
  have granted : (ch = .mgmt && (m.op = 0x0002 || m.op = 0x0015 || m.op = 0x0016)) = false := by rw [host]; rfl
  have unattached : (ch = .host && !s.hif.attached && !noSession m.op) = true := by rw [host, detached, needed]; rfl
  rw [State.mbServe, if_neg (not_not.mpr version), listed]
  dsimp only
  rw [if_neg (not_not.mpr length), granted, if_neg Bool.false_ne_true, if_pos unattached]

theorem mbServe_state (granted : ¬ mailDenied ch m.op) (attached : ¬ s.mailUnattached ch m.op) (h : s.mbPermits m.op cfg = false) :
    s.mbServe ch m cfg = s.reply' ch m mbState [] := by
  have not_denied : (ch = .mgmt && (m.op = 0x0002 || m.op = 0x0015 || m.op = 0x0016)) = false := by
    simpa [mailDenied, and_assoc] using granted
  have in_session : (ch = .host && !s.hif.attached && !noSession m.op) = false := by
    simpa [State.mailUnattached] using attached
  rw [State.mbServe, if_neg (not_not.mpr version), listed]
  dsimp only
  rw [if_neg (not_not.mpr length), not_denied, if_neg Bool.false_ne_true, in_session, if_neg Bool.false_ne_true, h]
  rfl

end
end

/-- Settles O46: the row of an opcode serves its request, a served request meets the checks one after the other. The order among them is the model's
choice (log 55). -/
theorem mailboxChecks : Obligations.MailboxChecks := by
  intro s ch m cfg i row
  obtain ⟨n, listed⟩ := mbLength_of_mailRow row
  have serves (up : s.chanUp ch = true) : exec i s = .next (s.serve ch m (rowConfig m.op cfg)) :=
    (exec_of_mailRow s row).trans (onlyIf_of_true (by simp [up]))
  refine ⟨fun r up last same => ?repeated, fun served => ?checks, serves, fun down => ?down⟩
  case repeated => rw [serves up, serve_repeated last same]
  case checks =>
    obtain ⟨up, -⟩ := id served
    rw [serves up, serve_of_servesMail served]
    refine ⟨fun major => ?_, fun major wrong => ?_, fun major length denied => ?_, fun major length unattached => ?_,
      fun major length granted attached forbidden => ?_⟩
    · rw [mbServe_version major]
    · rw [mbServe_length major listed fun length => wrong (by rw [listed, length])]
    · rw [mbServe_denied major length rfl denied]
    · rw [mbServe_session major length rfl unattached]
    · rw [mbServe_state major length rfl granted attached ((mbPermits_rowConfig m.op).trans forbidden)]
  case down => exact (exec_of_mailRow s row).trans (onlyIf_of_false (by simp [down]))

end Sys2Proof.Machine
end

section
/-! SUPPORT. The debug level and the fuses that a cold reset and a start from P4 leave: what neither logging nor training touches, and what sets them. -/

namespace Sys2Proof.Machine

/-- The debug level and the fuses. -/
def State.seal (s : State) : Nat × Fuses := (s.sec.level, s.fuses)

theorem foldl_seal {α : Type} {f : State → α → State} (h : ∀ s x, (f s x).seal = s.seal) (l : List α) (s : State) :
    (l.foldl f s).seal = s.seal := by
  induction l generalizing s with
  | nil => rfl
  | cons x l ih => exact (ih _).trans (h s x)

section
variable (s : State)

/-! ## The log and the events -/

theorem putRecord_seal (r : LogRec) : (s.putRecord r).seal = s.seal := by
  unfold State.putRecord
  split
  · rfl
  · split <;> rfl

theorem logAlways_seal (p : ProcId) (typ : Nat) (fields : List Nat) : (s.logAlways p typ fields).seal = s.seal := putRecord_seal ..

theorem logRec_seal (p : ProcId) (typ : Nat) (fields : List Nat) : (s.logRec p typ fields).seal = s.seal := by
  unfold State.logRec
  dsimp only
  split
  · exact logAlways_seal ..
  · rfl

theorem event_seal (p : ProcId) (block code : Nat) (fields : List Nat) : (s.event p block code fields).seal = s.seal := logRec_seal ..

theorem mgmtEvent_seal (sensor v : Nat) : (s.mgmtEvent sensor v).seal = s.seal := by
  unfold State.mgmtEvent
  split <;> rfl

theorem setStage_seal (n : Nat) : (s.setStage n).seal = s.seal := by
  unfold State.setStage
  split
  · rfl
  · exact mgmtEvent_seal ..

theorem tellPower_seal (old : Nat) : (s.tellPower old).seal = s.seal := by
  unfold State.tellPower
  split
  · rfl
  · exact mgmtEvent_seal ..

theorem startRecord_seal : s.startRecord.seal = s.seal := logRec_seal ..

theorem startLog_seal : s.startLog.seal = s.seal := by
  unfold State.startLog
  extract_lets early lost _ ring kept
  have filled : kept.seal = s.seal := foldl_seal (fun s r => putRecord_seal s r) early ring
  split
  · exact filled
  · exact (logAlways_seal ..).trans filled

theorem startIndex_seal : s.startIndex.seal = s.seal := rfl

theorem imageRecords_seal (sel : Option Nat) (split other : Bool) : (s.imageRecords sel split other).seal = s.seal := by
  unfold State.imageRecords
  dsimp only
  split
  · rfl
  · split
    · exact logRec_seal ..
    · split
      · rfl
      · exact logRec_seal ..

/-! ## Ports, cave and the core rail -/

theorem noRoute_seal (p : Packet) : (s.noRoute p).seal = s.seal := event_seal ..

theorem route_seal (p : Packet) (arr : Option Nat) : (s.route p arr).seal = s.seal := by
  unfold State.route
  split
  · rfl
  · dsimp only
    split
    · exact noRoute_seal ..
    · split
      · exact noRoute_seal s p
      · exact (noRoute_seal ..).trans (noRoute_seal ..)

theorem detachBranch_seal (p : Packet) (d off : Nat) : (s.detachBranch p d off).seal = s.seal := route_seal ..

theorem requeue_seal (d : Nat) (e : SendEnt) : (s.requeue d e).seal = s.seal := by
  unfold State.requeue
  split
  · rfl
  · split
    · rfl
    · split
      · split
        · rfl
        · exact detachBranch_seal ..
      · exact route_seal ..

theorem portState_seal (p : PortId) (st : Nat) : (s.portState p st).seal = s.seal := by
  unfold State.portState
  dsimp only
  split
  · rfl
  · split
    · exact event_seal ..
    · exact (foldl_seal (fun s e => requeue_seal s (portDir p) e) _ _).trans (event_seal ..)

theorem trainPorts_seal : s.trainPorts.seal = s.seal := by
  unfold State.trainPorts
  refine foldl_seal (fun s p => ?_) _ s
  exact portState_seal ..

theorem fixCave_seal : s.fixCave.seal = s.seal := by
  unfold State.fixCave
  split
  · rfl
  · dsimp only
    split <;> rfl

theorem startCave_seal : s.startCave.seal = s.seal := by
  unfold State.startCave
  exact fixCave_seal _

theorem trainModules_seal (want : Nat → Bool) : (s.trainModules want).seal = s.seal := by
  unfold State.trainModules
  rfl

theorem trainVatLinks_seal : s.trainVatLinks.seal = s.seal := by
  rw [State.trainVatLinks, trainModules_seal]

theorem cores_seal (cores : Vector Core 256) : ({ s with cores := cores } : State).seal = s.seal := rfl

theorem vcoreStart_seal : s.vcoreStart.seal = s.seal := by
  unfold State.vcoreStart
  rw [setStage_seal, startCave_seal, trainPorts_seal, trainVatLinks_seal, cores_seal]

/-! ## What sets the level (R492, R500) -/

theorem setLevel_seal (l : Nat) : (s.setLevel l).seal = (l, s.fuses) := by
  unfold State.setLevel
  dsimp only
  split
  · next same => rw [← same]; rfl
  · have told : (({ s with sec := { s.sec with level := l } } : State).event procSP 11 1 [s.sec.level, l, s.fuses.lc.toNat]
        |>.mgmtEvent 0x0103 l).seal = (l, s.fuses) := (mgmtEvent_seal ..).trans (event_seal ..)
    split
    · exact told
    · exact told

theorem levelAtStart_seal (quiet : s.sec.raise = false) : s.levelAtStart.seal = (s.fuses.startLevel, s.fuses) := by
  unfold State.levelAtStart
  dsimp only
  rw [quiet, if_neg Bool.false_ne_true]
  split
  · exact setLevel_seal ..
  · exact setLevel_seal ..

theorem coldPhase_seal (z : Fuses) (root ref : Bool) : (s.coldPhase z root ref).seal = (z.startLevel, z) := by
  unfold State.coldPhase
  extract_lets taken cold
  split
  next sel split other _ =>
  extract_lets _ _ _ _ read erased _ counted
  have set : read.seal = (z.startLevel, z) := (startIndex_seal _).trans (imageRecords_seal ..)
  have kept : erased.seal = read.seal := by
    show (if _ then _ else _ : State).seal = _
    split <;> rfl
  have same : counted.seal = erased.seal := rfl
  clear_value counted erased read
  rw [setStage_seal, startRecord_seal, same, kept, set]

theorem startUp_seal (f : StartFacts) (quiet : s.sec.raise = false) : (s.startUp f).seal = (s.fuses.startLevel, s.fuses) := by
  unfold State.startUp
  extract_lets old cause fresh _ begun level _ _ rails trained _ loaded logged
  have set : level.seal = (s.fuses.startLevel, s.fuses) := levelAtStart_seal begun.startIndex quiet
  have powered : trained.seal = level.seal := tellPower_seal ..
  have recorded : logged.seal = level.seal := (startRecord_seal _).trans ((startLog_seal _).trans powered)
  clear_value level trained logged
  split
  · exact (setStage_seal ..).trans set
  · split
    · exact (setStage_seal ..).trans (powered.trans set)
    · split
      · exact (setStage_seal ..).trans (powered.trans set)
      · split
        · exact (vcoreStart_seal _).trans (recorded.trans set)
        · exact (setStage_seal ..).trans (recorded.trans set)

end

/-! ## The lifecycle of a fuse record (R492) -/

section
variable {z : Fuses}

theorem fuses_manufacture (h : z.lc = 0#3) : z.lifecycle = 0 ∧ z.startLevel = 2 ∧ z.hasKey = false := by
  have lc : z.lifecycle = 0 := by rw [Fuses.lifecycle, h]; rfl
  exact ⟨lc, by rw [Fuses.startLevel, lc]; rfl, by rw [Fuses.hasKey, lc]; rfl⟩

theorem fuses_provisioned (h : z.lc = 1#3) : z.lifecycle = 1 ∧ z.startLevel = 1 ∧ (z.keyKill = false → z.hasKey = true) := by
  have lc : z.lifecycle = 1 := by rw [Fuses.lifecycle, h]; rfl
  exact ⟨lc, by rw [Fuses.startLevel, lc]; rfl, fun keyed => by rw [Fuses.hasKey, lc, keyed]; rfl⟩

theorem fuses_field (h : z.lc = 3#3) : z.lifecycle = 2 ∧ z.startLevel = 0 ∧ (z.keyKill = false → z.hasKey = true) := by
  have lc : z.lifecycle = 2 := by rw [Fuses.lifecycle, h]; rfl
  exact ⟨lc, by rw [Fuses.startLevel, lc]; rfl, fun keyed => by rw [Fuses.hasKey, lc, keyed]; rfl⟩

theorem fuses_return (h0 : z.lc ≠ 0#3) (h1 : z.lc ≠ 1#3) (h3 : z.lc ≠ 3#3) :
    z.lifecycle = 3 ∧ z.startLevel = 2 ∧ z.hasKey = false := by
  have lc : z.lifecycle = 3 := by
    unfold Fuses.lifecycle
    split
    · next h => exact absurd (BitVec.eq_of_toNat_eq h) h0
    · next h => exact absurd (BitVec.eq_of_toNat_eq h) h1
    · next h => exact absurd (BitVec.eq_of_toNat_eq h) h3
    · rfl
  exact ⟨lc, by rw [Fuses.startLevel, lc]; rfl, by rw [Fuses.hasKey, lc]; rfl⟩

end

/-- Settles O57: a cold reset leaves its fuses and the level they give, a start from P4 without a raise the level of the fuses it finds. -/
theorem lifecycleSetsTheLevel : Obligations.LifecycleSetsTheLevel := by
  refine ⟨fun s z root ref held cold => ?cold, fun s f p4 done released free idle ready up quiet => ?start⟩
  case cold =>
    have runs : execColdResetRelease ⟨z, root, ref⟩ s = .next (s.coldPhase z root ref) := onlyIf_of_true (by rw [held, cold]; rfl)
    obtain ⟨level, fuses⟩ := Prod.mk.inj (coldPhase_seal s z root ref)
    refine ⟨_, runs, fuses, ?_⟩
    rw [fuses, level]
    exact ⟨fuses_manufacture, fuses_provisioned, fuses_field, fuses_return⟩
  case start =>
    have runs : execStartFromP4 f s = .next (({ s with inp := { s.inp with refOk := f.refOk } } : State).startUp f) := by
      rw [execStartFromP4, onlyIf_of_true (by rw [p4, done, released, free, idle, up]; rfl)]
      dsimp only
      rw [if_pos ready]
    obtain ⟨level, fuses⟩ := Prod.mk.inj (startUp_seal { s with inp := { s.inp with refOk := f.refOk } } f quiet)
    refine ⟨_, runs, fuses, ?_⟩
    rw [level]
    refine ⟨fun h => ?_, fun h => ?_, fun h => ?_, fun h0 h1 h3 => ?_⟩
    · obtain ⟨-, given, -⟩ := fuses_manufacture h
      exact given
    · obtain ⟨-, given, -⟩ := fuses_provisioned h
      exact given
    · obtain ⟨-, given, -⟩ := fuses_field h
      exact given
    · obtain ⟨-, given, -⟩ := fuses_return h0 h1 h3
      exact given

end Sys2Proof.Machine
end

section
/-! SUPPORT. What the commands of a checkpoint do (R475, R476, R478, R482, R483). -/

namespace Sys2Proof.Machine

section
variable {s : State} {k : Nat} {p : Packet}

/-! ## Checkpoint packets -/

/-- Buddy data of an image inside the reserve, from the member whose buddy the module is (R478). -/
theorem execCkptData_fits {off : Nat} {bs : List Byte} (h : s.holdsPacket k p) (hmsg : p.msg = .ckpt (.data off bs))
    (buddy : (s.takeDeliv k).buddyOf p.src = some (s.takeDeliv k).fab.faddr.toNat) (room : off + bs.length ≤ (s.takeDeliv k).reserve.2) :
    execCkptData k s = .next (({ s.takeDeliv k with
      mem := ((s.takeDeliv k).mem.write ((s.takeDeliv k).reserve.1 + off) bs).writeBack ((s.takeDeliv k).reserve.1 + off) bs.length }).ackCkpt p stOk) := by
  rw [execCkptData, onDelivered_of_holdsPacket h (by rw [hmsg]; rfl), hmsg]
  exact if_pos (Bool.and_eq_true_iff.mpr ⟨decide_eq_true buddy, decide_eq_true room⟩)

theorem execCkptData_refused {off : Nat} {bs : List Byte} (h : s.holdsPacket k p) (hmsg : p.msg = .ckpt (.data off bs))
    (out : ¬ ((s.takeDeliv k).buddyOf p.src = some (s.takeDeliv k).fab.faddr.toNat ∧ off + bs.length ≤ (s.takeDeliv k).reserve.2)) :
    execCkptData k s = .next ((s.takeDeliv k).ackCkpt p stUnmapped) := by
  rw [execCkptData, onDelivered_of_holdsPacket h (by rw [hmsg]; rfl), hmsg]
  refine if_neg fun both => ?_
  obtain ⟨buddy, room⟩ := Bool.and_eq_true_iff.mp both
  exact out ⟨of_decide_eq_true buddy, of_decide_eq_true room⟩

theorem execCkptHold_delivered {e : Nat} (h : s.holdsPacket k p) (hmsg : p.msg = .ckpt (.hold e)) :
    execCkptHold k s = (
      let t := s.takeDeliv k
      if !s.jobLoaded || decide (e < s.ras.epoch.toNat) then .next (t.ackCkpt p stStale)
      else if e = s.ras.epoch.toNat then .next (t.ackCkpt p stOk)
      else
        let u := ({ t with ras := { t.ras with epoch := BitVec.ofNat 32 e, recovering := true, states := [], stateDue := true } }.ackCkpt
          p stOk).putHeader
        .next (if 1 ≤ u.job.phase ∧ u.job.phase ≤ 3 then u.failNow u.job.govf false else u).payState) := by
  rw [execCkptHold, onDelivered_of_holdsPacket h (by rw [hmsg]; rfl), hmsg]
  rfl

theorem execCkptState_delivered {e : Nat} {r : CkptRec} (h : s.holdsPacket k p) (hmsg : p.msg = .ckpt (.state e r)) :
    execCkptState k s = (
      let t := s.takeDeliv k
      if e < s.ras.epoch.toNat then .next (t.ackCkpt p stStale)
      else
        let rank := ((t.job.cfg.map (·.members)).getD []).idxOf p.src
        let u := t.ackCkpt p stOk
        let others := u.ras.states.filter (fun (x : Nat × CkptRec) => x.1 ≠ rank)
        .next ({ u with ras := { u.ras with states := others ++ [(rank, r)] } }).tryGo) := by
  rw [execCkptState, onDelivered_of_holdsPacket h (by rw [hmsg]; rfl), hmsg]
  rfl

theorem execCkptGo_delivered {e : Nat} {r : CkptRec} (h : s.holdsPacket k p) (hmsg : p.msg = .ckpt (.go e r)) :
    execCkptGo k s = if e < s.ras.epoch.toNat then .next ((s.takeDeliv k).ackCkpt p stStale)
      else .next (((s.takeDeliv k).ackCkpt p stOk).takeGo r false) := by
  rw [execCkptGo, onDelivered_of_holdsPacket h (by rw [hmsg]; rfl), hmsg]
  rfl

theorem execCkptAck_delivered {step code : Nat} (h : s.holdsPacket k p) (hmsg : p.msg = .ckptAck code) (due : s.ras.buddyDue = some step) :
    execCkptAck k s = (
      let t := s.takeDeliv k
      if p.tag ≠ 1 || some p.src ≠ t.buddyOf t.fab.faddr.toNat then .next t
      else if code = stOk then .next { t with ras := { t.ras with buddyDue := none, buddyOk := true } }
      else
        let u : State := { t with ras := { t.ras with buddyDue := none, buddyOk := false } }
        .next (u.event (qpProc (u.servingQp 0)) 10 2 [step, p.src])) := by
  have due' : (s.takeDeliv k).ras.buddyDue = some step := due
  rw [execCkptAck, onDelivered_of_holdsPacket h (by rw [hmsg]), hmsg]
  dsimp only
  rw [due']
  rfl

/-- A damaged checkpoint packet is counted and not handled (R287). -/
theorem ckpt_damaged {i : Nat × Instr} (handler : i ∈ [(0, Instr.ckptData k), (1, .ckptHold k), (2, .ckptState k), (3, .ckptGo k)])
    (held : s.fab.deliv[k]? = some p) (kind : isCkpt i.1 p.msg = true) (bad : p.crcOk = false) :
    exec i.2 s = .next (s.takeDeliv k).badPacket := by
  simp only [List.mem_cons, List.not_mem_nil, or_false] at handler
  rcases handler with rfl | rfl | rfl | rfl
  · exact (exec_ckptData s k).trans (onDelivered_damaged held bad kind)
  · exact (exec_ckptHold s k).trans (onDelivered_damaged held bad kind)
  · exact (exec_ckptState s k).trans (onDelivered_damaged held bad kind)
  · exact (exec_ckptGo s k).trans (onDelivered_damaged held bad kind)

/-! ## Deltas, merges and restores -/

theorem execDeltaComplete_open {d : Delta} (up : (s.ras.inflight && s.ras.caveOn && s.ras.caveOk && s.running) = true)
    (found : (s.ras.deltas.find? fun d => !d.ended) = some d) :
    execDeltaComplete s = (
      let used := s.ras.deltas.foldl (fun a x => a + x.imgs.foldl (fun b i => b + i.size) 64) 0
      let straight := s.ras.full && s.ras.newest.isNone && s.ras.base.isEmpty
      let t := if s.job.phase = 5 then
          ({ s with ras := { s.ras with deltaWait := s.ras.deltaWait + (Config.fresh s.free &&& 0xffffffff#64) } } : State).drawn 1
        else s
      if !straight && decide (s.baseBytes + gibi < used) then .next s else .next (t.endDelta d).pumpReshard) := by
  rw [execDeltaComplete, onlyIf_of_true up]
  dsimp only
  rw [found]

theorem execDeltaMergeDone_merges {d : Delta} {ds : List Delta} {n : Nat} (up : (s.ras.caveOn && s.ras.caveOk && s.running) = true)
    (first : s.ras.deltas = d :: ds) (newest : s.ras.newest = some n) (ended : d.ended = true) (old : d.step + 2 ≤ n) :
    execDeltaMergeDone s = .next ({ s with ras := { s.ras with
      base := (s.ras.base.filter fun (i : GroupImg) => !d.imgs.any fun x => x.key = i.key) ++ d.imgs, deltas := ds, merged := d.step } }).putHeader := by
  rw [execDeltaMergeDone, onlyIf_of_true up, first, newest]
  dsimp only
  rw [if_pos (by rw [ended, decide_eq_true old]; rfl)]

end

/-- Settles O31: each checkpoint packet by what it says and its EPOCH, each event of the store by the conditions it waits for. -/
theorem checkpointCommands : Obligations.CheckpointCommands := by
  intro s k p
  refine ⟨fun off bs h hmsg => ⟨fun fits => execCkptData_fits h hmsg fits.1 fits.2, fun out => execCkptData_refused h hmsg out⟩,
    fun e h hmsg => ?hold, fun e r h hmsg => ?state, fun e r h hmsg => ?go, fun step code h hmsg due => ?ack,
    fun i handler held kind bad => ckpt_damaged handler held kind bad, fun d run on ok inflight found => ?delta,
    fun d ds n run on ok first newest ended old => execDeltaMergeDone_merges (by rw [on, ok, run]; rfl) first newest ended old,
    fun t sc lost pending job run => ?restore⟩
  case hold =>
    rw [exec_ckptHold, execCkptHold_delivered h hmsg]
    have fresh (job : s.jobLoaded = true) (above : s.ras.epoch.toNat ≤ e) : ¬ (!s.jobLoaded || decide (e < s.ras.epoch.toNat)) = true := by
      rw [job, decide_eq_false (Nat.not_lt.mpr above)]
      exact Bool.false_ne_true
    refine ⟨fun stale => if_pos ?_, fun job same => (if_neg (fresh job same.ge)).trans (if_pos same),
      fun job later => (if_neg (fresh job later.le)).trans (if_neg later.ne')⟩
    simpa using stale
  case state =>
    rw [exec_ckptState, execCkptState_delivered h hmsg]
    exact ⟨fun below => if_pos below, fun above => if_neg (Nat.not_lt.mpr above)⟩
  case go =>
    rw [exec_ckptGo, execCkptGo_delivered h hmsg]
    exact ⟨fun below => if_pos below, fun above => if_neg (Nat.not_lt.mpr above)⟩
  case ack =>
    rw [exec_ckptAck, execCkptAck_delivered h hmsg due]
    refine ⟨fun other => if_pos (Bool.or_eq_true_iff.mpr (other.imp decide_eq_true fun stranger => decide_eq_true stranger.symm)), fun tag buddy => ?_⟩
    refine (if_neg fun other => ?_).trans (apply_ite Host.Outcome.next _ _ _).symm
    obtain wrong | wrong := Bool.or_eq_true_iff.mp other
    · exact of_decide_eq_true wrong tag
    · exact of_decide_eq_true wrong buddy.symm
  case delta =>
    rw [exec_deltaComplete, execDeltaComplete_open (by rw [inflight, on, ok, run]; rfl) found]
    dsimp only
    rw [apply_ite Host.Outcome.next]
    simp only [Bool.and_eq_true, Bool.not_eq_true', decide_eq_true_eq]
  case restore =>
    rw [exec_restoreComplete, execRestoreComplete, pending]
    exact onlyIf_of_true (by rw [job, run]; rfl)

end Sys2Proof.Machine
end
